-- ==== Sys2Proof/Word.lean ====
section
/-! DEFINITION. The word types of the 740: bytes of messages and of the clip store, audio samples. -/

namespace Sys2Proof

/-- A byte of a message channel or of a clip page. -/
abbrev Byte := BitVec 8

/-- A 24-bit signed audio slot (spec/00_scope.md, Conventions; R162). -/
abbrev Audio := BitVec 24

end Sys2Proof
end

