-- ==== Sys2Proof/Syntax.lean ====
section
/-! DEFINITION. The commands of the 740: one constructor of `Instr` for each row of spec/opcode_table.json, with the
operands the row's rule names, and the types of those operands. -/

namespace Sys2Proof

/-- What the page code says of a read (R124): no error, a single-bit error corrected, a multi-bit error. -/
inductive ReadVerdict where
  | good
  | corrected
  | unreadable
  deriving DecidableEq, Repr

/-- The three banks of the clip store (7.1). -/
inductive ClipBank where
  | r
  | a
  | b
  deriving DecidableEq, Repr

/-- The guard marks (R133). -/
inductive GuardMark where
  | g1
  | g2
  deriving DecidableEq, Repr

/-- The three claim modes WHOLE, PARTIAL and JOIN (2.5). -/
inductive ClaimMode where
  | whole
  | part
  | join
  deriving DecidableEq, Repr

/-- Resume policies (5.1). -/
inductive ResumePolicy where
  | restart
  | abandon
  deriving DecidableEq, Repr

/-- Kinds of call (4.3). -/
inductive CallKind where
  | arrive
  | depart
  deriving DecidableEq, Repr

/-- The spoken fields of a FIELD item (5.1), in its order. -/
inductive SpokenField where
  | platform
  | destination
  | scheduled
  | expected
  | delay
  deriving DecidableEq, Repr

/-- Items of a template (5.1). -/
inductive Item where
  | clip (c : Nat)
  | field (f : SpokenField)
  | pause (n : Nat)
  | tone (t n : Nat)
  deriving DecidableEq, Repr

/-- Targets of a template (5.1). -/
inductive Target where
  | group (g : Nat)
  | callPlatform
  | profile
  deriving DecidableEq, Repr

/-- A fragment of the alert list or the evacuation list (7.9). -/
inductive ListItem where
  | clip (c : Nat)
  | tone (t n : Nat)
  deriving DecidableEq, Repr

/-- Sources of an OUTPUT line (R146), in the table's order. -/
inductive OutSource where
  | zoneHeld (z : Nat)
  | zoneFaulted (z : Nat)
  | platformOccupied (p : Nat)
  | platformFinal (p : Nat)
  | evacNotNormal
  | alertRaised
  deriving DecidableEq, Repr

/-- Force of an OUTPUT line (R139). -/
inductive Force where
  | none
  | on
  | off
  deriving DecidableEq, Repr

/-- The evacuation functions of a contact line (8.1). -/
inductive EvacFn where
  | alert
  | full
  | talk
  | reset
  deriving DecidableEq, Repr

/-- Functions of a contact line with their parameters (8.1, R139). -/
inductive LineFn where
  | plain
  | talk (lane group priority : Nat)
  | trainPresent (p : Nat)
  | doorsClosed (p : Nat)
  | platformWarn (p : Nat)
  | zoneFault (z : Nat)
  | output (src : OutSource) (gen : Nat) (invert : Bool) (force : Force)
  | evac (f : EvacFn)
  deriving DecidableEq, Repr

/-- Polarity of a contact line (8.1). -/
inductive Polarity where
  | activeHigh
  | activeLow
  deriving DecidableEq, Repr

/-- Edge report of a contact line (8.1). -/
inductive EdgeReport where
  | none
  | rising
  | falling
  | both
  deriving DecidableEq, Repr

/-- A field that a request may leave out, carry as none (or CLEAR), or carry with a value (R174). -/
inductive Carried (α : Type) where
  | left
  | cleared
  | value (a : α)
  deriving DecidableEq, Repr

/-- The header of a message of class request on UP (R174), less kind, class and body length. -/
structure RequestHeader where
  destination : Nat
  source : Nat
  tag : Nat
  deriving DecidableEq, Repr

/-- The header of any message handed to the message engine by UP (R174). -/
structure MessageHeader where
  destination : Nat
  source : Nat
  kind : Nat
  cls : Nat
  tag : Nat
  deriving DecidableEq, Repr

/-- An upstream frame as received (R162). Bit `i` of `presence` is the flag of lane `i`. -/
structure UpFrame where
  sync : BitVec 16
  index : BitVec 6
  valid : Bool
  spare : Bool
  presence : BitVec 32
  slots : Vector Audio 32
  byte : Byte
  headerCheck : BitVec 8
  slotCheck : BitVec 16
  deriving DecidableEq, Repr

/-- A node return frame as received (R162). -/
structure NodeFrame where
  sync : BitVec 16
  index : BitVec 6
  valid : Bool
  spare : Bool
  byte : Byte
  headerCheck : BitVec 8
  slotCheck : BitVec 16
  deriving DecidableEq, Repr

/-- What reaches the part with a frame of its frame clock: the raw levels of CL0 to CL15 (bit `i` set: CLi HIGH), read
when the frame carries a block mark (R141), and the page code's verdict on a read that this frame completes (R124). -/
structure FrameInput where
  levels : BitVec 16
  verdict : ReadVerdict
  deriving DecidableEq, Repr

/-- A complete message on a downstream channel, read as a ZONE REPORT (1.6): its class and kind, and the three fields as
coded (condition 0 NORMAL, 1 HOT, 2 OPEN, 3 SHORT). -/
structure ReportMessage where
  cls : Nat
  kind : Nat
  slot : Nat
  condition : Nat
  ambient : Option Nat
  deriving DecidableEq, Repr

/-- A record of class ZONE, writable fields (R179). -/
structure ZoneRecord where
  zone : Nat
  port : Option Nat
  slot : Option Nat
  enabled : Bool
  bgLane : Option Nat
  bgBase : Nat
  duck : Nat
  fgBase : Nat
  evacBase : Nat
  fallback : Option Nat
  compOn : Bool
  compRef : Nat
  compLimit : Nat
  deriving DecidableEq, Repr

/-- A record of class PROFILE (R57, R179); the templates stand for APPROACH, ARRIVED, BOARDING, FINAL, DELAY,
PLATFORM_CHANGE and CANCELLED, in this order. -/
structure ProfileRecord where
  profile : Nat
  approachLead : Nat
  boardingLead : Nat
  finalLead : Nat
  clearDelay : Nat
  delayThreshold : Nat
  concourse : Option Nat
  templates : Vector (Option Nat) 7
  deriving DecidableEq, Repr

/-- A record of class TEMPLATE (R82). -/
structure TemplateRecord where
  template : Nat
  target : Target
  priority : Nat
  mode : ClaimMode
  resume : ResumePolicy
  repeats : Nat
  gap : Nat
  window : Nat
  items : List Item
  deriving DecidableEq, Repr

/-- A record of class CONTACT_LINE (R139). -/
structure LineRecord where
  line : Nat
  fn : LineFn
  polarity : Polarity
  debounce : Nat
  report : EdgeReport
  deriving DecidableEq, Repr

/-- The fields of CALL LOAD (R58). -/
structure CallLoad where
  slot : Nat
  kind : CallKind
  service : Nat
  destination : Nat
  platform : Option Nat
  scheduled : Nat
  expected : Option Nat
  profile : Nat
  deriving DecidableEq, Repr

/-- The field values of an ANNOUNCE request (R94). -/
structure FieldValues where
  platform : Option Nat
  destination : Option Nat
  scheduled : Option Nat
  expected : Option Nat
  delay : Option Nat
  deriving DecidableEq, Repr

/-- The fields of ANNOUNCE (R94). -/
structure Announcement where
  template : Nat
  priority : Option Nat
  group : Option Nat
  notBefore : Option Nat
  values : FieldValues
  deriving DecidableEq, Repr

/-- The fields of LIVE START, less the evacuation flag (R36). -/
structure LiveStart where
  lane : Nat
  group : Nat
  priority : Nat
  limit : Nat
  deriving DecidableEq, Repr

/-- An entry of GAIN SET (R45). -/
structure GainEntry where
  zone : Nat
  fg : Option Nat
  bg : Option Nat
  deriving DecidableEq, Repr

/-- An evacuation line of the resident programme (7.9). -/
structure EvacLine where
  fn : EvacFn
  polarity : Polarity
  debounce : Nat
  deriving DecidableEq, Repr

/-- The fields of PROGRAM WRITE (R136). -/
structure ProgramFields where
  enabled : Vector Bool 64
  lane : Option Nat
  alertList : List ListItem
  evacList : List ListItem
  duration : Nat
  lines : Vector (Option EvacLine) 16
  deriving DecidableEq, Repr

/-- The index fields of a TABLE READ (R179): none, one index, or a first index and a count. -/
inductive ReadIndex where
  | none
  | one (i : Nat)
  | range (first count : Nat)
  deriving DecidableEq, Repr

/-- The commands. Ports are numbered UP 0, DN0 to DN3 1 to 4; downstream ports alone 0 to 3. -/
inductive Instr where
  -- power and reset
  | powerOn
  | powerLoss
  | lineReset
  | resetRelease (cl0High : Bool)
  | scanComplete
  -- the frame clock and what comes at its block marks
  | frameClockFrame (x : FrameInput)
  | generatorPeriodEnd (g : Fin 4)
  | contactEdge (l : Fin 16)
  | lineSettle (l : Fin 16) (high : Bool)
  | secondAdvance
  | dueEntryTaken
  | requestReady (n : Nat)
  | requestExpired (n : Nat)
  | pageReadComplete (v : ReadVerdict)
  | voiceStart (v : Fin 8)
  | voiceResume (v : Fin 8)
  | voiceEnd (v : Fin 8)
  | voiceCancelStop (v : Fin 8)
  | evacListChange
  | zoneSilenceExpiry (z : Fin 64)
  | talkLimit (lane : Fin 32)
  | laneAbsent (lane : Fin 32)
  | alertTimerExpiry
  -- ends of store operations
  | programmingComplete
  | verifyComplete (v : ReadVerdict)
  | eraseComplete
  | programWriteComplete (cl0High : Bool)
  -- the Span ports
  | portActivity (p : Fin 5)
  | portActivityLost (p : Fin 5)
  | syncFound (p : Fin 5) (index : BitVec 6)
  | upstreamFrame (f : UpFrame)
  | nodeReturnFrame (p : Fin 4) (f : NodeFrame)
  -- messages
  | upMessageDiscarded (m : MessageHeader)
  | requestUnknownKind (h : RequestHeader) (kind : Nat)
  | zoneReport (p : Fin 4) (r : ReportMessage)
  | outboundMessageStart
  | messageSendComplete
  -- requests: link and administration
  | hello (h : RequestHeader)
  | address (h : RequestHeader) (a : Nat)
  | status (h : RequestHeader) (clear : Bool)
  | resetAudio (h : RequestHeader)
  | resetFull (h : RequestHeader)
  | alertMask (h : RequestHeader) (conditions : List Nat)
  -- requests: tables
  | tableWriteZone (h : RequestHeader) (r : ZoneRecord)
  | tableWriteGroup (h : RequestHeader) (group : Nat) (members : List Nat)
  | tableWritePlatform (h : RequestHeader) (platform : Nat) (group template : Option Nat)
  | tableWriteProfile (h : RequestHeader) (r : ProfileRecord)
  | tableWriteTemplate (h : RequestHeader) (r : TemplateRecord)
  | tableWriteHours (h : RequestHeader) (first : Nat) (entries : List (Option Nat))
  | tableWriteMinutes (h : RequestHeader) (first : Nat) (entries : List (Option Nat))
  | tableWriteNumbers (h : RequestHeader) (first : Nat) (entries : List (Option Nat))
  | tableWritePlatformsPhrase (h : RequestHeader) (first : Nat) (entries : List (Option Nat))
  | tableWriteDestinations (h : RequestHeader) (first : Nat) (entries : List (Option Nat))
  | tableWriteContactLine (h : RequestHeader) (r : LineRecord)
  | tableWriteGenerator (h : RequestHeader) (gen p r f : Nat)
  | tableWriteLinkConfig (h : RequestHeader) (delay rate : Nat)
  | tableWriteUnassigned (h : RequestHeader) (cls : Nat)
  | tableRead (h : RequestHeader) (cls : Nat) (index : ReadIndex)
  -- requests: clock and calls
  | time (h : RequestHeader) (t dayBase : Nat)
  | callLoad (h : RequestHeader) (c : CallLoad)
  | callUpdate (h : RequestHeader) (slot : Nat) (expected platform : Carried Nat)
  | callMarkArrived (h : RequestHeader) (slot : Nat)
  | callMarkDeparted (h : RequestHeader) (slot : Nat)
  | callCancel (h : RequestHeader) (slot : Nat)
  | callRemove (h : RequestHeader) (slot : Nat)
  -- requests: announcements, live sources, gain
  | announce (h : RequestHeader) (a : Announcement)
  | announceCancel (h : RequestHeader) (number : Nat)
  | liveStart (h : RequestHeader) (l : LiveStart)
  | liveStartEvac (h : RequestHeader) (l : LiveStart)
  | liveStop (h : RequestHeader) (lane : Nat)
  | gainSet (h : RequestHeader) (entries : List GainEntry)
  | monitorSelect (h : RequestHeader) (zone : Option Nat)
  -- requests: evacuation
  | evacStart (h : RequestHeader)
  | evacEscalate (h : RequestHeader)
  | evacStop (h : RequestHeader)
  -- requests: clip store
  | clipOpen (h : RequestHeader) (clip : Nat) (bank : ClipBank) (count : Nat)
  | pageWrite (h : RequestHeader) (clip index : Nat) (data : List Byte)
  | clipSeal (h : RequestHeader) (clip length : Nat) (check : BitVec 32)
  | clipRetire (h : RequestHeader) (clip : Nat)
  | sectorEraseArm (h : RequestHeader) (bank : ClipBank) (sector : Nat)
  | sectorEraseGo (h : RequestHeader) (bank : ClipBank) (sector : Nat)
  | storeAbort (h : RequestHeader)
  | guardSet (h : RequestHeader) (mark : GuardMark)
  | guardClear (h : RequestHeader) (mark : GuardMark)
  | programWrite (h : RequestHeader) (p : ProgramFields)
  deriving DecidableEq, Repr

end Sys2Proof
end

