-- ==== Sys2Proof/Decode.lean ====
section
/-! DEFINITION. The command that a word spells by the bits of spec/opcode_table.json. No row of the table gives bits (its
rows are operations and events, with an empty list of fields), so no word spells a command. The bodies of request
messages are decoded in Sys2Proof/Machine/Message.lean. -/

namespace Sys2Proof

/-- No row of the opcode table gives bits. -/
def decodeTableWord (_nbits _w : Nat) : Option Instr := none

end Sys2Proof
end

