-- ==== Sys2Proof/Config.lean ====
section
/-! DEFINITION. Fixed numbers of the part, and the free values: constants without a body for what the spec leaves open. -/

namespace Sys2Proof.Config

/-- FREE VALUE (log entry 22): what a stored station time holds when the sum that gives it lies above
4,294,967,295. R85, R92 and R93 state no result there. -/
opaque timeOverflow : Nat → BitVec 32

/-- FREE VALUE (log entry 13): whether a tone value that lies exactly between two whole sample values is
rounded away from zero, for a positive and for a negative value. R111 says "rounded to the nearest whole sample value" and
names no tie. -/
opaque toneTieAway (negative : Bool) : Bool

/-- The largest station time (R54). -/
def maxTime : Nat := 4294967295

/-- The largest placement or creation stamp (R18, R85). -/
def maxStamp : Nat := 4294967295

/-- Capacity of the notice queue (R178). -/
def noticeCapacity : Nat := 24

/-- Entries of the request queue (R88). -/
def queueCapacity : Nat := 64

/-- Entries of the request queue open to priorities below 12 (R88). -/
def lowCapacity : Nat := 60

/-- Frames of the frame clock in one millisecond (R169). -/
def framesPerMs : Nat := 48

/-- Length of a page in bytes (7.1). -/
def pageBytes : Nat := 4096

/-- Samples in a page (7.1). -/
def pageSamples : Nat := 2048

/-- The count at which mute stands (R40). -/
def mute : Nat := 192

/-- Derating of a DERATED zone in steps (R41, R43). -/
def derating : Nat := 24

/-- A silence timer at this many milliseconds makes the line SILENT (R14). -/
def silenceLimit : Nat := 5000

/-- An absence of this many milliseconds is reported (R39). -/
def absenceLimit : Nat := 2000

/-- A due time further back than this many seconds makes the transition stale (R67). -/
def staleSeconds : Nat := 120

/-- Seconds a GONE or CANCELLED call waits for its removal (R59). -/
def removalDelay : Nat := 1800

/-- Seconds after its expected time at which a FINAL call is GONE (R59). -/
def doorsDelay : Nat := 600

/-- The sync word of every frame (R162). -/
def syncWord : BitVec 16 := 0xE4B1#16

/-- The vendor code of HELLO (R180). -/
def vendorCode : Nat := 2971

/-- The part code of HELLO (R180). -/
def partCode : Nat := 740

/-- The revision of HELLO (R180). -/
def revision : Nat := 1

/-- Largest run of message bytes (R171). -/
def maxRun : Nat := 4170

/-- Largest message body (R174). -/
def maxBody : Nat := 4160

end Sys2Proof.Config
end

