-- ==== Sys2Proof/Machine/Sparse.lean ====
section
/-! DEFINITION. Sparse data by key: a list of (key, value) pairs with keys strictly rising and no entry equal to what an
unlisted key reads as, so that equal contents are equal lists. The byte memory of the clip store, its page states and its
directory are of this form. Ordered insertion and fixed tables stand here too. -/

namespace Sys2Proof.Machine

/-- A sparse table; what an unlisted key reads as is an argument of its operations. -/
abbrev Sparse (α : Type) := List (Nat × α)

namespace Sparse

variable {α : Type}

/-- The value at `k`: the entry of `k`, or `d`. -/
def get (d : α) : Sparse α → Nat → α
  | [], _ => d
  | (j, w) :: t, k => if j = k then w else get d t k

/-- Every key lies above `k`. -/
def above (k : Nat) : Sparse α → Bool
  | [] => true
  | (j, _) :: _ => decide (k < j)

/-- The canonical form: keys strictly rising, no entry equal to `d`. -/
def wf [DecidableEq α] (d : α) : Sparse α → Bool
  | [] => true
  | (j, w) :: t => decide (w ≠ d) && above j t && wf d t

/-- Put `v` at `k`; putting `d` removes the entry. -/
def set [DecidableEq α] (d : α) : Sparse α → Nat → α → Sparse α
  | [], k, v => if v = d then [] else [(k, v)]
  | (j, w) :: t, k, v =>
    if k < j then (if v = d then (j, w) :: t else (k, v) :: (j, w) :: t)
    else if j = k then (if v = d then t else (k, v) :: t)
    else (j, w) :: set d t k v

/-- Put the values of `vs` at `k`, `k + 1`, and so on. -/
def setRun [DecidableEq α] (d : α) (m : Sparse α) (k : Nat) : List α → Sparse α
  | [] => m
  | v :: vs => set d (setRun d m (k + 1) vs) k v

/-- Remove every entry from `lo` to `lo + n - 1`. -/
def clear (m : Sparse α) (lo n : Nat) : Sparse α :=
  m.filter fun e => !(decide (lo ≤ e.1) && decide (e.1 < lo + n))

end Sparse

/-- Put `x` before the first element it precedes by `lt`. -/
def insertBy {α : Type} (lt : α → α → Bool) (x : α) : List α → List α
  | [] => [x]
  | y :: t => if lt x y then x :: y :: t else y :: insertBy lt x t

/-- The elements in the order of `lt`, which orders any two of them that differ. -/
def sortBy {α : Type} (lt : α → α → Bool) : List α → List α
  | [] => []
  | x :: t => insertBy lt x (sortBy lt t)

/-- Entry `i` of a table of fixed size, `d` beyond its end. -/
def tget {α : Type} {n : Nat} (d : α) (v : Vector α n) (i : Nat) : α := (v[i]?).getD d

/-- Write entry `i` of a table of fixed size; nothing beyond its end. -/
def tset {α : Type} {n : Nat} (v : Vector α n) (i : Nat) (x : α) : Vector α n := v.setIfInBounds i x

/-- A count that stays at 255 once it reaches it (R101, R124, R173, R175). -/
def satInc (n : Nat) : Nat := min 255 (n + 1)

end Sys2Proof.Machine
end

