-- ==== Sys2Proof/Machine/Records.lean ====
section
/-! DEFINITION. The records of each block (spec/00_scope.md, Functional Blocks): plain data, and the values they take at
power-on. -/

namespace Sys2Proof.Machine

/-! ### Zone table (Chapter 1) -/

/-- Line conditions (1.1). -/
inductive LineCond where
  | unknown
  | normal
  | hot
  | opened
  | short
  | silent
  deriving DecidableEq, Repr

/-- Health of a zone (R1). -/
inductive Health where
  | good
  | derated
  | faulted
  deriving DecidableEq, Repr

/-- State of a zone (R1). -/
inductive ZoneState where
  | off
  | quiet
  | held
  | faulted
  deriving DecidableEq, Repr

/-- The fault kinds seen since power-on (R16). -/
structure FaultHistory where
  hot : Bool
  opened : Bool
  short : Bool
  silent : Bool
  external : Bool
  deriving DecidableEq, Repr

/-- The zone record (1.1). Health and state are derived (R1). -/
structure Zone where
  placement : Option (Nat × Nat)
  enabled : Bool
  bgLane : Option Nat
  bgBase : Nat
  duck : Nat
  fgBase : Nat
  evacBase : Nat
  fallback : Option Nat
  compOn : Bool
  compRef : Nat
  compLimit : Nat
  ambient : Option Nat
  cond : LineCond
  normals : Nat
  silence : Nat
  extFault : Bool
  history : FaultHistory
  holder : Option Nat
  waiters : List Nat
  deriving DecidableEq, Repr

/-- A platform record (1.5). -/
structure Platform where
  group : Option Nat
  warning : Option Nat
  occupant : Option Nat
  trainPresent : Option Bool
  conflict : Bool
  deriving DecidableEq, Repr

/-! ### Claim table and live source table (Chapter 2) -/

/-- Owner of a claim (2.1). -/
inductive Owner where
  | voice (v : Nat)
  | live (l : Nat)
  deriving DecidableEq, Repr

/-- Miss causes (2.2). -/
inductive MissCause where
  | busy
  | preempted
  | fault
  | withdrawn
  deriving DecidableEq, Repr

/-- Status of an element; a miss cause is present only when it is MISSED (2.2). -/
inductive Status where
  | held
  | waiting
  | missed (c : MissCause)
  deriving DecidableEq, Repr

/-- An element of a target list (2.2). -/
structure Elem where
  zone : Nat
  via : Option Nat
  status : Status
  deriving DecidableEq, Repr

/-- State of a claim, derived from its elements (R19). -/
inductive ClaimState where
  | waiting
  | active
  | exhausted
  deriving DecidableEq, Repr

/-- A claim (2.1); its id is its place in the table. -/
structure Claim where
  owner : Owner
  priority : Nat
  mode : ClaimMode
  stamp : Nat
  elems : List Elem
  deriving DecidableEq, Repr

/-- Opener of a live source (2.11); for EVACUATION the EVAC_TALK line that opened it, or none for LIVE START. -/
inductive Opener where
  | request
  | line (n : Nat)
  | evacuation (line : Option Nat)
  deriving DecidableEq, Repr

/-- An OPEN live source record (2.11). -/
structure LiveSource where
  opener : Opener
  group : Nat
  priority : Nat
  limit : Nat
  talkTime : Nat
  absence : Nat
  absenceReported : Bool
  claim : Nat
  deriving DecidableEq, Repr

/-- Causes of a live end (R37, R38). -/
inductive LiveCause where
  | stopped
  | released
  | talkLimit
  | linkLost
  | reset
  deriving DecidableEq, Repr

/-! ### Mixer (Chapter 3) -/

/-- The gain record (3.1). A target or level of 192 is mute (R40). -/
structure Gain where
  stagedFg : Option Nat
  stagedBg : Option Nat
  fgTarget : Nat
  bgTarget : Nat
  fgLevel : Nat
  bgLevel : Nat
  cut : Bool
  deriving DecidableEq, Repr

/-! ### Station clock, call table, timetable (Chapter 4) -/

/-- The station clock (4.1). -/
structure StationClock where
  isSet : Bool
  time : Nat
  dayBase : Nat
  marks : Nat
  deriving DecidableEq, Repr

/-- Trigger kinds (4.6), in the order of the profile's templates. -/
inductive Trigger where
  | approach
  | arrived
  | boarding
  | final
  | delay
  | platformChange
  | cancelled
  deriving DecidableEq, Repr

/-- A profile (4.2). -/
structure Profile where
  approachLead : Nat
  boardingLead : Nat
  finalLead : Nat
  clearDelay : Nat
  delayThreshold : Nat
  concourse : Option Nat
  templates : Vector (Option Nat) 7
  deriving DecidableEq, Repr

/-- States of a call (4.3). -/
inductive CallState where
  | planned
  | approaching
  | atPlatform
  | boarding
  | final
  | gone
  | cancelled
  deriving DecidableEq, Repr

/-- A held transition (4.3). -/
inductive HeldTransition where
  | boarding
  | atPlatform
  deriving DecidableEq, Repr

/-- A call (4.3). `held` is the conflict flag with its held transition and held-since time. -/
structure Call where
  kind : CallKind
  service : Nat
  destination : Nat
  platform : Option Nat
  scheduled : Nat
  expected : Option Nat
  profile : Nat
  state : CallState
  held : Option (HeldTransition × Nat)
  announced : Bool
  delayRef : Nat
  arrival : Option Nat
  gone : Option Nat
  deriving DecidableEq, Repr

/-- An entry of the due list (R79). -/
structure DueEntry where
  time : Nat
  slot : Nat
  deriving DecidableEq, Repr

/-! ### Templates and the request queue (Chapter 5) -/

/-- A template that is not empty (5.1). -/
structure Template where
  items : List Item
  target : Target
  priority : Nat
  mode : ClaimMode
  resume : ResumePolicy
  repeats : Nat
  gap : Nat
  window : Nat
  deriving DecidableEq, Repr

/-- Origins of a request (5.3). -/
inductive Origin where
  | timetable
  | direct
  | contact
  | evac
  deriving DecidableEq, Repr

/-- Outcomes (R99), in the table's order. -/
inductive ReqOutcome where
  | done
  | incomplete
  | cancelled
  | expired
  | evicted
  | dropped
  | superseded
  | withdrawn
  | suppressed
  | preempted
  | noTarget
  | noZones
  | failed
  | reset
  deriving DecidableEq, Repr

/-- Finish marks (5.3). -/
inductive FinishMark where
  | superseded
  | withdrawn
  deriving DecidableEq, Repr

/-- Request states, with the voice in VOICED and PLAYING (5.3). -/
inductive ReqState where
  | pending
  | ready
  | voiced (v : Nat)
  | playing (v : Nat)
  deriving DecidableEq, Repr

/-- An announcement request (5.3). `repeatsLeft` none is unlimited; `gap` and `window` none stand for EVAC. -/
structure Request where
  number : Nat
  origin : Origin
  call : Option (Nat × Trigger)
  platform : Option Nat
  template : Option Nat
  override : Option Nat
  values : Option FieldValues
  priority : Nat
  mode : ClaimMode
  resume : ResumePolicy
  gap : Option Nat
  window : Option Nat
  repeatsLeft : Option Nat
  notBefore : Nat
  expiry : Option Nat
  state : ReqState
  stamp : Nat
  incomplete : Bool
  finish : Option FinishMark
  cancelPending : Bool
  deriving DecidableEq, Repr

/-- The request queue (5.4), in queue order. -/
structure RequestQueue where
  requests : List Request
  nextNumber : Nat
  nextStamp : Nat
  deriving DecidableEq, Repr

/-! ### Playout voices (Chapter 6) -/

/-- Voice states (R101). -/
inductive VoiceState where
  | idle
  | cueing
  | playing
  | stalled
  deriving DecidableEq, Repr

/-- List sources (6.1). -/
inductive ListSource where
  | template
  | evacuation
  deriving DecidableEq, Repr

/-- Fragments (6.1). -/
inductive Fragment where
  | clip (c length : Nat)
  | pause (n : Nat)
  | tone (t n : Nat)
  deriving DecidableEq, Repr

/-- A page of a voice's read order (R106): the fragment's place in the list, its clip, the page counted from the clip's
first page. -/
structure PageRef where
  frag : Nat
  clip : Nat
  page : Nat
  deriving DecidableEq, Repr

/-- A buffered page; an unreadable one plays as silence (R107). -/
structure BufferedPage where
  ref : PageRef
  readable : Bool
  deriving DecidableEq, Repr

/-- The voice record (6.1). `nextRead` counts the pages of the read order already demanded, `finished` says that the last
frame of the list has been produced, `newList` is a list given as a change (R116), and `newListWaits` says that it was
given at the coming block mark and is taken at the one after. -/
structure Voice where
  state : VoiceState
  request : Option Nat
  claim : Option Nat
  source : Option ListSource
  frags : List Fragment
  cur : Nat
  pos : Nat
  buffer : List BufferedPage
  demand : Option PageRef
  nextRead : Nat
  finished : Bool
  newList : Option (List ListItem)
  newListWaits : Bool
  stalls : Nat
  damaged : Nat
  deriving DecidableEq, Repr

/-! ### Clip store (Chapter 7) -/

/-- Page states (R118). -/
inductive PageState where
  | erased
  | written
  | dirty
  deriving DecidableEq, Repr

/-- Directory states (R119). -/
inductive ClipState where
  | absent
  | writing
  | valid
  | retired
  deriving DecidableEq, Repr

/-- The nonvolatile fields of a directory entry (7.2); an ABSENT entry has run none and pages written 0. -/
structure ClipEntry where
  state : ClipState
  run : Option (ClipBank × Nat × Nat)
  written : Nat
  length : Option Nat
  deriving DecidableEq, Repr

/-- The resident programme, less its check (7.9). -/
structure Programme where
  placements : Vector (Option (Nat × Nat)) 64
  enabled : Vector Bool 64
  evacBases : Vector Nat 64
  group : List Nat
  lane : Option Nat
  alertList : List ListItem
  evacList : List ListItem
  duration : Nat
  lines : Vector (Option EvacLine) 16
  deriving DecidableEq, Repr

/-- The operation mark (R120). -/
inductive OpMark where
  | none
  | page (bank : ClipBank) (p : Nat)
  | sector (bank : ClipBank) (s : Nat)
  | programme
  deriving DecidableEq, Repr

/-- Nonvolatile state (R118, R119, R133, R135): it survives loss of power. `programmeCheck` is the programme check of 7.9,
which the release of reset compares with the computed one (R135). -/
structure Nonvolatile where
  mem : List Host.Cell
  pages : Sparse PageState
  dir : Sparse ClipEntry
  g1 : Bool
  g2 : Bool
  programme : Programme
  programmeCheck : BitVec 32
  opMark : OpMark
  deriving DecidableEq, Repr

/-- Controller states with the operation in flight (7.3). Elapsed work is counted in frames, 48 to the millisecond. -/
inductive StoreOp where
  | starting (elapsed : Nat)
  | ready
  | programming (clip : Nat) (bank : ClipBank) (page : Nat) (data : List Byte) (elapsed : Nat)
  | erasing (bank : ClipBank) (sector : Nat) (work : Nat)
  | verifying (clip length : Nat) (check : BitVec 32) (next : Nat) (spoiled : Bool)
  | programWrite (programme : Programme) (elapsed : Nat)
  deriving DecidableEq, Repr

/-- For whom a page is being read (R122); a demand withdrawn during its read is completed and discarded. -/
inductive ReadFor where
  | voice (v : Nat)
  | verify
  | discarded
  deriving DecidableEq, Repr

/-- The read in progress (R122). -/
structure ReadOp where
  user : ReadFor
  clip : Nat
  bank : ClipBank
  page : Nat
  elapsed : Nat
  deriving DecidableEq, Repr

/-- The volatile state of the store controller (7.3, R138). `programmeValid` is the programme state, VALID or INVALID
(R135). -/
structure StoreCtl where
  op : StoreOp
  read : Option ReadOp
  eraseArm : Option (ClipBank × Nat)
  abortArm : Bool
  programmeValid : Bool
  checkFail : Bool
  corrected : Nat
  uncorrectable : Nat
  uses : Sparse Nat
  damagedMarks : List Nat
  fillR : Nat
  fillA : Nat
  fillB : Nat
  deriving DecidableEq, Repr

/-! ### Contact lines (Chapter 8) -/

/-- The line record (8.1). Levels: true is HIGH (raw) or ACTIVE (debounced, shown). -/
structure Line where
  fn : LineFn
  polarity : Polarity
  debounce : Nat
  report : EdgeReport
  raw : Bool
  debounced : Option Bool
  stand : Nat
  latch : Bool
  shown : Bool
  deriving DecidableEq, Repr

/-- A pattern generator (8.6). `started`: it has taken a block mark since the reset that reset it; the first one finds
it at phase 0 (R147). -/
structure Generator where
  started : Bool
  p : Nat
  r : Nat
  f : Nat
  phase : Nat
  staged : Option (Nat × Nat × Nat)
  deriving DecidableEq, Repr

/-! ### Evacuation controller (Chapter 9) -/

/-- Evacuation states (9.1). -/
inductive EvacState where
  | normal
  | alert
  | evacuate
  deriving DecidableEq, Repr

/-- Lists in force (9.1). -/
inductive EvacList where
  | standIn
  | alert
  | evacuate
  deriving DecidableEq, Repr

/-- Causes of an EVAC STATE notice (R150). -/
inductive EvacCause where
  | start
  | escalate
  | stop
  | timer
  | alertLine (n : Nat)
  | fullLine (n : Nat)
  | resetLine (n : Nat)
  deriving DecidableEq, Repr

/-- The evacuation controller (9.1). -/
structure Evac where
  state : EvacState
  timer : Nat
  request : Option Nat
  list : Option EvacList
  lane : Option Nat
  alertList : List ListItem
  evacList : List ListItem
  duration : Nat
  deriving DecidableEq, Repr

/-! ### Span ports, alignment buffer, frame clock (Chapter 10) -/

/-- Receive states (R164). -/
inductive RxState where
  | down
  | hunt
  | verify
  | locked
  deriving DecidableEq, Repr

/-- The audio of an upstream frame: presence flags and slots. -/
structure LaneFrame where
  presence : BitVec 32
  slots : Vector Audio 32
  deriving DecidableEq, Repr

/-- Message reassembly (R171): ignoring bytes up to a frame with flag clear, ready for a run, or in a run. -/
inductive Reassembly where
  | ignoring
  | ready
  | run (bytes : List Byte)
  deriving DecidableEq, Repr

/-- The counts of a port (R173); the slip counts are UP's. -/
structure PortCounts where
  correctedHeader : Nat
  missing : Nat
  slotCheck : Nat
  indexJump : Nat
  discard : Nat
  abandon : Nat
  lockLoss : Nat
  overflowSlip : Nat
  underflowSlip : Nat
  deriving DecidableEq, Repr

/-- A Span port's receiver (R164, R165, R171). -/
structure Port where
  state : RxState
  agreed : Nat
  index : Nat
  badSyncs : Nat
  last : Option LaneFrame
  rx : Reassembly
  counts : PortCounts
  deriving DecidableEq, Repr

/-- States of the alignment buffer (R167). -/
inductive AlignState where
  | silent
  | filling
  | passing
  deriving DecidableEq, Repr

/-- The alignment buffer (R167), oldest frame first, with the frame last given out and the alignment delay D. -/
structure AlignBuffer where
  state : AlignState
  frames : List LaneFrame
  out : LaneFrame
  delay : Nat
  deriving DecidableEq, Repr

/-- A part of a block mark that a command can take ahead of the rest (log entry 6). -/
inductive MarkPart where
  | second
  | silence (z : Nat)
  | alert
  | talk (l : Nat)
  | absence (l : Nat)
  | line (l : Nat)
  | list
  | voice (v : Nat)
  | gen (g : Nat)
  deriving DecidableEq, Repr

/-- The frame clock (R169). `fresh`: no frame since the release of reset; `done`: parts of the coming block mark already
taken. -/
structure FrameClock where
  count : Nat
  fresh : Bool
  done : List MarkPart
  deriving DecidableEq, Repr

/-- An upstream return frame as sent (R162, R163). -/
structure ReturnFrame where
  sync : BitVec 16
  index : Nat
  valid : Bool
  spare : Bool
  monitor : Audio
  byte : Byte
  headerCheck : BitVec 8
  slotCheck : BitVec 16
  deriving DecidableEq, Repr

/-- A downstream frame as sent (R162, R163). -/
structure DownFrame where
  sync : BitVec 16
  index : Nat
  valid : Bool
  spare : Bool
  slots : List Audio
  byte : Byte
  headerCheck : BitVec 8
  slotCheck : BitVec 16
  deriving DecidableEq, Repr

/-- The frames last sent, and the mixed output of every zone in them (R50, R163). -/
structure Sent where
  up : ReturnFrame
  down : Vector DownFrame 4
  mixed : List Int
  deriving DecidableEq, Repr

/-! ### Message engine (Chapter 11) -/

/-- Modes (spec/00_scope.md, Operating Modes; R134). -/
inductive Mode where
  | normal
  | maintenance
  deriving DecidableEq, Repr

/-- Reset causes (R180). -/
inductive ResetCause where
  | power
  | line
  | soft
  deriving DecidableEq, Repr

/-- Alert conditions (R182), in the table's order. -/
inductive AlertCond where
  | zoneFault
  | link
  | store
  | queue
  | evac
  | conflict
  deriving DecidableEq, Repr

/-- Result codes (11.4), in the table's order. -/
inductive ResultCode where
  | ok
  | accepted
  | busy
  | noRoom
  | badArg
  | notFound
  | wrongState
  | conflict
  | inUse
  | guarded
  | resident
  | evacActive
  | notReady
  | alreadySet
  deriving DecidableEq, Repr

/-- What a reply carries after its result code. -/
inductive ReplyBody where
  | none
  | hello (address : Nat) (mode : Mode) (programmeValid : Bool) (cause : ResetCause)
  | firstPage (p : Nat)
  | number (n : Nat)
  | announced (a : Bool)
  | record (bytes : List Byte)
  | status (bytes : List Byte)
  deriving DecidableEq, Repr

/-- A reply in its place (R175, R177). -/
structure Reply where
  destination : Nat
  source : Nat
  kind : Nat
  tag : Nat
  code : ResultCode
  body : ReplyBody
  deriving DecidableEq, Repr

/-- Causes of a PORT STATE notice (R164). -/
inductive PortCause where
  | activityLost
  | badSync
  | verified
  deriving DecidableEq, Repr

/-- Results of a CONTACT EDGE notice (R142), in the table's order. -/
inductive EdgeResult where
  | none
  | laneBusy
  | noCall
  | noTemplate
  | notTaken
  deriving DecidableEq, Repr

/-- What a STORE DONE notice carries (R120, R137). -/
inductive StoreDone where
  | page (clip : Nat) (aborted : Bool) (written : Nat)
  | seal (clip : Nat) (aborted checkFail : Bool) (written : Nat)
  | erase (bank : ClipBank) (sector : Nat) (aborted : Bool)
  | programme
  | scan (programmeValid : Bool) (retired dirtied : Nat)
  deriving DecidableEq, Repr

/-- The notices (11.4). -/
inductive Notice where
  | requestEnd (number : Option Nat) (origin : Origin) (call : Option (Nat × Trigger)) (platform template : Option Nat)
      (priority : Nat) (outcome : ReqOutcome)
  | callState (slot : Nat) (kind : CallKind) (service : Nat) (state : CallState) (platform : Option Nat)
      (trigger : Option Trigger) (announced stale suppressed made : Bool)
  | callRemoved (slot service : Nat)
  | zoneState (zone : Nat) (state : ZoneState) (health : Health) (cond : LineCond) (extFault : Bool)
  | portState (port : Nat) (state : RxState) (cause : PortCause)
  | liveEnd (lane : Nat) (opener : Opener) (cause : LiveCause)
  | storeDone (d : StoreDone)
  | clipDamaged (clip page : Nat)
  | evacState (before after : EvacState) (cause : EvacCause)
  | alertRaised (conds : List AlertCond)
  | alertCleared
  | contactEdge (line : Nat) (rising : Bool) (fn : LineFn) (result : EdgeResult)
  | timeJump (held new : Nat)
  | platformConflict (platform slot service occupant occupantService : Nat)
  | laneAbsent (lane : Nat)
  deriving DecidableEq, Repr

/-- A message being sent on UP (R172): the bytes still to be sent, and the reply place it frees at its end. -/
structure Sending where
  rest : List Byte
  place : Option Nat
  deriving DecidableEq, Repr

/-- The message engine (Chapter 11). Each notice stands with its source, the node address when it entered (R178). -/
structure Engine where
  address : Nat
  places : Vector (Option Reply) 8
  waiting : List Nat
  notices : List (Nat × Notice)
  overflow : Bool
  classDiscards : Nat
  addressDiscards : Nat
  placeDiscards : Nat
  mask : List AlertCond
  raised : Bool
  queueLatch : Bool
  cause : ResetCause
  sending : Option Sending
  deriving DecidableEq, Repr

/-! ### The part -/

/-- Power and reset: no power, held in reset, the reset line released while a resident programme write still runs
(R136), and running. -/
inductive Power where
  | off
  | held
  | releasing
  | running
  deriving DecidableEq, Repr

/-- All state that a power-on sets: the blocks of spec/00_scope.md, less the nonvolatile store. Platform `p` is entry
`p - 1` of `platforms`; phrase tables NUMBERS and PLATFORMS likewise start at index 1. -/
structure Vol where
  mode : Mode
  ports : Vector Port 5
  align : AlignBuffer
  fclk : FrameClock
  sent : Sent
  engine : Engine
  zones : Vector Zone 64
  groups : Vector (List Nat) 32
  platforms : Vector Platform 32
  reportDiscards : Nat
  claims : Vector (Option Claim) 40
  stampCounter : Nat
  live : Vector (Option LiveSource) 32
  gains : Vector Gain 64
  rampRate : Nat
  monitor : Option Nat
  clock : StationClock
  calls : Vector (Option Call) 256
  profiles : Vector Profile 16
  due : List DueEntry
  queue : RequestQueue
  templates : Vector (Option Template) 128
  hours : Vector (Option Nat) 24
  minutes : Vector (Option Nat) 60
  numbers : Vector (Option Nat) 100
  platPhrases : Vector (Option Nat) 32
  dests : Vector (Option Nat) 256
  voices : Vector Voice 8
  store : StoreCtl
  lines : Vector Line 16
  gens : Vector Generator 4
  evac : Evac
  deriving DecidableEq, Repr

/-! ### Values at power-on -/

def FaultHistory.empty : FaultHistory := ⟨false, false, false, false, false⟩

/-- A zone without placement or configuration (R6; R135 for an INVALID programme). -/
def Zone.initial : Zone :=
  { placement := none, enabled := false, bgLane := none, bgBase := 0, duck := 0, fgBase := 0, evacBase := 0,
    fallback := none, compOn := false, compRef := 60, compLimit := 0, ambient := none, cond := .unknown, normals := 0,
    silence := 0, extFault := false, history := .empty, holder := none, waiters := [] }

/-- R10, R11. -/
def Platform.initial : Platform :=
  { group := none, warning := none, occupant := none, trainPresent := none, conflict := false }

/-- R53; the targets are log entry 3. -/
def Gain.initial : Gain :=
  { stagedFg := none, stagedBg := none, fgTarget := Config.mute, bgTarget := Config.mute, fgLevel := Config.mute,
    bgLevel := Config.mute, cut := false }

/-- R54. -/
def StationClock.initial : StationClock := { isSet := false, time := 0, dayBase := 0, marks := 0 }

/-- R57. -/
def Profile.initial : Profile :=
  { approachLead := 0, boardingLead := 0, finalLead := 0, clearDelay := 0, delayThreshold := 5, concourse := none,
    templates := Vector.replicate 7 none }

/-- R100. -/
def RequestQueue.initial : RequestQueue := { requests := [], nextNumber := 0, nextStamp := 0 }

/-- R117. -/
def Voice.initial : Voice :=
  { state := .idle, request := none, claim := none, source := none, frags := [], cur := 0, pos := 0, buffer := [],
    demand := none, nextRead := 0, finished := false, newList := none, newListWaits := false, stalls := 0,
    damaged := 0 }

/-- An ABSENT entry (7.2). -/
def ClipEntry.absent : ClipEntry := { state := .absent, run := none, written := 0, length := none }

/-- The programme values loaded when its check fails (R135). -/
def Programme.empty : Programme :=
  { placements := Vector.replicate 64 none, enabled := Vector.replicate 64 false, evacBases := Vector.replicate 64 0,
    group := [], lane := none, alertList := [], evacList := [], duration := 0, lines := Vector.replicate 16 none }

/-- A store that was never written; its programme check reads as all ones, which no check of the empty fields is (log
entry 1). -/
def Nonvolatile.blank : Nonvolatile :=
  { mem := [], pages := [], dir := [], g1 := false, g2 := false, programme := .empty, programmeCheck := 0xFFFFFFFF#32,
    opMark := .none }

/-- R138. -/
def StoreCtl.initial : StoreCtl :=
  { op := .starting 0, read := none, eraseArm := none, abortArm := false, programmeValid := false, checkFail := false,
    corrected := 0, uncorrectable := 0, uses := [], damagedMarks := [], fillR := 0, fillA := 0, fillB := 0 }

/-- R140, R149; raw and shown levels are log entry 3. -/
def Line.initial : Line :=
  { fn := .plain, polarity := .activeHigh, debounce := 10, report := .none, raw := false, debounced := none, stand := 0,
    latch := false, shown := false }

/-- R149. -/
def Generator.initial : Generator := { started := false, p := 100, r := 0, f := 50, phase := 0, staged := none }

/-- R161, with the values of an INVALID programme (R150). -/
def Evac.initial : Evac :=
  { state := .normal, timer := 0, request := none, list := none, lane := none, alertList := [], evacList := [],
    duration := 0 }

/-- Silence with every presence flag clear (R167). -/
def LaneFrame.silence : LaneFrame := { presence := 0, slots := Vector.replicate 32 0 }

def PortCounts.zero : PortCounts :=
  { correctedHeader := 0, missing := 0, slotCheck := 0, indexJump := 0, discard := 0, abandon := 0, lockLoss := 0,
    overflowSlip := 0, underflowSlip := 0 }

/-- R173; the index is log entry 3. -/
def Port.initial : Port :=
  { state := .down, agreed := 0, index := 0, badSyncs := 0, last := none, rx := .ignoring, counts := .zero }

/-- R173. -/
def AlignBuffer.initial : AlignBuffer := { state := .silent, frames := [], out := .silence, delay := 96 }

/-- R169, R173. -/
def FrameClock.initial : FrameClock := { count := 0, fresh := true, done := [] }

def ReturnFrame.zero : ReturnFrame :=
  { sync := 0, index := 0, valid := false, spare := false, monitor := 0, byte := 0, headerCheck := 0, slotCheck := 0 }

def DownFrame.zero : DownFrame :=
  { sync := 0, index := 0, valid := false, spare := false, slots := List.replicate 16 0, byte := 0, headerCheck := 0,
    slotCheck := 0 }

/-- Log entry 3. -/
def Sent.zero : Sent :=
  { up := .zero, down := Vector.replicate 4 .zero, mixed := List.replicate 64 0 }

/-- R184, for power-on. -/
def Engine.initial : Engine :=
  { address := 0, places := Vector.replicate 8 none, waiting := [], notices := [], overflow := false, classDiscards := 0,
    addressDiscards := 0, placeDiscards := 0, mask := [], raised := false, queueLatch := false, cause := .power,
    sending := none }

/-- Every block at its power-on values, with the values of an INVALID resident programme. -/
def Vol.powerOn : Vol :=
  { mode := .normal
    ports := Vector.replicate 5 .initial
    align := .initial
    fclk := .initial
    sent := .zero
    engine := .initial
    zones := Vector.replicate 64 .initial
    groups := Vector.replicate 32 []
    platforms := Vector.replicate 32 .initial
    reportDiscards := 0
    claims := Vector.replicate 40 none
    stampCounter := 0
    live := Vector.replicate 32 none
    gains := Vector.replicate 64 .initial
    rampRate := 2
    monitor := none
    clock := .initial
    calls := Vector.replicate 256 none
    profiles := Vector.replicate 16 .initial
    due := []
    queue := .initial
    templates := Vector.replicate 128 none
    hours := Vector.replicate 24 none
    minutes := Vector.replicate 60 none
    numbers := Vector.replicate 100 none
    platPhrases := Vector.replicate 32 none
    dests := Vector.replicate 256 none
    voices := Vector.replicate 8 .initial
    store := .initial
    lines := Vector.replicate 16 .initial
    gens := Vector.replicate 4 .initial
    evac := .initial }

end Sys2Proof.Machine
end

