-- ==== Sys2Proof/Machine/State.lean ====
section
/-! DEFINITION. The state of the 740, its value after reset, and the reasons a step can stop. -/

namespace Sys2Proof.Machine

/-- The state of the part, and the commands that wait, first in first out. -/
structure State where
  power : Power
  nv : Nonvolatile
  vol : Vol
  pending : List Instr
  deriving DecidableEq, Repr

/-- Reasons to stop with a fault. No command of the 740 stops the part, so no meaning raises one: the manual reports
every failure as a result code, a notice, a count or a state. -/
inductive Fault where
  deriving DecidableEq, Repr

/-- Reasons to refuse a command. -/
inductive Refusal where
  /-- Raised by an arm of `exec` whose command has no meaning yet; safe. No arm raises it. -/
  | notModelled (mnemonic : String)
  deriving DecidableEq, Repr

/-- The part right after the release of a power-on reset, its clip store never written (log entry 1). The blank
programme fails its check, so the mode is MAINTENANCE (R134) whatever the strap. -/
def State.reset : State :=
  { power := .running, nv := .blank, vol := { Vol.powerOn with mode := .maintenance }, pending := [] }

end Sys2Proof.Machine
end

