-- ==== Sys2Proof/Machine/Ops.lean ====
section
/-! DEFINITION. Named operations over the state: reading and changing one record of a table, the byte memory of the clip
store, station times, and the notice queue. Every meaning goes through these. -/

namespace Sys2Proof.Machine

/-! ### Tables -/

namespace Vol

def zone (w : Vol) (z : Nat) : Zone := tget .initial w.zones z
def setZone (w : Vol) (z : Nat) (x : Zone) : Vol := { w with zones := tset w.zones z x }
def modZone (w : Vol) (z : Nat) (f : Zone → Zone) : Vol := w.setZone z (f (w.zone z))

def group (w : Vol) (g : Nat) : List Nat := tget [] w.groups g
def setGroup (w : Vol) (g : Nat) (m : List Nat) : Vol := { w with groups := tset w.groups g m }

/-- Platform `p`, 1 to 32. -/
def platform (w : Vol) (p : Nat) : Platform := tget .initial w.platforms (p - 1)
def setPlatform (w : Vol) (p : Nat) (x : Platform) : Vol := { w with platforms := tset w.platforms (p - 1) x }
def modPlatform (w : Vol) (p : Nat) (f : Platform → Platform) : Vol := w.setPlatform p (f (w.platform p))

def claim (w : Vol) (c : Nat) : Option Claim := tget none w.claims c
def setClaim (w : Vol) (c : Nat) (x : Option Claim) : Vol := { w with claims := tset w.claims c x }
def modClaim (w : Vol) (c : Nat) (f : Claim → Claim) : Vol := w.setClaim c ((w.claim c).map f)

def source (w : Vol) (l : Nat) : Option LiveSource := tget none w.live l
def setSource (w : Vol) (l : Nat) (x : Option LiveSource) : Vol := { w with live := tset w.live l x }

def gain (w : Vol) (z : Nat) : Gain := tget .initial w.gains z
def setGain (w : Vol) (z : Nat) (x : Gain) : Vol := { w with gains := tset w.gains z x }
def modGain (w : Vol) (z : Nat) (f : Gain → Gain) : Vol := w.setGain z (f (w.gain z))

def call (w : Vol) (c : Nat) : Option Call := tget none w.calls c
def setCall (w : Vol) (c : Nat) (x : Option Call) : Vol := { w with calls := tset w.calls c x }
def modCall (w : Vol) (c : Nat) (f : Call → Call) : Vol := w.setCall c ((w.call c).map f)

def profile (w : Vol) (p : Nat) : Profile := tget .initial w.profiles p
def template (w : Vol) (t : Nat) : Option Template := tget none w.templates t

def voice (w : Vol) (v : Nat) : Voice := tget .initial w.voices v
def setVoice (w : Vol) (v : Nat) (x : Voice) : Vol := { w with voices := tset w.voices v x }
def modVoice (w : Vol) (v : Nat) (f : Voice → Voice) : Vol := w.setVoice v (f (w.voice v))

def line (w : Vol) (l : Nat) : Line := tget .initial w.lines l
def setLine (w : Vol) (l : Nat) (x : Line) : Vol := { w with lines := tset w.lines l x }
def modLine (w : Vol) (l : Nat) (f : Line → Line) : Vol := w.setLine l (f (w.line l))

def gen (w : Vol) (g : Nat) : Generator := tget .initial w.gens g
def setGen (w : Vol) (g : Nat) (x : Generator) : Vol := { w with gens := tset w.gens g x }

def port (w : Vol) (p : Nat) : Port := tget .initial w.ports p
def setPort (w : Vol) (p : Nat) (x : Port) : Vol := { w with ports := tset w.ports p x }
def modPort (w : Vol) (p : Nat) (f : Port → Port) : Vol := w.setPort p (f (w.port p))
def modCounts (w : Vol) (p : Nat) (f : PortCounts → PortCounts) : Vol :=
  w.modPort p fun x => { x with counts := f x.counts }

/-- UP's receive machine is LOCKED (R164). -/
def upLocked (w : Vol) : Bool := decide ((w.port 0).state = .locked)

/-- The frame clock is disciplined while UP is LOCKED and in holdover otherwise (R170). -/
def disciplined (w : Vol) : Bool := w.upLocked

def modEngine (w : Vol) (f : Engine → Engine) : Vol := { w with engine := f w.engine }
def modStore (w : Vol) (f : StoreCtl → StoreCtl) : Vol := { w with store := f w.store }
def modEvac (w : Vol) (f : Evac → Evac) : Vol := { w with evac := f w.evac }
def modQueue (w : Vol) (f : RequestQueue → RequestQueue) : Vol := { w with queue := f w.queue }

/-- The next frame of the frame clock carries a block mark (R169). -/
def atMark (w : Vol) : Bool := w.fclk.fresh || decide (w.fclk.count = 47)

/-- A part of the coming block mark has been taken ahead (log entry 6). -/
def taken (w : Vol) (m : MarkPart) : Bool := w.fclk.done.contains m

def markTaken (w : Vol) (m : MarkPart) : Vol := { w with fclk := { w.fclk with done := m :: w.fclk.done } }

/-- A notice enters the notice queue at its tail, or is lost with the notice-overflow flag set (R178). -/
def notify (w : Vol) (n : Notice) : Vol :=
  if w.engine.notices.length < Config.noticeCapacity then
    { w with engine := { w.engine with notices := w.engine.notices ++ [(w.engine.address, n)] } }
  else { w with engine := { w.engine with overflow := true } }

end Vol

/-! ### The byte memory of the clip store -/

/-- Page `p` of a bank among all pages: R 0-511, A 512-2559, B 2560-4607 (7.1). -/
def pageIndex : ClipBank → Nat → Nat
  | .r, p => p
  | .a, p => 512 + p
  | .b, p => 2560 + p

/-- Pages of a bank (7.1). -/
def bankPages : ClipBank → Nat
  | .r => 512
  | .a => 2048
  | .b => 2048

/-- Sectors of a bank (7.1). -/
def bankSectors : ClipBank → Nat
  | .r => 8
  | .a => 32
  | .b => 32

namespace Memory

/-- What a byte that is not listed reads as (log entry 2). -/
def unlisted : Byte := 0xFF#8

/-- The canonical form. -/
def wf (m : List Host.Cell) : Bool := Sparse.wf unlisted m

def read (m : List Host.Cell) (a : Nat) : Byte := Sparse.get unlisted m a

/-- The bytes of a page programming (R127). -/
def writePage (m : List Host.Cell) (bank : ClipBank) (page : Nat) (data : List Byte) : List Host.Cell :=
  Sparse.setRun unlisted m (pageIndex bank page * Config.pageBytes) data

/-- Erasure of a whole sector (R131). -/
def eraseSector (m : List Host.Cell) (bank : ClipBank) (sector : Nat) : List Host.Cell :=
  Sparse.clear m (pageIndex bank (64 * sector) * Config.pageBytes) (64 * Config.pageBytes)

end Memory

namespace Nonvolatile

/-- The state of a page (R118). -/
def page (nv : Nonvolatile) (bank : ClipBank) (p : Nat) : PageState := Sparse.get .erased nv.pages (pageIndex bank p)

def setPage (nv : Nonvolatile) (bank : ClipBank) (p : Nat) (x : PageState) : Nonvolatile :=
  { nv with pages := Sparse.set .erased nv.pages (pageIndex bank p) x }

/-- The pages of sector `s`: 64 s to 64 s + 63 (7.1). -/
def setSector (nv : Nonvolatile) (bank : ClipBank) (s : Nat) (x : PageState) : Nonvolatile :=
  (List.range 64).foldl (fun nv i => nv.setPage bank (64 * s + i) x) nv

/-- The directory entry of a clip (7.2). -/
def clip (nv : Nonvolatile) (c : Nat) : ClipEntry := Sparse.get .absent nv.dir c

def setClip (nv : Nonvolatile) (c : Nat) (x : ClipEntry) : Nonvolatile :=
  { nv with dir := Sparse.set .absent nv.dir c x }

/-- Sample `k` of a clip, its two bytes read more significant first (7.1, R109). -/
def sample (nv : Nonvolatile) (bank : ClipBank) (first k : Nat) : BitVec 16 :=
  let a := pageIndex bank first * Config.pageBytes + 2 * k
  Memory.read nv.mem a ++ Memory.read nv.mem (a + 1)

end Nonvolatile

/-- A sum of station times stored in a request: itself up to the largest station time; above it the spec states no
value (log entry 22). -/
def timeSum (a b : Nat) : Nat :=
  if a + b ≤ Config.maxTime then a + b else (Config.timeOverflow (a + b)).toNat

/-! ### The state -/

namespace State

/-- An operation on the volatile part that may read the nonvolatile one. -/
def onVol (s : State) (f : Nonvolatile → Vol → Vol) : State := { s with vol := f s.nv s.vol }

/-- The part runs: reset is released (R163, R169; log entry 4). -/
def running (s : State) : Bool := decide (s.power = .running)

end State

/-- Commands other than those of power and reset act only while the part runs (log entry 4). -/
def whenRunning (s : State) (f : State → State) : State := if s.running then f s else s

end Sys2Proof.Machine
end

