-- ==== Sys2Proof/Machine/Operands.lean ====
section
/-! DEFINITION. The range checks of the operands of requests: each says that a field lies in the range its rule gives. A
field outside its range is answered BAD_ARG by the rule that owns it. -/

namespace Sys2Proof

/-- None, or below `n`. -/
def optBelow (n : Nat) : Option Nat → Bool
  | none => true
  | some x => decide (x < n)

/-- From `lo` to `hi`. -/
def within (lo hi x : Nat) : Bool := decide (lo ≤ x) && decide (x ≤ hi)

/-- None, or from `lo` to `hi`. -/
def optWithin (lo hi : Nat) : Option Nat → Bool
  | none => true
  | some x => within lo hi x

/-- No element occurs twice. -/
def distinct : List Nat → Bool
  | [] => true
  | x :: t => !t.contains x && distinct t

/-- Check 1 of R3: port and slot in range, or both none; lane, bases, duck depth, fallback, reference and limit. -/
def ZoneRecord.inRange (r : ZoneRecord) : Bool :=
  decide (r.zone < 64)
    && (match r.port, r.slot with
      | none, none => true
      | some p, some q => decide (p < 4) && decide (q < 16)
      | _, _ => false)
    && optBelow 32 r.bgLane && decide (r.bgBase ≤ 191) && decide (r.duck ≤ 80) && decide (r.fgBase ≤ 191)
    && decide (r.evacBase ≤ 191) && optBelow 64 r.fallback && within 40 90 r.compRef && decide (r.compLimit ≤ 24)

/-- The placement of a zone record (R3). -/
def ZoneRecord.placement (r : ZoneRecord) : Option (Nat × Nat) :=
  match r.port, r.slot with
  | some p, some q => some (p, q)
  | _, _ => none

/-- R7: the checks of a group record. -/
def groupInRange (g : Nat) (ms : List Nat) : Bool :=
  decide (g < 32) && ms.all (fun z => decide (z < 64)) && distinct ms

/-- R57: the checks of a profile record. -/
def ProfileRecord.inRange (r : ProfileRecord) : Bool :=
  decide (r.profile < 16) && decide (r.approachLead ≤ 3600) && decide (r.boardingLead ≤ 3600)
    && decide (r.finalLead ≤ 3600) && decide (r.clearDelay ≤ 1800) && within 1 60 r.delayThreshold
    && optBelow 32 r.concourse && r.templates.toList.all (optBelow 128)

/-- The range of a template item (5.1). -/
def Item.inRange : Item → Bool
  | .clip c => decide (c < 1024)
  | .field _ => true
  | .pause n => within 1 50 n
  | .tone t n => decide (t < 4) && within 1 100 n

/-- The range of a fragment of the alert or the evacuation list (7.9). -/
def ListItem.inRange : ListItem → Bool
  | .clip c => decide (c < 1024)
  | .tone t n => decide (t < 4) && within 1 100 n

def Target.inRange : Target → Bool
  | .group g => decide (g < 32)
  | .callPlatform => true
  | .profile => true

/-- R82: the checks of a template record with items. -/
def TemplateRecord.inRange (r : TemplateRecord) : Bool :=
  decide (r.template < 128) && decide (r.items.length ≤ 16) && r.items.all Item.inRange && r.target.inRange
    && decide (r.priority ≤ 13) && within 1 8 r.repeats && within 10 600 r.gap && decide (r.window ≤ 3600)

/-- R83: the checks of a phrase record, for a table whose indices run from `lo` to `lo + n - 1`. -/
def phraseInRange (lo n first : Nat) (entries : List (Option Nat)) : Bool :=
  within 1 64 entries.length && entries.all (optBelow 1024) && decide (lo ≤ first)
    && decide (first + entries.length ≤ lo + n)

/-- The parameter of an OUTPUT line's source (R139). -/
def OutSource.inRange : OutSource → Bool
  | .zoneHeld z => decide (z < 64)
  | .zoneFaulted z => decide (z < 64)
  | .platformOccupied p => within 1 32 p
  | .platformFinal p => within 1 32 p
  | .evacNotNormal => true
  | .alertRaised => true

/-- The parameter in range for the function (R139). -/
def LineFn.inRange : LineFn → Bool
  | .plain => true
  | .talk l g p => decide (l < 32) && decide (g < 32) && decide (p ≤ 13)
  | .trainPresent p => within 1 32 p
  | .doorsClosed p => within 1 32 p
  | .platformWarn p => within 1 32 p
  | .zoneFault z => decide (z < 64)
  | .output src gen _ _ => src.inRange && decide (gen < 4)
  | .evac _ => true

def LineFn.isOutput : LineFn → Bool
  | .output _ _ _ _ => true
  | _ => false

def LineFn.isEvac : LineFn → Bool
  | .evac _ => true
  | _ => false

/-- Check 1 of R139. -/
def LineRecord.inRange (r : LineRecord) : Bool :=
  decide (r.line < 16) && decide (r.debounce ≤ 255) && r.fn.inRange
    && (!r.fn.isOutput || decide (r.report = .none))

/-- R148: the checks of a generator record. -/
def generatorInRange (g p r f : Nat) : Bool :=
  decide (g < 4) && within 2 1000 p && decide (r ≤ p) && decide (f ≤ p) && decide (r ≤ f)

/-- R51, R168, R179: both fields of LINK_CONFIG. -/
def linkConfigInRange (d rate : Nat) : Bool := within 8 480 d && within 1 16 rate

/-- Check 1 of R58. -/
def CallLoad.inRange (c : CallLoad) : Bool :=
  decide (c.slot < 256) && decide (c.destination < 256) && optWithin 1 32 c.platform && decide (c.profile < 16)

/-- The field values of R94. -/
def FieldValues.inRange (v : FieldValues) : Bool :=
  optWithin 1 32 v.platform && optBelow 256 v.destination && optBelow 4294967296 v.scheduled
    && optBelow 4294967296 v.expected && optBelow 65536 v.delay

/-- Check 1 of R94. -/
def Announcement.inRange (a : Announcement) : Bool :=
  decide (a.template < 128) && optBelow 14 a.priority && optBelow 32 a.group && a.values.inRange

/-- Check 1 of R36 for both forms: lane, group and talk limit. -/
def LiveStart.inRange (l : LiveStart) : Bool :=
  decide (l.lane < 32) && decide (l.group < 32) && decide (l.limit ≤ 600)

/-- An entry of GAIN SET in range (R45). -/
def GainEntry.inRange (e : GainEntry) : Bool :=
  decide (e.zone < 64) && optBelow 192 e.fg && optBelow 192 e.bg && (e.fg.isSome || e.bg.isSome)

/-- The fields of PROGRAM WRITE in range (R136). -/
def ProgramFields.inRange (p : ProgramFields) : Bool :=
  optBelow 32 p.lane && decide (p.alertList.length ≤ 8) && decide (p.evacList.length ≤ 8)
    && p.alertList.all ListItem.inRange && p.evacList.all ListItem.inRange && decide (p.duration ≤ 300)
    && p.lines.toList.all fun l => match l with
      | none => true
      | some e => decide (e.debounce ≤ 255)

/-- A bank and a sector in range (R130). -/
def sectorInRange (bank : ClipBank) (sector : Nat) : Bool := decide (sector < Machine.bankSectors bank)

end Sys2Proof
end

