-- ==== Sys2Proof/Machine/Zones.lean ====
section
/-! DEFINITION. What the zone table derives from a zone record (R1), the fault history (R16) and the supervision of a
report (R13). -/

namespace Sys2Proof.Machine

/-- R1. -/
def Zone.health (x : Zone) : Health :=
  if x.extFault then .faulted
  else match x.cond with
    | .opened | .short | .silent => .faulted
    | .hot => .derated
    | .unknown | .normal => .good

/-- The zone takes part in arbitration: enabled and placed (R1, R14). -/
def Zone.on (x : Zone) : Bool := x.enabled && x.placement.isSome

/-- R1, in its order of tests. -/
def Zone.state (x : Zone) : ZoneState :=
  if !x.on then .off
  else if x.health = .faulted then .faulted
  else if x.holder.isSome then .held
  else .quiet

/-- A kind joins the fault history (R13, R14, R16). -/
def FaultHistory.join (h : FaultHistory) : LineCond → FaultHistory
  | .hot => { h with hot := true }
  | .opened => { h with opened := true }
  | .short => { h with short := true }
  | .silent => { h with silent := true }
  | .unknown => h
  | .normal => h

/-- EXTERNAL joins the fault history (R15). -/
def FaultHistory.joinExternal (h : FaultHistory) : FaultHistory := { h with external := true }

/-- The reported conditions of a ZONE REPORT (1.6), as coded. -/
def reportedCond : Nat → Option LineCond
  | 0 => some .normal
  | 1 => some .hot
  | 2 => some .opened
  | 3 => some .short
  | _ => none

/-- Is a hard fault of the line (R13). -/
def LineCond.hard (c : LineCond) : Bool := decide (c = .opened) || decide (c = .short)

/-- R13: the reported condition `r` (NORMAL, HOT, OPEN or SHORT) applied to a zone. Outside OPEN and SHORT the count is
changed only where the table gives 0. -/
def Zone.applyCondition (x : Zone) (r : LineCond) : Zone :=
  let x := { x with history := x.history.join r }
  if r.hard then { x with cond := r, normals := 0 }
  else if x.cond.hard then
    if r = .normal then
      if x.normals + 1 ≥ 3 then { x with cond := .normal, normals := 3 } else { x with normals := x.normals + 1 }
    else { x with normals := 0 }
  else { x with cond := r }

/-- R12: a report taken for its zone. -/
def Zone.applyReport (x : Zone) (r : LineCond) (ambient : Option Nat) : Zone :=
  ({ x with silence := 0, ambient := ambient }).applyCondition r

/-- R14: the silence timer reaches its limit. -/
def Zone.goSilent (x : Zone) : Zone :=
  { x with silence := Config.silenceLimit, cond := .silent, history := x.history.join .silent, normals := 0, ambient := none }

/-- R5: the supervision of a new line starts afresh. -/
def Zone.freshSupervision (x : Zone) : Zone :=
  { x with cond := .unknown, normals := 0, silence := 0, ambient := none }

/-- R15: the external fault flag is set or cleared. -/
def Zone.setExternal (x : Zone) (on : Bool) : Zone :=
  if on then { x with extFault := true, history := x.history.joinExternal } else { x with extFault := false }

end Sys2Proof.Machine
end

