-- ==== Sys2Proof/Machine/Arbiter.lean ====
section
/-! DEFINITION. The claim table and the zone arbiter (Chapter 2): placement, the three modes, preemption, release and the
release walk, withdrawal, fault, recovery and the fallback walk. -/

namespace Sys2Proof.Machine

/-- R19. -/
def Claim.state (c : Claim) : ClaimState :=
  if c.elems.any (fun e => decide (e.status = .held)) then .active
  else if c.elems.any (fun e => decide (e.status = .waiting)) then .waiting
  else .exhausted

/-- Zones whose element is WAITING, in list order. -/
def Claim.waitingZones (c : Claim) : List Nat := (c.elems.filter fun e => decide (e.status = .waiting)).map (·.zone)

/-- Zones whose element is HELD, in list order. -/
def Claim.heldZones (c : Claim) : List Nat := (c.elems.filter fun e => decide (e.status = .held)).map (·.zone)

def Claim.hasZone (c : Claim) (z : Nat) : Bool := c.elems.any fun e => decide (e.zone = z)

def Claim.statusOf (c : Claim) (z : Nat) : Option Status := (c.elems.find? fun e => decide (e.zone = z)).map (·.status)

/-- Higher priority, or equal priority and older stamp (2.7). -/
def Claim.before (c d : Claim) : Bool :=
  decide (d.priority < c.priority) || (decide (c.priority = d.priority) && decide (c.stamp < d.stamp))

namespace Vol

/-- `Claim.before` of two claim ids. -/
def claimBefore (w : Vol) (a b : Nat) : Bool :=
  match w.claim a, w.claim b with
  | some c, some d => c.before d
  | _, _ => false

/-- Set the status of a claim's element for a zone. -/
def setStatus (w : Vol) (c z : Nat) (st : Status) : Vol :=
  w.modClaim c fun x =>
    { x with elems := x.elems.map fun e => if e.zone = z then { e with status := st } else e }

/-- A claim enters a zone's wait list at its place by priority and stamp (2.7). -/
def enterWait (w : Vol) (c z : Nat) : Vol :=
  w.modZone z fun x => { x with waiters := insertBy w.claimBefore c (x.waiters.filter (· ≠ c)) }

def leaveWait (w : Vol) (c z : Nat) : Vol :=
  w.modZone z fun x => { x with waiters := x.waiters.filter (· ≠ c) }

/-- R20: the zone is QUIET, or HELD by a claim of lower priority than `priority`. -/
def obtainableAt (w : Vol) (priority z : Nat) : Bool :=
  match (w.zone z).state, (w.zone z).holder with
  | .quiet, _ => true
  | .held, some h =>
    match w.claim h with
    | some x => decide (x.priority < priority)
    | none => false
  | _, _ => false

def obtainable (w : Vol) (c z : Nat) : Bool :=
  match w.claim c with
  | some x => w.obtainableAt x.priority z
  | none => false

/-- R25: the old holder of a zone that is taken. A JOIN claim waits for it again, another misses it. -/
def preempt (w : Vol) (h z : Nat) : Vol :=
  match w.claim h with
  | some x =>
    if x.mode = .join then (w.setStatus h z .waiting).enterWait h z else w.setStatus h z (.missed .preempted)
  | none => w

/-- R20: a claim takes a zone. The mixer sees a holder change (R48). -/
def takeZone (w : Vol) (c z : Nat) : Vol :=
  let w := match (w.zone z).holder with
    | some h => if h = c then w else w.preempt h z
    | none => w
  let w := w.modZone z fun x => { x with holder := some c, waiters := x.waiters.filter (· ≠ c) }
  (w.setStatus c z .held).modGain z fun g => { g with cut := true }

/-- An element becomes MISSED: the claim leaves the zone's wait list. -/
def missZone (w : Vol) (c z : Nat) (cause : MissCause) : Vol :=
  (w.setStatus c z (.missed cause)).leaveWait c z

/-- R24, R27: a JOIN claim takes every zone it waits for that is obtainable now. -/
def joinTake (w : Vol) (c : Nat) : Vol :=
  match w.claim c with
  | some x => x.waitingZones.foldl (fun w z => if w.obtainable c z then w.takeZone c z else w) w
  | none => w

/-- R22: a WAITING WHOLE claim takes all its zones together, or none. -/
def wholeTake (w : Vol) (c : Nat) : Vol :=
  match w.claim c with
  | some x =>
    if x.state = .waiting ∧ x.waitingZones.all (w.obtainable c) = true then x.waitingZones.foldl (fun w z => w.takeZone c z) w
    else w
  | none => w

/-- R23: the first grant of a WAITING PARTIAL claim: every zone obtainable now, the rest missed with cause BUSY. -/
def partTake (w : Vol) (c : Nat) : Vol :=
  match w.claim c with
  | some x =>
    if x.state = .waiting ∧ x.waitingZones.any (w.obtainable c) = true then
      x.waitingZones.foldl (fun w z => if w.obtainable c z then w.takeZone c z else w.missZone c z .busy) w
    else w
  | none => w

/-- R27: one candidate, by its mode. -/
def modeTake (w : Vol) (c : Nat) : Vol :=
  match w.claim c with
  | some x =>
    match x.mode with
    | .join => w.joinTake c
    | .whole => w.wholeTake c
    | .part => w.partTake c
  | none => w

/-- R27: the release walk over the freed zones. The candidates are the claims in their wait lists when it begins, each
once, by priority and stamp. -/
def walk (w : Vol) (freed : List Nat) : Vol :=
  let waiting := (freed.flatMap fun z => (w.zone z).waiters).eraseDups
  (sortBy w.claimBefore waiting).foldl modeTake w

/-- R26: the release of a claim. -/
def releaseClaim (w : Vol) (c : Nat) : Vol :=
  match w.claim c with
  | some x =>
    let w1 := x.waitingZones.foldl (fun w z => w.leaveWait c z) w
    let w2 := x.heldZones.foldl (fun w z => w.modZone z fun y => { y with holder := none }) w1
    (w2.setClaim c none).walk x.heldZones
  | none => w

/-- R18: new stamps for the claims in the table, in their existing order. -/
def renumberClaims (w : Vol) : Vol :=
  let used := (List.range 40).filter fun c => (w.claim c).isSome
  let stamp (c : Nat) : Nat := (w.claim c).elim 0 (·.stamp)
  let order := sortBy (fun a b => decide (stamp a < stamp b)) used
  let w := order.zipIdx.foldl (fun w e => w.modClaim e.1 fun x => { x with stamp := e.2 }) w
  { w with stampCounter := order.length }

/-- R30: the fallback walk of at most `hops` more hops from zone `z`. -/
def fallbackWalk (w : Vol) : Nat → List Nat → Nat → Option Nat
  | 0, _, _ => none
  | hops + 1, visited, z =>
    match (w.zone z).fallback with
    | none => none
    | some y =>
      if visited.contains y then none
      else if (w.zone y).state = .quiet ∨ (w.zone y).state = .held then some y
      else w.fallbackWalk hops (y :: visited) y

/-- R30: the substitute of a faulted zone. -/
def substitute (w : Vol) (z : Nat) : Option Nat := w.fallbackWalk 4 [z] z

/-- Pass 1 of R21: the element of a member. -/
def memberElem (w : Vol) (z : Nat) : Elem :=
  { zone := z, via := none,
    status := match (w.zone z).state with
      | .off => .missed .withdrawn
      | .faulted => .missed .fault
      | .quiet => .waiting
      | .held => .waiting }

/-- Pass 2 of R21: the substitutes of the faulted members, appended in order. -/
def addSubstitutes (w : Vol) (elems : List Elem) (faulted : List Nat) : List Elem :=
  faulted.foldl (fun es z =>
    match w.substitute z with
    | some y =>
      if es.any (fun e => decide (e.zone = y)) then es else es ++ [{ zone := y, via := some z, status := .waiting }]
    | none => es) elems

/-- The lowest free claim id (R17). -/
def freeClaim (w : Vol) : Option Nat := (List.range 40).find? fun c => (w.claim c).isNone

/-- R21: a placement. An empty group makes no claim. -/
def placeClaim (w : Vol) (owner : Owner) (group priority : Nat) (mode : ClaimMode) : Option Nat × Vol :=
  let members := w.group group
  match members, w.freeClaim with
  | [], _ => (none, w)
  | _, none => (none, w)
  | _ :: _, some c =>
    let w := if w.stampCounter = Config.maxStamp then w.renumberClaims else w
    let faulted := members.filter fun z => decide ((w.zone z).state = .faulted)
    let elems := w.addSubstitutes (members.map w.memberElem) faulted
    let x : Claim := { owner := owner, priority := priority, mode := mode, stamp := w.stampCounter, elems := elems }
    let w := ({ w with stampCounter := w.stampCounter + 1 }).setClaim c (some x)
    let w := x.waitingZones.foldl (fun w z => w.enterWait c z) w
    (some c, w.modeTake c)

/-- The claims concerned by a change of a zone, holder and waiters, by priority and stamp (R29). -/
def concerned (w : Vol) (z : Nat) : List Nat :=
  sortBy w.claimBefore ((w.zone z).holder.toList ++ (w.zone z).waiters).eraseDups

/-- A claim loses its element for a zone: it holds it no more and leaves its wait list. -/
def loseZone (w : Vol) (c z : Nat) (cause : MissCause) : Vol :=
  (w.setStatus c z (.missed cause)).modZone z fun x =>
    { x with holder := if x.holder = some c then none else x.holder, waiters := x.waiters.filter (· ≠ c) }

/-- R28: a withdrawal; no substitute is sought, and WAITING WHOLE claims are tested again, by priority and stamp (log entry
35). -/
def withdrawZone (w : Vol) (z : Nat) : Vol :=
  let cs := w.concerned z
  let w := cs.foldl (fun w c => w.loseZone c z .withdrawn) w
  cs.foldl (fun w c =>
    match w.claim c with
    | some x => if x.mode = .whole then w.wholeTake c else w
    | none => w) w

/-- R31: a substitute element `y` for zone `z` is arbitrated for claim `c`, whose state before the loss was `before`. -/
def arbitrateSubstitute (w : Vol) (c z y : Nat) (before : ClaimState) : Vol :=
  let w := w.modClaim c fun x => { x with elems := x.elems ++ [{ zone := y, via := some z, status := .waiting }] }
  match w.claim c with
  | none => w
  | some x =>
    if before = .active then
      if w.obtainable c y then w.takeZone c y
      else if x.mode = .join then w.enterWait c y
      else w.setStatus c y (.missed .busy)
    else
      let w := w.enterWait c y
      match x.mode with
      | .join => if w.obtainable c y then w.takeZone c y else w
      | .part => if w.obtainable c y then w.partTake c else w
      | .whole => w.wholeTake c

/-- R29: one claim of a faulted zone. -/
def settleFault (w : Vol) (z c : Nat) : Vol :=
  match w.claim c with
  | none => w
  | some x =>
    let before := x.state
    let w := w.loseZone c z .fault
    match w.substitute z with
    | some y =>
      if x.hasZone y then (if x.mode = .whole then w.wholeTake c else w) else w.arbitrateSubstitute c z y before
    | none => if x.mode = .whole then w.wholeTake c else w

/-- R29: a fault. -/
def faultZone (w : Vol) (z : Nat) : Vol := (w.concerned z).foldl (fun w c => w.settleFault z c) w

/-- R32: the claims a recovered zone is rejoined by. -/
def rejoiners (w : Vol) (z : Nat) : List Nat :=
  (List.range 40).filter fun c =>
    match w.claim c with
    | some x => decide (x.mode = .join) && decide (x.statusOf z = some (.missed .fault))
    | none => false

/-- R32: a recovery. -/
def recoverZone (w : Vol) (z : Nat) : Vol :=
  let w := (w.rejoiners z).foldl (fun w c => (w.setStatus c z .waiting).enterWait c z) w
  w.walk [z]

/-- R1: a change of a zone record that can change its state is handed to the arbiter: OFF as a withdrawal, FAULTED as a
fault, QUIET out of OFF or FAULTED as a recovery. -/
def changeZone (w : Vol) (z : Nat) (f : Zone → Zone) : Vol :=
  let before := (w.zone z).state
  let w := w.modZone z f
  match before, (w.zone z).state with
  | .quiet, .off | .held, .off => w.withdrawZone z
  | .quiet, .faulted | .held, .faulted => w.faultZone z
  | .off, .quiet | .faulted, .quiet => w.recoverZone z
  | _, _ => w

/-- R2: the state as far as its changes are reported; QUIET and HELD count as one. -/
def reportedState (x : Zone) : ZoneState := if x.state = .held then .quiet else x.state

/-- R2: the ZONE STATE notice of an event that began with the record `before`. -/
def zoneNotice (w : Vol) (z : Nat) (before : Zone) : Vol :=
  let x := w.zone z
  if reportedState x ≠ reportedState before ∨ x.health ≠ before.health ∨ x.cond ≠ before.cond then
    w.notify (.zoneState z x.state x.health x.cond x.extFault)
  else w

end Vol

end Sys2Proof.Machine
end

