-- ==== Sys2Proof/Machine/Reads.lean ====
section
/-! DEFINITION. Page reading (6.3, 7.4): a voice's read order and demand, the holds of a bank, the suspension of an erase
and the read arbiter; use counts (R103). -/

namespace Sys2Proof.Machine

/-- Pages of a sample length, 2,048 samples a page, rounded up (R106). -/
def pagesFor (length : Nat) : Nat := (length + (Config.pageSamples - 1)) / Config.pageSamples

/-- Length of a fragment in frames (6.1). -/
def Fragment.frames : Fragment → Nat
  | .clip _ n => 3 * n
  | .pause n => n * 4800
  | .tone _ n => n * 4800

/-- The clip a fragment names. -/
def Fragment.clip? : Fragment → Option Nat
  | .clip c _ => some c
  | .pause _ => none
  | .tone _ _ => none

/-- The distinct clips of a list (R103). -/
def clipsOf (fs : List Fragment) : List Nat := (fs.filterMap Fragment.clip?).eraseDups

/-- R106: the pages of the CLIP fragments, fragment by fragment, page by page. -/
def readOrder (fs : List Fragment) : List PageRef :=
  fs.zipIdx.flatMap fun e =>
    match e.1 with
    | .clip c n => (List.range (pagesFor n)).map fun p => { frag := e.2, clip := c, page := p }
    | .pause _ => []
    | .tone _ _ => []

/-- The next page of the read order. -/
def Voice.nextPage (x : Voice) : Option PageRef := (readOrder x.frags)[x.nextRead]?

/-- R123: the bank and page of a demanded page. -/
def Nonvolatile.locate (nv : Nonvolatile) (r : PageRef) : Option (ClipBank × Nat) :=
  (nv.clip r.clip).run.map fun x => (x.1, x.2.1 + r.page)

def Nonvolatile.bankOf (nv : Nonvolatile) (r : PageRef) : Option ClipBank := (nv.locate r).map (·.1)

namespace Vol

/-- A voice's demand for a page of `bank` that waits: its read has not started. -/
def waitsFor (w : Vol) (nv : Nonvolatile) (bank : ClipBank) (v : Nat) : Bool :=
  match (w.voice v).demand with
  | some r => decide (nv.bankOf r = some bank) && decide ((w.store.read.map (·.user)) ≠ some (.voice v))
  | none => false

/-- R123: an erase of `bank` is suspended. -/
def suspendedOn (w : Vol) (nv : Nonvolatile) (bank : ClipBank) : Bool :=
  (List.range 8).any (fun v => w.waitsFor nv bank v && decide ((w.voice v).buffer.length < 2))
    || decide (w.store.read.map (·.bank) = some bank)

/-- R123: an erase is in flight and SUSPENDED. -/
def suspended (w : Vol) (nv : Nonvolatile) : Bool :=
  match w.store.op with
  | .erasing bank _ _ => w.suspendedOn nv bank
  | _ => false

/-- R123: the demands of `bank` are held. -/
def holds (w : Vol) (nv : Nonvolatile) (bank : ClipBank) : Bool :=
  match w.store.op with
  | .programming _ busy _ _ _ => decide (busy = bank)
  | .erasing busy _ _ => decide (busy = bank) && !w.suspendedOn nv busy
  | _ => false

/-- R122: voices whose demand can be started. -/
def readCandidates (w : Vol) (nv : Nonvolatile) : List Nat :=
  (List.range 8).filter fun v =>
    match (w.voice v).demand with
    | some r =>
      match nv.bankOf r with
      | some bank => !w.holds nv bank
      | none => false
    | none => false

/-- R122: the emptiest buffer first, and among equals the lower number. -/
def chooseRead (w : Vol) (nv : Nonvolatile) : Option Nat :=
  (sortBy (fun a b => decide ((w.voice a).buffer.length < (w.voice b).buffer.length)
      || (decide ((w.voice a).buffer.length = (w.voice b).buffer.length) && decide (a < b)))
    (w.readCandidates nv)).head?

def storeStarting (w : Vol) : Bool :=
  match w.store.op with
  | .starting _ => true
  | _ => false

/-- R122: the free read path starts the read of one demand, or else of the next page of a verify. -/
def pump (w : Vol) (nv : Nonvolatile) : Vol :=
  if w.store.read.isSome ∨ w.storeStarting = true then w
  else match w.chooseRead nv with
    | some v =>
      match (w.voice v).demand with
      | some r =>
        match nv.locate r with
        | some (bank, page) =>
          w.modStore fun s =>
            { s with read := some { user := .voice v, clip := r.clip, bank := bank, page := page, elapsed := 0 } }
        | none => w
      | none => w
    | none =>
      match w.store.op with
      | .verifying c _ _ next _ =>
        match (nv.clip c).run with
        | some (bank, first, count) =>
          if next < count then
            w.modStore fun s =>
              { s with read := some { user := .verify, clip := c, bank := bank, page := first + next, elapsed := 0 } }
          else w
        | none => w
      | _ => w

/-- R106: the voice demands the next page of its read order. -/
def makeDemand (w : Vol) (v : Nat) : Vol :=
  let x := w.voice v
  if x.state = .idle ∨ x.demand.isSome ∨ 4 ≤ x.buffer.length then w
  else match x.nextPage with
    | some r => w.setVoice v { x with demand := some r, nextRead := x.nextRead + 1 }
    | none => w

/-- R107: the voice's demand is withdrawn; a read of it in progress is completed and discarded (R122). -/
def withdrawDemand (w : Vol) (v : Nat) : Vol :=
  let w := w.modVoice v fun x => { x with demand := none }
  w.modStore fun s =>
    match s.read with
    | some r => if r.user = .voice v then { s with read := some { r with user := .discarded } } else s
    | none => s

/-- R103: the use count of each clip of the list adds one. -/
def raiseUses (w : Vol) (fs : List Fragment) : Vol :=
  w.modStore fun s =>
    { s with uses := (clipsOf fs).foldl (fun m c => Sparse.set 0 m c (Sparse.get 0 m c + 1)) s.uses }

/-- R103: the use count of each clip of the list is given back. -/
def lowerUses (w : Vol) (fs : List Fragment) : Vol :=
  w.modStore fun s =>
    { s with uses := (clipsOf fs).foldl (fun m c => Sparse.set 0 m c (Sparse.get 0 m c - 1)) s.uses }

/-- A voice is released (R101): it releases its claim (R26), gives back its use counts, withdraws its demand, empties its
buffer and goes IDLE. Its two counts stand. -/
def releaseVoice (w : Vol) (v : Nat) : Vol :=
  let x := w.voice v
  let w := match x.claim with
    | some c => w.releaseClaim c
    | none => w
  let w := (w.lowerUses x.frags).withdrawDemand v
  w.setVoice v { Voice.initial with stalls := x.stalls, damaged := x.damaged }

end Vol

end Sys2Proof.Machine
end

