-- ==== Sys2Proof/Machine/Requests.lean ====
section
/-! DEFINITION. The request queue (Chapter 5) and the expansion of a request by its voice (6.2): removal, creation, room
and eviction, the hand-out of voices, the settlement of plays that end or lose their zones, and the end of an event. -/

namespace Sys2Proof.Machine

/-- Queue order (R87): priority highest first, then creation stamp oldest first. -/
def Request.before (a b : Request) : Bool :=
  decide (b.priority < a.priority) || (decide (a.priority = b.priority) && decide (a.stamp < b.stamp))

/-- The voice of a VOICED or PLAYING request. -/
def Request.voice? (r : Request) : Option Nat :=
  match r.state with
  | .voiced v => some v
  | .playing v => some v
  | .pending => none
  | .ready => none

def Request.isPlaying (r : Request) : Bool :=
  match r.state with
  | .playing _ => true
  | _ => false

/-- A PENDING or READY request (R88). -/
def Request.isWaiting (r : Request) : Bool := decide (r.state = .pending) || decide (r.state = .ready)

def FinishMark.outcome : FinishMark → ReqOutcome
  | .superseded => .superseded
  | .withdrawn => .withdrawn

/-- R92, R93, R89: `b` is of the moment of `a`: the same call and trigger kind, or for CONTACT the same platform. -/
def Request.sameMoment (a b : Request) : Bool :=
  match a.origin with
  | .timetable => a.call.isSome && decide (b.origin = .timetable) && decide (a.call = b.call)
  | .contact => decide (b.origin = .contact) && decide (a.platform = b.platform)
  | .direct => false
  | .evac => false

/-- Time a play may wait: none when the window is 0 or absent (R85). -/
def expiryFrom (start : Nat) : Option Nat → Option Nat
  | none => none
  | some 0 => none
  | some (n + 1) => some (timeSum start (n + 1))

/-- The delay of a call in whole minutes (4.3). -/
def delayMinutes (scheduled : Nat) (expected : Option Nat) : Nat :=
  match expected with
  | none => 0
  | some e => if e ≤ scheduled then 0 else (e - scheduled) / 60

/-- The expected time of a call, or its scheduled time (4.3). -/
def Call.expectedTime (c : Call) : Nat := c.expected.getD c.scheduled

def Call.delay (c : Call) : Nat := delayMinutes c.scheduled c.expected

/-- The values a request's FIELD items speak (R85): a field without value is none; `noPlatform` says that a call without
platform renders nothing and leaves the incomplete flag. -/
structure Spoken where
  platform : Option Nat
  noPlatform : Bool
  destination : Option Nat
  scheduled : Option Nat
  expected : Option Nat
  delay : Option Nat

def Spoken.ofCall (c : Call) : Spoken :=
  { platform := c.platform, noPlatform := c.platform.isNone, destination := some c.destination,
    scheduled := some c.scheduled, expected := some c.expectedTime, delay := some c.delay }

def Spoken.empty : Spoken :=
  { platform := none, noPlatform := false, destination := none, scheduled := none, expected := none, delay := none }

namespace Vol

def request (w : Vol) (n : Nat) : Option Request := w.queue.requests.find? fun r => decide (r.number = n)

def modRequest (w : Vol) (n : Nat) (f : Request → Request) : Vol :=
  w.modQueue fun q => { q with requests := q.requests.map fun r => if r.number = n then f r else r }

/-- The REQUEST END notice of a removal (R99). -/
def endNotice (w : Vol) (r : Request) (o : ReqOutcome) : Vol :=
  w.notify (.requestEnd (some r.number) r.origin r.call r.platform r.template r.priority o)

/-- R87: a request is removed with an outcome; its entry is freed, the notice sent, and its voice released. -/
def removeRequest (w : Vol) (n : Nat) (o : ReqOutcome) : Vol :=
  match w.request n with
  | none => w
  | some r =>
    let w := w.modQueue fun q => { q with requests := q.requests.filter fun x => decide (x.number ≠ n) }
    let w := w.endNotice r o
    match r.voice? with
    | some v => w.releaseVoice v
    | none => w

/-! #### What a voice speaks (R84, R86, R102) -/

/-- R85: the values of the source at the moment of expansion. -/
def spoken (w : Vol) (r : Request) : Spoken :=
  match r.origin with
  | .timetable =>
    match r.call with
    | some (slot, _) =>
      match w.call slot with
      | some c => .ofCall c
      | none => .empty
    | none => .empty
  | .direct =>
    match r.values with
    | some v =>
      { platform := v.platform, noPlatform := false, destination := v.destination, scheduled := v.scheduled,
        expected := v.expected.or v.scheduled, delay := v.delay }
    | none => .empty
  | .contact =>
    match r.platform with
    | some p =>
      match (w.platform p).occupant.bind w.call with
      | some c => { Spoken.ofCall c with platform := some p, noPlatform := false }
      | none => { Spoken.empty with platform := some p }
    | none => .empty
  | .evac => .empty

/-- Time of day (R84): (t - day base) mod 86,400. -/
def timeOfDay (w : Vol) (t : Nat) : Nat := (((t : Int) - (w.clock.dayBase : Int)) % 86400).toNat

/-- HOURS entry of the hour, then MINUTES entry of the minute (R84). -/
def timePhrases (w : Vol) (t : Nat) : List (Option Nat) :=
  let d := w.timeOfDay t
  [tget none w.hours (d / 3600), tget none w.minutes (d % 3600 / 60)]

/-- R84: the phrase entries of a FIELD item, and whether the value is one the source does not have. -/
def fieldPhrases (w : Vol) (x : Spoken) : SpokenField → List (Option Nat) × Bool
  | .platform =>
    match x.platform with
    | some p => ([tget none w.platPhrases (p - 1)], false)
    | none => ([], !x.noPlatform)
  | .destination =>
    match x.destination with
    | some d => ([tget none w.dests d], false)
    | none => ([], true)
  | .scheduled =>
    match x.scheduled with
    | some t => (w.timePhrases t, false)
    | none => ([], true)
  | .expected =>
    match x.expected with
    | some t => (w.timePhrases t, false)
    | none => ([], true)
  | .delay =>
    match x.delay with
    | some 0 => ([], false)
    | some (n + 1) => ([tget none w.numbers (min n 99)], false)
    | none => ([], true)

end Vol

/-- The clip test (R102): the fragment of a clip that passes, or none; and whether the test failed. -/
def clipTest (nv : Nonvolatile) (c : Nat) : List Fragment × Bool :=
  let e := nv.clip c
  if e.state = .valid then
    match e.length with
    | some 0 => ([], false)
    | some (n + 1) => ([.clip c (n + 1)], false)
    | none => ([], false)
  else ([], true)

/-- A phrase entry in the list: an empty entry renders nothing and sets the incomplete flag (R84). -/
def phraseTest (nv : Nonvolatile) : Option Nat → List Fragment × Bool
  | some c => clipTest nv c
  | none => ([], true)

namespace Vol

/-- R102: the fragments of an item, and whether it sets the incomplete flag. -/
def expandItem (w : Vol) (nv : Nonvolatile) (x : Spoken) : Item → List Fragment × Bool
  | .clip c => clipTest nv c
  | .pause n => ([.pause n], false)
  | .tone t n => ([.tone t n], false)
  | .field f =>
    let (es, missing) := w.fieldPhrases x f
    let rs := es.map (phraseTest nv)
    (rs.flatMap (·.1), missing || rs.any (·.2))

/-- R102: the playout list of a request from its template, and whether a part could not be said. -/
def expandTemplate (w : Vol) (nv : Nonvolatile) (r : Request) : List Fragment × Bool :=
  match r.template.bind w.template with
  | none => ([], false)
  | some t =>
    let rs := t.items.map (w.expandItem nv (w.spoken r))
    (rs.flatMap (·.1), rs.any (·.2))

end Vol

/-- The whoop tone of 10 s (R115, R156). -/
def whoop : Fragment := .tone 2 100

/-- R115: the list of voice 7. A list in which no clip passes the clip test plays the whoop tone; so does one that gives
no fragment at all (log entry 20). -/
def expandEvac (nv : Nonvolatile) (items : List ListItem) : List Fragment × Bool :=
  let rs := items.map fun i => match i with
    | .clip c => clipTest nv c
    | .tone t n => ([.tone t n], false)
  let passes := items.any fun i => match i with
    | .clip c => !(clipTest nv c).2
    | .tone _ _ => false
  let fs := rs.flatMap (·.1)
  (if passes = false ∨ fs = [] then [whoop] else fs, rs.any (·.2))

namespace Vol

/-- The fragments of the list in force (R156). -/
def listInForce (w : Vol) : List ListItem :=
  match w.evac.list with
  | some .standIn => [.tone 2 100]
  | some .alert => w.evac.alertList
  | some .evacuate => w.evac.evacList
  | none => []

/-- R86: the group of a request's target, or none. -/
def targetGroup (w : Vol) (r : Request) : Option Nat :=
  match r.override with
  | some g => some g
  | none =>
    match r.template.bind w.template with
    | none => none
    | some t =>
      match t.target with
      | .group g => some g
      | .callPlatform =>
        let p := match r.origin with
          | .timetable => (r.call.bind fun c => w.call c.1).bind (·.platform)
          | .direct => r.values.bind (·.platform)
          | .contact => r.platform
          | .evac => none
        p.bind fun p => (w.platform p).group
      | .profile =>
        match r.origin with
        | .timetable => (r.call.bind fun c => w.call c.1).bind fun c => (w.profile c.profile).concourse
        | .direct => none
        | .contact => none
        | .evac => none

/-- The end of a request that a voice could not begin; for the evacuation request the controller then holds none (R156). -/
def failBegin (w : Vol) (r : Request) (o : ReqOutcome) : Vol :=
  let w := w.removeRequest r.number o
  if r.origin = .evac then w.modEvac fun e => { e with request := none, list := none } else w

/-- R102, R104: a voice begins the request it has been given: it expands the request, raises use counts, resolves the
target, places its claim, enters CUEING and makes its first demand. -/
def beginVoice (w : Vol) (nv : Nonvolatile) (r : Request) (v : Nat) : Vol :=
  let (fs, incomplete) := if r.origin = .evac then expandEvac nv w.listInForce else w.expandTemplate nv r
  let w := if incomplete then w.modRequest r.number fun x => { x with incomplete := true } else w
  if fs = [] then w.failBegin r .failed
  else match w.targetGroup r with
    | none => w.failBegin r .noTarget
    | some g =>
      match w.placeClaim (.voice v) g r.priority r.mode with
      | (none, w) => w.failBegin r .noTarget
      | (some c, w) =>
        let w := w.raiseUses fs
        let w := w.modVoice v fun x =>
          { x with state := .cueing, request := some r.number, claim := some c,
                   source := some (if r.origin = .evac then .evacuation else .template), frags := fs, cur := 0, pos := 0,
                   buffer := [], demand := none, nextRead := 0, finished := false, newList := none,
                   newListWaits := false }
        w.makeDemand v

/-- R91: the voice for a READY request, if an IDLE one fits. -/
def voiceFor (w : Vol) (r : Request) : Option Nat :=
  if r.origin = .evac then (if (w.voice 7).state = .idle then some 7 else none)
  else (List.range 7).find? fun v => decide ((w.voice v).state = .idle)

/-- R91: the first READY request is given its voice, if one fits. -/
def handOutOne (w : Vol) (nv : Nonvolatile) : Option Vol :=
  match w.queue.requests.find? fun r => decide (r.state = .ready) with
  | none => none
  | some r =>
    match w.voiceFor r with
    | none => none
    | some v => some ((w.modRequest r.number fun x => { x with state := .voiced v }).beginVoice nv r v)

/-- R91: the hand-out, at most `fuel` requests. Each hand-out leaves one READY request less. -/
def handOutFuel (nv : Nonvolatile) : Nat → Vol → Vol
  | 0, w => w
  | n + 1, w =>
    match w.handOutOne nv with
    | none => w
    | some w => handOutFuel nv n w

/-- R91: the hand-out of voices to READY requests in queue order. -/
def handOut (w : Vol) (nv : Nonvolatile) : Vol := handOutFuel nv w.queue.requests.length w

/-! #### Creation, room and eviction (R85, R88, R89) -/

/-- R85: the number counter, or the next number after it that no request holds, searching `fuel` numbers. A request that the same
creation supersedes or evicts is no longer in the queue that is searched: the model's choice (log entry 57). -/
def freeNumber (w : Vol) : Nat → Nat → Nat
  | 0, n => n
  | fuel + 1, n => if w.queue.requests.any (fun r => decide (r.number = n)) then w.freeNumber fuel ((n + 1) % 65536) else n

/-- R85: new stamps for the requests, 0 upward in their existing order, when the stamp counter is at its largest. -/
def renumberRequests (w : Vol) : Vol :=
  let order := sortBy (fun (a b : Request) => decide (a.stamp < b.stamp)) w.queue.requests
  let stampOf (n : Nat) : Nat := (order.findIdx? fun r => decide (r.number = n)).getD 0
  w.modQueue fun q =>
    { q with requests := q.requests.map (fun r => { r with stamp := stampOf r.number }), nextStamp := q.requests.length }

def lowCount (w : Vol) : Nat := (w.queue.requests.filter fun r => decide (r.priority < 12)).length

/-- R88: there is room for a request of this priority. -/
def hasRoom (w : Vol) (priority : Nat) : Bool :=
  decide (w.queue.requests.length < Config.queueCapacity)
    && (decide (12 ≤ priority) || decide (w.lowCount < Config.lowCapacity))

/-- R88: the request to evict: PENDING or READY, of lower priority, the lowest priority and among equals the newest. -/
def evictable (w : Vol) (priority : Nat) : Option Request :=
  (sortBy (fun (a b : Request) => b.before a)
    (w.queue.requests.filter fun r => r.isWaiting && decide (r.priority < priority))).head?

/-- R88: make room: as it is, by eviction, or not. -/
def makeRoom (w : Vol) (priority : Nat) : Option Vol :=
  if w.hasRoom priority then some w
  else match w.evictable priority with
    | some r => some (w.removeRequest r.number .evicted)
    | none => none

/-- Give a new request its number and stamp (R85), in the queue without the request that it supersedes or evicts: the model's choice
(log entry 57). -/
def numberRequest (w : Vol) (r : Request) : Request × Vol :=
  let w := if w.queue.nextStamp = Config.maxStamp then w.renumberRequests else w
  let n := w.freeNumber 65 w.queue.nextNumber
  let r := { r with number := n, stamp := w.queue.nextStamp,
                    state := if r.notBefore ≤ w.clock.time then .ready else .pending }
  (r, w.modQueue fun q => { q with nextNumber := (n + 1) % 65536, nextStamp := q.nextStamp + 1 })

/-- R87: a numbered request takes its place, and the hand-out runs (R91). -/
def enterQueue (w : Vol) (nv : Nonvolatile) (r : Request) : Vol :=
  (w.modQueue fun q => { q with requests := insertBy Request.before r q.requests }).handOut nv

/-- R89: a new request replaces the one of the same moment that is not PLAYING. -/
def replaceMoment (w : Vol) (r : Request) : Vol :=
  match w.queue.requests.find? fun x => r.sameMoment x && !x.isPlaying with
  | some x => w.removeRequest x.number .superseded
  | none => w

/-- R85, R88, R89: a TIMETABLE, CONTACT or EVAC request is created. Answers its number when it enters the queue; one
without room ends DROPPED, which sets the QUEUE latch (R182); it too uses up a stamp (log entry 38). The request that it supersedes
(R89) or evicts (R88) leaves the queue before the new one takes its number and stamp, so the number search does not see it and its
number can be given again: the model's choice, R85, R89 and R97 leave the order open (log entry 57). -/
def createRequest (w : Vol) (nv : Nonvolatile) (r : Request) : Option Nat × Vol :=
  let w := w.replaceMoment r
  match w.makeRoom r.priority with
  | some w =>
    let (r, w) := w.numberRequest r
    (some r.number, w.enterQueue nv r)
  | none =>
    let (r, w) := w.numberRequest r
    (none, ((w.endNotice r .dropped).modEngine fun e => { e with queueLatch := true }).handOut nv)

/-- A request from a template (R85); number, stamp and state are given at creation. -/
def requestFrom (w : Vol) (t : Template) (tn : Nat) (origin : Origin) : Request :=
  { number := 0, origin := origin, call := none, platform := none, template := some tn, override := none, values := none,
    priority := t.priority, mode := t.mode, resume := t.resume, gap := some t.gap, window := some t.window,
    repeatsLeft := some (t.repeats - 1), notBefore := w.clock.time, expiry := expiryFrom w.clock.time (some t.window),
    state := .pending, stamp := 0, incomplete := false, finish := none, cancelPending := false }

/-- The evacuation request (R85, R98). -/
def evacRequest (w : Vol) : Request :=
  { number := 0, origin := .evac, call := none, platform := none, template := none, override := some 31, values := none,
    priority := 14, mode := .join, resume := .restart, gap := none, window := none, repeatsLeft := none,
    notBefore := w.clock.time, expiry := none, state := .pending, stamp := 0, incomplete := false, finish := none,
    cancelPending := false }

/-! #### Settlement -/

/-- Another request that is not PLAYING stands for the same moment (R92, R93). -/
def hasNewer (w : Vol) (r : Request) : Bool :=
  w.queue.requests.any fun x => decide (x.number ≠ r.number) && r.sameMoment x && !x.isPlaying

/-- R92: a play has reached its end and its voice is IDLE. -/
def settleEnd (w : Vol) (n : Nat) : Vol :=
  match w.request n with
  | none => w
  | some r =>
    if r.cancelPending then w.removeRequest n .cancelled
    else if r.repeatsLeft = some 0 then w.removeRequest n (if r.incomplete then .incomplete else .done)
    else match r.finish with
      | some m => w.removeRequest n m.outcome
      | none =>
        if w.evac.state = .evacuate ∧ r.priority < 12 then w.removeRequest n .suppressed
        else if w.hasNewer r then w.removeRequest n .superseded
        else
          let nb := timeSum w.clock.time (r.gap.getD 0)
          w.modRequest n fun x =>
            { x with state := .pending, repeatsLeft := x.repeatsLeft.map (· - 1), notBefore := nb,
                     expiry := expiryFrom nb x.window }

/-- R93: a play has lost every zone under RESTART and its voice is IDLE. -/
def settleLost (w : Vol) (n : Nat) : Vol :=
  match w.request n with
  | none => w
  | some r =>
    if r.cancelPending then w.removeRequest n .cancelled
    else match r.finish with
      | some m => w.removeRequest n m.outcome
      | none =>
        if w.evac.state = .evacuate ∧ r.priority < 12 then w.removeRequest n .suppressed
        else if w.hasNewer r then w.removeRequest n .superseded
        else w.modRequest n fun x => { x with state := .ready, expiry := expiryFrom w.clock.time x.window }

/-- A request returns to READY with its voice released (R73, R93, first case). -/
def returnToReady (w : Vol) (n : Nat) : Vol :=
  match w.request n with
  | none => w
  | some r =>
    let w := w.modRequest n fun x => { x with state := .ready }
    match r.voice? with
    | some v => w.releaseVoice v
    | none => w

/-- R96: the withdrawal of one request: one that is not PLAYING is removed, a PLAYING one is given a finish mark unless it
has one. A PLAYING one that is cancel pending is removed with CANCELLED (R95; log entry 34). -/
def withdrawRequest (w : Vol) (r : Request) (m : FinishMark) : Vol :=
  if !r.isPlaying then w.removeRequest r.number m.outcome
  else if r.cancelPending then w.removeRequest r.number .cancelled
  else w.modRequest r.number fun x => { x with finish := x.finish.or (some m) }

/-- R96: the withdrawal of requests in queue order. -/
def withdrawRequests (w : Vol) (p : Request → Bool) (m : FinishMark) : Vol :=
  (w.queue.requests.filter p).foldl (fun w r => w.withdrawRequest r m) w

/-- R90: a request whose expiry has passed: PENDING, READY or VOICED. -/
def expiredNow (w : Vol) (r : Request) : Bool :=
  !r.isPlaying && (match r.expiry with
    | some e => decide (e < w.clock.time)
    | none => false)

/-- R90: a PENDING request whose not-before is reached. -/
def readyNow (w : Vol) (r : Request) : Bool := decide (r.state = .pending) && decide (r.notBefore ≤ w.clock.time)

/-- R90: what a one-second advance or a TIME request does to the queue: expiries first, in queue order (log entry 41), then the PENDING
requests whose not-before is reached become READY, and the hand-out runs. -/
def queueTime (w : Vol) (nv : Nonvolatile) : Vol :=
  let w := (w.queue.requests.filter w.expiredNow).foldl (fun w r => w.removeRequest r.number .expired) w
  let w := (w.queue.requests.filter w.readyNow).foldl
    (fun w r => w.modRequest r.number fun x => { x with state := .ready }) w
  w.handOut nv

/-! #### The end of an event -/

/-- The claim of a voice is EXHAUSTED and the voice acts on the report (R105, R112); voice 7 does not (R115). -/
def exhaustedVoice (w : Vol) : Option Nat :=
  (List.range 8).find? fun v =>
    let x := w.voice v
    decide (x.source = some .template) && (match x.claim.bind w.claim with
      | some c => decide (c.state = .exhausted)
      | none => false)

/-- R105, R112: a voice acts on the EXHAUSTED report of its claim. -/
def voiceExhausted (w : Vol) (v : Nat) : Vol :=
  let x := w.voice v
  match x.request with
  | none => w.releaseVoice v
  | some n =>
    let cueing := decide (x.state = .cueing)
    let w := w.releaseVoice v
    if cueing then w.removeRequest n .noZones
    else match w.request n with
      | none => w
      | some r =>
        if r.resume = .restart then w.settleLost n
        else w.removeRequest n (if r.cancelPending then .cancelled else .preempted)

/-- R33: the EXHAUSTED reports at the end of an event, each followed by the hand-out. -/
def reportExhausted (nv : Nonvolatile) : Nat → Vol → Vol
  | 0, w => w
  | n + 1, w =>
    match w.exhaustedVoice with
    | none => w
    | some v => reportExhausted nv n ((w.voiceExhausted v).handOut nv)

/-- Every report removes a request or turns a PLAYING one into one that is not, so this many passes suffice. -/
def settle (w : Vol) (nv : Nonvolatile) : Vol := reportExhausted nv (2 * w.queue.requests.length + 1) w

end Vol

end Sys2Proof.Machine
end

