-- ==== Sys2Proof/Machine/Flags.lean ====
section
/-! DEFINITION. The alert (11.7) and what ends every event: the EXHAUSTED reports are acted on (R33), the read path looks
again (R122) and the alert is re-evaluated (R182). -/

namespace Sys2Proof.Machine

/-- Some page of some bank is DIRTY (R118). -/
def Nonvolatile.anyDirty (nv : Nonvolatile) : Bool := nv.pages.any fun e => decide (e.2 = .dirty)

namespace Vol

/-- R182: a condition holds. -/
def condHolds (w : Vol) (nv : Nonvolatile) : AlertCond → Bool
  | .zoneFault => w.zones.toList.any fun x => decide (x.state = .faulted)
  | .link => w.ports.toList.any fun x => decide (x.state ≠ .locked)
  | .store => nv.anyDirty || w.store.checkFail
  | .queue => w.engine.queueLatch
  | .evac => decide (w.evac.state ≠ .normal)
  | .conflict => w.platforms.toList.any (·.conflict)

/-- The conditions of the mask that hold, in the table's order. -/
def heldConds (w : Vol) (nv : Nonvolatile) : List AlertCond :=
  [AlertCond.zoneFault, .link, .store, .queue, .evac, .conflict].filter fun c => w.engine.mask.contains c && w.condHolds nv c

/-- R182: the re-evaluation at the end of an event. -/
def evalAlert (w : Vol) (nv : Nonvolatile) : Vol :=
  let conds := w.heldConds nv
  if conds = [] then
    if w.engine.raised then (w.modEngine fun e => { e with raised := false }).notify .alertCleared else w
  else
    if w.engine.raised then w else (w.modEngine fun e => { e with raised := true }).notify (.alertRaised conds)

/-- The end of an event. -/
def finish (w : Vol) (nv : Nonvolatile) : Vol := ((w.settle nv).pump nv).evalAlert nv

/-- A zone event (R1, R2): the record is changed, the arbiter settles the change, the event's reports are acted on, and
the ZONE STATE notice is sent with the values in force after it. No rule orders this notice and those of the voices whose
claims the event exhausts; that theirs come first is the model's choice (log entry 11). -/
def zoneEvent (w : Vol) (nv : Nonvolatile) (z : Nat) (f : Zone → Zone) : Vol :=
  let before := w.zone z
  ((w.changeZone z f).settle nv).zoneNotice z before

end Vol

/-- The end of an event over the whole state. -/
def State.finish (s : State) : State := { s with vol := s.vol.finish s.nv }

end Sys2Proof.Machine
end

