-- ==== Sys2Proof/Machine/Calls.lean ====
section
/-! DEFINITION. The call table and the timetable (Chapter 4): due entries, the state machines, platform occupancy,
triggers, and the walk of the due list. -/

namespace Sys2Proof.Machine

def Trigger.place : Trigger → Nat
  | .approach => 0
  | .arrived => 1
  | .boarding => 2
  | .final => 3
  | .delay => 4
  | .platformChange => 5
  | .cancelled => 6

/-- The profile's template for a trigger kind (4.2). -/
def Profile.templateFor (p : Profile) (t : Trigger) : Option Nat := tget none p.templates t.place

/-- A due time from `a - b`, not below 0 (R59). -/
def clampTime (t : Nat) : Nat := min t Config.maxTime

/-- Order of the due list (R79): due time, then slot. -/
def DueEntry.before (a b : DueEntry) : Bool :=
  decide (a.time < b.time) || (decide (a.time = b.time) && decide (a.slot < b.slot))

/-- R59: the due time of a call, or none when its kind and state have no timed event. -/
def Call.dueTime (c : Call) (p : Profile) : Option Nat :=
  match c.kind, c.state with
  | .depart, .planned =>
    if c.platform.isSome ∧ c.held = none then some (clampTime (c.expectedTime - p.boardingLead)) else none
  | .depart, .boarding => some (clampTime (c.expectedTime - p.finalLead))
  | .depart, .final => some (clampTime (c.expectedTime + Config.doorsDelay))
  | .arrive, .planned => some (clampTime (c.expectedTime - p.approachLead))
  | .arrive, .atPlatform => some (clampTime (c.arrival.getD 0 + p.clearDelay))
  | _, .gone => some (clampTime (c.gone.getD 0 + Config.removalDelay))
  | _, .cancelled => some (clampTime (c.gone.getD 0 + Config.removalDelay))
  | .arrive, .approaching => none
  | .arrive, .boarding => none
  | .arrive, .final => none
  | .depart, .approaching => none
  | .depart, .atPlatform => none

/-- The call is the occupant of its platform by its state (4.5). -/
def CallState.occupies : CallState → Bool
  | .atPlatform => true
  | .boarding => true
  | .final => true
  | .planned => false
  | .approaching => false
  | .gone => false
  | .cancelled => false

/-- A held transition (4.3) in the words of a call state. -/
def HeldTransition.target : HeldTransition → CallState
  | .boarding => .boarding
  | .atPlatform => .atPlatform

def HeldTransition.trigger : HeldTransition → Trigger
  | .boarding => .boarding
  | .atPlatform => .arrived

namespace Vol

/-- R79: the call's due entry leaves the due list. -/
def dropDue (w : Vol) (slot : Nat) : Vol := { w with due := w.due.filter fun e => decide (e.slot ≠ slot) }

/-- R59: the due entry of a call is computed anew and replaces its entry. -/
def remakeDue (w : Vol) (slot : Nat) : Vol :=
  let w := w.dropDue slot
  match w.call slot with
  | none => w
  | some c =>
    match c.dueTime (w.profile c.profile) with
    | none => w
    | some t => { w with due := insertBy DueEntry.before { time := t, slot := slot } w.due }

/-- R66: a trigger of a call hands the request queue a new request. Answers whether one was handed over. The FAILED notice of an
empty template carries priority 0 (log entry 51). -/
def fireTrigger (w : Vol) (nv : Nonvolatile) (slot : Nat) (t : Trigger) (stale : Bool) : Bool × Vol :=
  match w.call slot with
  | none => (false, w)
  | some c =>
    match (w.profile c.profile).templateFor t with
    | none => (false, w)
    | some tn =>
      if stale ∨ w.evac.state = .evacuate then (false, w)
      else match w.template tn with
        | none => (true, w.notify (.requestEnd none .timetable (some (slot, t)) none (some tn) 0 .failed))
        | some tm =>
          match w.createRequest nv { w.requestFrom tm tn .timetable with call := some (slot, t) } with
          | (some _, w) => (true, w.modCall slot fun c => { c with announced := true })
          | (none, w) => (true, w)

/-- R70: the CALL STATE notice. In EVACUATE a trigger that fires carries the suppressed mark, and so does a stale
transition, beside its stale mark (R68). The announced flag is the one that stands after the transition or trigger the notice is
of, also where the same event goes on to another (log entry 50). -/
def callNotice (w : Vol) (slot : Nat) (t : Option Trigger) (stale made : Bool) : Vol :=
  match w.call slot with
  | none => w
  | some c =>
    w.notify (.callState slot c.kind c.service c.state c.platform t c.announced stale
      ((t.isSome || stale) && decide (w.evac.state = .evacuate)) made)

/-- The end of a transition (R60): its trigger, its notice, its new due entry. -/
def endTransition (w : Vol) (nv : Nonvolatile) (slot : Nat) (t : Option Trigger) (stale : Bool) : Vol :=
  let (made, w) := match t with
    | some t => w.fireTrigger nv slot t stale
    | none => (false, w)
  (w.callNotice slot t stale made).remakeDue slot

/-- R69, R96: requests of the call with one of the trigger kinds, all of them when `kinds` is none. -/
def supersede (w : Vol) (nv : Nonvolatile) (slot : Nat) (kinds : Option Trigger) (m : FinishMark) : Vol :=
  (w.withdrawRequests (fun r =>
    match r.call with
    | some (s, t) => decide (s = slot) && kinds.elim true fun k => decide (t = k)
    | none => false) m).handOut nv

/-- R60, R61, R63: a call whose platform is free becomes its occupant and completes its transition. -/
def enterPlatform (w : Vol) (nv : Nonvolatile) (slot p : Nat) (h : HeldTransition) (stale : Bool) : Vol :=
  let w := w.modPlatform p fun x => { x with occupant := some slot }
  let w := w.modCall slot fun c =>
    { c with state := h.target, held := none, arrival := if h = .atPlatform then some w.clock.time else c.arrival }
  let w := if h = .atPlatform then w.supersede nv slot (some .approach) .superseded else w
  w.endTransition nv slot (some h.trigger) stale

/-- R63: a transition is held behind another occupant. -/
def holdCall (w : Vol) (slot p occupant : Nat) (h : HeldTransition) : Vol :=
  let w := w.modCall slot fun c => { c with held := some (h, w.clock.time) }
  let w := w.modPlatform p fun x => { x with conflict := true }
  let service (s : Nat) : Nat := (w.call s).elim 0 (·.service)
  (w.notify (.platformConflict p slot (service slot) occupant (service occupant))).remakeDue slot

/-- R63: a transition into BOARDING or AT_PLATFORM tests the assigned platform. Without one nothing happens. -/
def tryPlatform (w : Vol) (nv : Nonvolatile) (slot : Nat) (h : HeldTransition) (stale : Bool) : Vol :=
  match (w.call slot).bind (·.platform) with
  | none => w.remakeDue slot
  | some p =>
    match (w.platform p).occupant with
    | none => w.enterPlatform nv slot p h stale
    | some o => w.holdCall slot p o h

/-- The calls held on a platform, earliest held-since first, then lowest slot (R64). -/
def heldOn (w : Vol) (p : Nat) : List Nat :=
  let since (s : Nat) : Nat := ((w.call s).bind (·.held)).elim 0 (·.2)
  sortBy (fun a b => decide (since a < since b) || (decide (since a = since b) && decide (a < b)))
    ((List.range 256).filter fun s =>
      match w.call s with
      | some c => c.held.isSome && decide (c.platform = some p)
      | none => false)

/-- R64: a freed platform is offered to the calls held on it. The held transition is completed without a test of its time, so a DEPART
call enters BOARDING though its boarding time, which had come at the hold, lies ahead again (log entry 55). -/
def offerPlatform (w : Vol) (nv : Nonvolatile) (p : Nat) : Vol :=
  match w.heldOn p with
  | [] => w
  | s :: rest =>
    match (w.call s).bind (·.held) with
    | some (h, _) =>
      let w := w.enterPlatform nv s p h false
      if rest = [] then w else w.modPlatform p fun x => { x with conflict := true }
    | none => w

/-- The platform a call occupies is freed; answers it, to be offered (R62, R77, R78). -/
def freePlatform (w : Vol) (slot : Nat) : Option Nat × Vol :=
  match (w.call slot).bind (·.platform) with
  | some p =>
    if (w.platform p).occupant = some slot then (some p, w.modPlatform p fun x => { x with occupant := none })
    else (none, w)
  | none => (none, w)

/-- R62, R69: a call enters GONE. The withdrawals come before any request of the event, so the platform is offered last
(log entry 18). -/
def enterGone (w : Vol) (nv : Nonvolatile) (slot : Nat) (stale : Bool) : Vol :=
  let w := w.modCall slot fun c => { c with state := .gone, gone := some w.clock.time }
  let (freed, w) := w.freePlatform slot
  let w := w.supersede nv slot none .superseded
  let w := w.endTransition nv slot none stale
  match freed with
  | some p => w.offerPlatform nv p
  | none => w

/-- R60, R69: a BOARDING call enters FINAL. -/
def enterFinal (w : Vol) (nv : Nonvolatile) (slot : Nat) (stale : Bool) : Vol :=
  let w := w.modCall slot fun c => { c with state := .final }
  let w := w.supersede nv slot (some .boarding) .superseded
  w.endTransition nv slot (some .final) stale

/-- R61: a PLANNED ARRIVE call enters APPROACHING. -/
def enterApproaching (w : Vol) (nv : Nonvolatile) (slot : Nat) (stale : Bool) : Vol :=
  let w := w.modCall slot fun c => { c with state := .approaching }
  w.endTransition nv slot (some .approach) stale

/-- R78: a call is removed. -/
def removeCall (w : Vol) (nv : Nonvolatile) (slot : Nat) : Vol :=
  match w.call slot with
  | none => w
  | some c =>
    let w := w.supersede nv slot none .withdrawn
    let w := w.modQueue fun q =>
      { q with requests := q.requests.map fun r =>
          match r.call with
          | some (s, _) => if s = slot then { r with call := none } else r
          | none => r }
    let w := w.dropDue slot
    let (freed, w) := w.freePlatform slot
    let w := w.modCall slot fun c => { c with held := none }
    let w := match freed with
      | some p => w.offerPlatform nv p
      | none => w
    (w.setCall slot none).notify (.callRemoved slot c.service)

/-- R79: a due entry is taken; it makes its call's transition or removal, with the stale test of R67. -/
def takeDue (w : Vol) (nv : Nonvolatile) (e : DueEntry) : Vol :=
  let stale := decide (e.time + Config.staleSeconds < w.clock.time)
  let w := w.dropDue e.slot
  match w.call e.slot with
  | none => w
  | some c =>
    match c.kind, c.state with
    | .depart, .planned => w.tryPlatform nv e.slot .boarding stale
    | .depart, .boarding => w.enterFinal nv e.slot stale
    | .depart, .final => w.enterGone nv e.slot stale
    | .arrive, .planned => w.enterApproaching nv e.slot stale
    | .arrive, .atPlatform => w.enterGone nv e.slot stale
    | _, .gone => w.removeCall nv e.slot
    | _, .cancelled => w.removeCall nv e.slot
    | .arrive, .approaching => w
    | .arrive, .boarding => w
    | .arrive, .final => w
    | .depart, .approaching => w
    | .depart, .atPlatform => w

/-- R80: the timetable takes due entries: the clock is SET and the mode NORMAL. -/
def takesDue (w : Vol) : Bool := w.clock.isSet && decide (w.mode = .normal)

/-- The earliest due entry that has come, among the calls of `p`. -/
def nextDue (w : Vol) (p : Nat → Bool) : Option DueEntry :=
  match w.due.find? fun e => p e.slot with
  | some e => if e.time ≤ w.clock.time then some e else none
  | none => none

/-- The walk of the due list over the calls of `p`, at most `fuel` entries. -/
def walkFuel (nv : Nonvolatile) (p : Nat → Bool) : Nat → Vol → Vol
  | 0, w => w
  | n + 1, w =>
    match w.nextDue p with
    | none => w
    | some e => walkFuel nv p n (w.takeDue nv e)

/-- R79: the walk. A call has at most five timed events, so 256 x 5 entries suffice. Each transition makes its withdrawals before
its own request, whatever the ones before it handed over (log entry 54). -/
def walkDue (w : Vol) (nv : Nonvolatile) (p : Nat → Bool) : Vol :=
  if w.takesDue then walkFuel nv p 1280 w else w

/-- R79: the walk of the whole list. -/
def walkAll (w : Vol) (nv : Nonvolatile) : Vol := w.walkDue nv fun _ => true

/-- R79: the test of a single call's entry after its load or update. -/
def walkOne (w : Vol) (nv : Nonvolatile) (slot : Nat) : Vol := w.walkDue nv fun s => decide (s = slot)

/-- R54: the block-mark count returns to 0, the station clock advances one second and the timetable walks the due
list. At its largest value the station time stays, and no advance is handed on. -/
def advanceSecond (w : Vol) (nv : Nonvolatile) : Vol :=
  if w.clock.time < Config.maxTime then
    ({ w with clock := { w.clock with time := w.clock.time + 1, marks := 0 } }).walkAll nv
  else { w with clock := { w.clock with marks := 0 } }

/-- R76: the call a TRAIN_PRESENT line marks: ARRIVE, APPROACHING, with the platform, not held; the earliest expected
time, then the lowest slot. -/
def arrivingCall (w : Vol) (p : Nat) : Option Nat :=
  let time (s : Nat) : Nat := (w.call s).elim 0 Call.expectedTime
  (sortBy (fun a b => decide (time a < time b) || (decide (time a = time b) && decide (a < b)))
    ((List.range 256).filter fun s =>
      match w.call s with
      | some c =>
        decide (c.kind = .arrive) && decide (c.state = .approaching) && decide (c.platform = some p) && c.held.isNone
      | none => false)).head?

/-- R76: the call a DOORS_CLOSED line closes: the platform's occupant, a DEPART call in FINAL. -/
def closingCall (w : Vol) (p : Nat) : Option Nat :=
  match (w.platform p).occupant with
  | none => none
  | some s =>
    match w.call s with
    | some c => if c.kind = .depart ∧ c.state = .final then some s else none
    | none => none

/-- R73: the VOICED requests of a call whose target is CALL_PLATFORM return to READY, in queue order (log entry 42), and the
hand-out runs. -/
def revoice (w : Vol) (nv : Nonvolatile) (slot : Nat) : Vol :=
  let hit (r : Request) : Bool :=
    (match r.call with
      | some (s, _) => decide (s = slot)
      | none => false)
    && (match r.state with
      | .voiced _ => true
      | _ => false)
    && r.override.isNone
    && decide ((r.template.bind w.template).map (·.target) = some .callPlatform)
  ((w.queue.requests.filter hit).foldl (fun w r => w.returnToReady r.number) w).handOut nv

/-- R72, R73: a trigger that leaves the call's state as it was sends its own notice (R70). -/
def fireAndNotify (w : Vol) (nv : Nonvolatile) (slot : Nat) (t : Trigger) : Vol :=
  let (made, w) := w.fireTrigger nv slot t false
  w.callNotice slot (some t) false made

/-- R72, R73: a platform update (log entry 17 for the order of its steps). A call that occupies its platform has no test of its
due entry (log entry 37). -/
def updatePlatform (w : Vol) (nv : Nonvolatile) (slot : Nat) (p : Option Nat) : Vol :=
  match w.call slot with
  | none => w
  | some c =>
    if c.platform = p then w
    else
      let changed := c.platform.isSome && p.isSome
      if c.state.occupies then
        -- the occupancy moves in one step
        let w := match c.platform with
          | some old => w.modPlatform old fun x => { x with occupant := none }
          | none => w
        let w := match p with
          | some new => w.modPlatform new fun x => { x with occupant := some slot }
          | none => w
        let w := (w.modCall slot fun c => { c with platform := p }).remakeDue slot
        let w := w.revoice nv slot
        let w := if changed then w.fireAndNotify nv slot .platformChange else w
        match c.platform with
        | some old => w.offerPlatform nv old
        | none => w
      else
        let w := (w.modCall slot fun c => { c with platform := p, held := none }).remakeDue slot
        let w := w.revoice nv slot
        let w := match c.held with
          | some (.atPlatform, _) => w.tryPlatform nv slot .atPlatform false
          | some (.boarding, _) => w.walkOne nv slot
          | none => w.walkOne nv slot
        if changed then w.fireAndNotify nv slot .platformChange else w

/-- R74: an expected-time update. -/
def updateExpected (w : Vol) (nv : Nonvolatile) (slot : Nat) (e : Option Nat) : Vol :=
  let w := ((w.modCall slot fun c => { c with expected := e }).remakeDue slot).walkOne nv slot
  match w.call slot with
  | none => w
  | some c =>
    let d := c.delay
    let threshold := (w.profile c.profile).delayThreshold
    if threshold ≤ d - c.delayRef ∨ threshold ≤ c.delayRef - d then
      (w.modCall slot fun c => { c with delayRef := d }).fireAndNotify nv slot .delay
    else w

end Vol

end Sys2Proof.Machine
end

