-- ==== Sys2Proof/Machine/Live.lean ====
section
/-! DEFINITION. The live source table (2.11): opening and closing sources, and what each block mark does to them. -/

namespace Sys2Proof.Machine

/-- Opened by the evacuation controller (R158). -/
def Opener.isEvac : Opener → Bool
  | .evacuation _ => true
  | .request => false
  | .line _ => false

/-- R38: the source has reached its talk limit when its talk time is `t`. -/
def LiveSource.expires (x : LiveSource) (t : Nat) : Bool := decide (x.limit ≠ 0) && decide (x.limit * 1000 ≤ t)

namespace Vol

/-- R35: a source opens on a CLOSED lane and places its JOIN claim; none when the group has no members. -/
def openSource (w : Vol) (lane : Nat) (opener : Opener) (group priority limit : Nat) : Option Vol :=
  match w.placeClaim (.live lane) group priority .join with
  | (none, _) => none
  | (some c, w) =>
    some (w.setSource lane (some
      { opener := opener, group := group, priority := priority, limit := limit, talkTime := 0, absence := 0,
        absenceReported := false, claim := c }))

/-- R35: a source closes: its claim is released, its record is CLOSED, LIVE END is sent. -/
def closeSource (w : Vol) (lane : Nat) (cause : LiveCause) : Vol :=
  match w.source lane with
  | none => w
  | some x => ((w.releaseClaim x.claim).setSource lane none).notify (.liveEnd lane x.opener cause)

/-- Every OPEN source that passes `p` closes, in lane order (R38). -/
def closeSources (w : Vol) (p : LiveSource → Bool) (cause : LiveCause) : Vol :=
  (List.range 32).foldl (fun w l =>
    match w.source l with
    | some x => if p x then w.closeSource l cause else w
    | none => w) w

/-- The evacuation source is open (9.1). -/
def evacSourceOpen (w : Vol) : Bool :=
  match w.evac.lane.bind w.source with
  | some x => x.opener.isEvac
  | none => false

/-- R36, R158: the evacuation source opens on the evacuation lane, closing another opener's source there. -/
def openEvacSource (w : Vol) (lane : Nat) (line : Option Nat) : Option Vol :=
  (w.closeSource lane .stopped).openSource lane (.evacuation line) 31 15 0

/-- R37: a TALK line goes active. A lane that is OPEN is answered LANE_BUSY before the group is looked at, and an empty group
RELEASED before a lost link is (log entry 23). -/
def talkPressed (w : Vol) (n lane group priority : Nat) : EdgeResult × Vol :=
  if (w.source lane).isSome then (.laneBusy, w)
  else if w.group group = [] then (.none, w.notify (.liveEnd lane (.line n) .released))
  else if !w.upLocked then (.none, w.notify (.liveEnd lane (.line n) .linkLost))
  else (.none, (w.openSource lane (.line n) group priority 0).getD w)

/-- R37: a TALK line goes inactive. -/
def talkReleased (w : Vol) (n lane : Nat) : Vol :=
  match w.source lane with
  | some x => if x.opener = .line n then w.closeSource lane .released else w
  | none => w

/-- R152, R158, R37: an EVAC_TALK line goes active. An empty group 31 is answered NOT_TAKEN before a lost link is looked at (log
entry 23). -/
def evacTalkPressed (w : Vol) (n : Nat) : EdgeResult × Vol :=
  match w.evac.lane with
  | none => (.notTaken, w)
  | some lane =>
    if w.evac.state = .normal ∨ w.evacSourceOpen = true ∨ w.group 31 = [] then (.notTaken, w)
    else if !w.upLocked then (.none, w.notify (.liveEnd lane (.evacuation (some n)) .linkLost))
    else (.none, (w.openEvacSource lane (some n)).getD w)

/-- R152: an EVAC_TALK line goes inactive. -/
def evacTalkReleased (w : Vol) (n : Nat) : Vol :=
  match w.evac.lane with
  | none => w
  | some lane =>
    match w.source lane with
    | some x => if x.opener = .evacuation (some n) then w.closeSource lane .released else w
    | none => w

/-- The lane's presence flag in the frame the alignment buffer has given out (R166). -/
def laneSeen (w : Vol) (lane : Nat) : Bool := w.align.out.presence.getLsbD lane

/-- R38: a block mark adds one to the talk time of an OPEN source, which closes at its limit. -/
def talkMark (w : Vol) (lane : Nat) : Vol :=
  match w.source lane with
  | none => w
  | some x =>
    let w := w.setSource lane (some { x with talkTime := x.talkTime + 1 })
    if x.expires (x.talkTime + 1) then w.closeSource lane .talkLimit else w

/-- R39: a block mark and the absence time of an OPEN source, the lane's presence flag given. -/
def absenceMark (w : Vol) (present : Bool) (lane : Nat) : Vol :=
  match w.source lane with
  | none => w
  | some x =>
    if present then w.setSource lane (some { x with absence := 0, absenceReported := false })
    else
      let a := min Config.absenceLimit (x.absence + 1)
      if a = Config.absenceLimit ∧ x.absenceReported = false then
        (w.setSource lane (some { x with absence := a, absenceReported := true })).notify (.laneAbsent lane)
      else w.setSource lane (some { x with absence := a })

end Vol

end Sys2Proof.Machine
end

