-- ==== Sys2Proof/Machine/Evac.lean ====
section
/-! DEFINITION. The evacuation controller (Chapter 9): the two stages, the return to NORMAL, voice 7's lists, and the
action of the evacuation lines. -/

namespace Sys2Proof.Machine

/-- The timer and the lines act at a block mark (R141, R154), the requests between two. -/
def EvacCause.atMark : EvacCause → Bool
  | .timer => true
  | .alertLine _ => true
  | .fullLine _ => true
  | .resetLine _ => true
  | .start => false
  | .escalate => false
  | .stop => false

namespace Vol

/-- R151: a line holds: some EVAC_ALERT or EVAC_FULL line is debounced ACTIVE. -/
def lineHolds (w : Vol) : Bool :=
  w.lines.toList.any fun l =>
    (decide (l.fn = .evac .alert) || decide (l.fn = .evac .full)) && decide (l.debounced = some true)

/-- R156: the row of the table for the store's state and the evacuation state, outside NORMAL. -/
def rowList (w : Vol) : EvacList :=
  if w.storeStarting then .standIn
  else match w.evac.state with
    | .evacuate => .evacuate
    | .alert => .alert
    | .normal => .alert

/-- R116, R156: voice 7 is given the list of the current stage as a change. One given at a block mark waits for the next. -/
def changeList (w : Vol) (marked : Bool) : Vol :=
  let w := w.modEvac fun e => { e with list := some w.rowList }
  w.modVoice 7 fun x => { x with newList := some w.listInForce, newListWaits := marked }

/-- R153, R156: the evacuation request is created and its list named. When group 31 has no members the request ends
within its creation and the controller is left holding none. -/
def makeEvacRequest (w : Vol) (nv : Nonvolatile) : Vol :=
  let w := w.modEvac fun e => { e with list := some w.rowList }
  let (made, w) := w.createRequest nv w.evacRequest
  match made with
  | some n =>
    match w.request n with
    | some _ => w.modEvac fun e => { e with request := some n }
    | none => w
  | none => w

/-- R150: a change of the evacuation state, with its notice. -/
def setEvac (w : Vol) (next : EvacState) (cause : EvacCause) : Vol :=
  (w.modEvac fun e => { e with state := next }).notify (.evacState w.evac.state next cause)

/-- R98, R155: every request of priority below 12 that is not PLAYING is removed, in queue order. -/
def suppressLow (w : Vol) (nv : Nonvolatile) : Vol :=
  ((w.queue.requests.filter fun r => decide (r.priority < 12) && !r.isPlaying).foldl
    (fun w r => w.removeRequest r.number .suppressed) w).handOut nv

/-- R155: EVACUATE is entered, from NORMAL or from ALERT. -/
def enterEvacuate (w : Vol) (nv : Nonvolatile) (cause : EvacCause) : Vol :=
  let fresh := decide (w.evac.state = .normal)
  let w := (w.setEvac .evacuate cause).suppressLow nv
  if fresh then w.makeEvacRequest nv
  else if w.evac.request.isSome ∧ w.evac.list ≠ some .standIn then w.changeList cause.atMark
  else w

/-- R153: ALERT is entered from NORMAL; an ALERT stage of duration 0 does not stand. -/
def enterAlert (w : Vol) (nv : Nonvolatile) (cause : EvacCause) : Vol :=
  if w.evac.duration = 0 then w.enterEvacuate nv cause
  else ((w.modEvac fun e => { e with timer := 0 }).setEvac .alert cause).makeEvacRequest nv

/-- R157: the return to NORMAL. -/
def returnNormal (w : Vol) (nv : Nonvolatile) (cause : EvacCause) : Vol :=
  let request := w.evac.request
  let w := w.setEvac .normal cause
  let w := match request with
    | some n => w.removeRequest n .cancelled
    | none => w
  let w := w.modEvac fun e => { e with request := none, list := none }
  let w := match w.evac.lane with
    | some lane => if w.evacSourceOpen then w.closeSource lane .stopped else w
    | none => w
  w.handOut nv

/-- R154: the alert timer takes a block mark, and at the alert duration enters EVACUATE. -/
def alertMark (w : Vol) (nv : Nonvolatile) : Vol :=
  if w.evac.state = .alert then
    let w := w.modEvac fun e => { e with timer := e.timer + 1 }
    if w.evac.duration * 1000 ≤ w.evac.timer then w.enterEvacuate nv .timer else w
  else w

/-- R156: the start-up scan completes while the list in force is the stand-in. -/
def scanDoneEvac (w : Vol) : Vol := if w.evac.list = some .standIn then w.changeList false else w

/-- R152: an evacuation line goes active at an edge. -/
def evacRise (w : Vol) (nv : Nonvolatile) (n : Nat) : EvacFn → EdgeResult × Vol
  | .alert => if w.evac.state = .normal then (.none, w.enterAlert nv (.alertLine n)) else (.notTaken, w)
  | .full => if w.evac.state = .evacuate then (.notTaken, w) else (.none, w.enterEvacuate nv (.fullLine n))
  | .reset =>
    if w.evac.state = .normal ∨ w.lineHolds = true then (.notTaken, w) else (.none, w.returnNormal nv (.resetLine n))
  | .talk => w.evacTalkPressed n

/-- R152: an evacuation line goes inactive at an edge. -/
def evacFall (w : Vol) (n : Nat) : EvacFn → Vol
  | .talk => w.evacTalkReleased n
  | .alert => w
  | .full => w
  | .reset => w

/-- R152: an evacuation line settles ACTIVE. -/
def evacSettle (w : Vol) (nv : Nonvolatile) (n : Nat) : EvacFn → Vol
  | .alert => (w.evacRise nv n .alert).2
  | .full => (w.evacRise nv n .full).2
  | .reset => w
  | .talk => w

end Vol

end Sys2Proof.Machine
end

