-- ==== Sys2Proof/Machine/Lines.lean ====
section
/-! DEFINITION. The contact line unit and the pattern generators (Chapter 8): readings, edges and settlings with the
action of the line's function, rewriting, output levels, generator steps. -/

namespace Sys2Proof

/-- R141: polarity turns a raw level into a reading; true is ACTIVE. -/
def Polarity.reading : Polarity → Bool → Bool
  | .activeHigh, raw => raw
  | .activeLow, raw => !raw

/-- R146: the level at a terminal that is driven ACTIVE or INACTIVE; true is HIGH. -/
def Polarity.level : Polarity → Bool → Bool
  | .activeHigh, active => active
  | .activeLow, active => !active

/-- R142: the edge report names this edge. -/
def EdgeReport.names : EdgeReport → Bool → Bool
  | .none, _ => false
  | .rising, up => up
  | .falling, up => !up
  | .both, _ => true

/-- The platform whose train-present level a function feeds (R11). -/
def LineFn.trainPlatform : LineFn → Option Nat
  | .trainPresent p => some p
  | _ => none

/-- R146: the level an OUTPUT line drives from its rewriting to the next block mark: its inactive level after invert. -/
def LineFn.restLevel : LineFn → Bool
  | .output _ _ invert _ => invert
  | _ => false

end Sys2Proof

namespace Sys2Proof.Machine

def Line.reading (x : Line) (raw : Bool) : Bool := x.polarity.reading raw

/-- R146: the level the line drives its terminal to, true HIGH, from its shown level and its polarity; none for an input
line, which does not drive it. -/
def Line.terminal (x : Line) : Option Bool := if x.fn.isOutput then some (x.polarity.level x.shown) else none

/-- R141, R143: the stand count after a block mark that reads `raw`. -/
def Line.nextStand (x : Line) (raw : Bool) : Nat :=
  let reading := x.reading raw
  match x.debounced with
  | some d => if reading = d then 0 else x.stand + 1
  | none => if reading = x.reading x.raw then x.stand + 1 else 1

/-- R141, R143: a block mark that reads `raw` changes the debounced level, or settles the line. -/
def Line.changes (x : Line) (raw : Bool) : Bool := decide (x.debounce + 1 ≤ x.nextStand raw)

/-- R147: the waveform is high at this phase. -/
def Generator.high (x : Generator) : Bool := decide (10 * x.r ≤ x.phase) && decide (x.phase < 10 * x.f)

/-- R147: the next step ends the period. -/
def Generator.ends (x : Generator) : Bool := x.started && decide (10 * x.p ≤ x.phase + 1)

/-- R147, R148: one step of a generator at a block mark. -/
def Generator.step (x : Generator) : Generator :=
  if !x.started then { x with started := true, phase := 0 }
  else if x.ends then
    match x.staged with
    | some (p, r, f) => { x with p := p, r := r, f := f, staged := none, phase := 0 }
    | none => { x with phase := 0 }
  else { x with phase := x.phase + 1 }

/-- R139: a write from `x` to a record with these fields is a rewrite: it changes the function, parameter, polarity or
debounce, other than the parameter of a line that is and stays OUTPUT. -/
def Line.rewritten (x : Line) (r : LineRecord) : Bool :=
  decide (x.polarity ≠ r.polarity) || decide (x.debounce ≠ r.debounce)
    || (decide (x.fn ≠ r.fn) && !(x.fn.isOutput && r.fn.isOutput))

namespace Vol

/-- R11: the train-present level of platform `p` as the lines that name it give it. -/
def trainLevel (w : Vol) (p : Nat) : Option Bool :=
  let named := w.lines.toList.filter fun l => decide (l.fn = .trainPresent p)
  if named = [] then none else some (named.any fun l => decide (l.debounced = some true))

def updateTrain (w : Vol) (p : Nat) : Vol := w.modPlatform p fun x => { x with trainPresent := w.trainLevel p }

/-- R97: a PLATFORM_WARN line goes active. -/
def warnPlatform (w : Vol) (nv : Nonvolatile) (p : Nat) : EdgeResult × Vol :=
  match (w.platform p).warning with
  | none => (.noTemplate, w)
  | some tn =>
    match w.template tn with
    | none => (.noTemplate, w)
    | some t => (.none, (w.createRequest nv { w.requestFrom t tn .contact with platform := some p, priority := 12 }).2)

/-- R76: a TRAIN_PRESENT line goes active. -/
def markTrain (w : Vol) (nv : Nonvolatile) (p : Nat) : EdgeResult × Vol :=
  match w.arrivingCall p with
  | some s => (.none, w.tryPlatform nv s .atPlatform false)
  | none => (.noCall, w)

/-- R76: a DOORS_CLOSED line goes active. -/
def closeDoors (w : Vol) (nv : Nonvolatile) (p : Nat) : Vol :=
  match w.closingCall p with
  | some s => w.enterGone nv s false
  | none => w

/-- R144: a RISING edge of line `n` acts on its function. -/
def riseAct (w : Vol) (nv : Nonvolatile) (n : Nat) : LineFn → EdgeResult × Vol
  | .plain => (.none, w)
  | .talk lane group priority => w.talkPressed n lane group priority
  | .trainPresent p => (w.updateTrain p).markTrain nv p
  | .doorsClosed p => (.none, w.closeDoors nv p)
  | .platformWarn p => w.warnPlatform nv p
  | .zoneFault z => (.none, w.zoneEvent nv z fun x => x.setExternal true)
  | .output _ _ _ _ => (.none, w)
  | .evac f => w.evacRise nv n f

/-- R144: a FALLING edge of line `n` acts on its function. -/
def fallAct (w : Vol) (nv : Nonvolatile) (n : Nat) : LineFn → Vol
  | .plain => w
  | .talk lane _ _ => w.talkReleased n lane
  | .trainPresent p => w.updateTrain p
  | .doorsClosed _ => w
  | .platformWarn _ => w
  | .zoneFault z => w.zoneEvent nv z fun x => x.setExternal false
  | .output _ _ _ _ => w
  | .evac f => w.evacFall n f

/-- R142: an edge of a settled line: the debounced level changes, the function acts, the edge is reported. -/
def takeEdge (w : Vol) (nv : Nonvolatile) (n : Nat) (rising : Bool) : Vol :=
  let x := w.line n
  let w := w.setLine n { x with debounced := some rising, stand := 0 }
  let (result, w) := if rising then w.riseAct nv n x.fn else (.none, w.fallAct nv n x.fn)
  if x.report.names rising then
    (w.modLine n fun y => { y with latch := true }).notify (.contactEdge n rising x.fn result)
  else if result ≠ .none then w.notify (.contactEdge n rising x.fn result)
  else w

/-- R143: a settling acts on the function by level. -/
def settleAct (w : Vol) (nv : Nonvolatile) (n : Nat) (active : Bool) : LineFn → Vol
  | .trainPresent p => w.updateTrain p
  | .zoneFault z => if active then w.zoneEvent nv z fun x => x.setExternal true else w
  | .evac f => if active then w.evacSettle nv n f else w
  | .plain => w
  | .talk _ _ _ => w
  | .doorsClosed _ => w
  | .platformWarn _ => w
  | .output _ _ _ _ => w

/-- R143: an unsettled line settles. -/
def takeSettling (w : Vol) (nv : Nonvolatile) (n : Nat) (active : Bool) : Vol :=
  let x := w.line n
  (w.setLine n { x with debounced := some active, stand := 0 }).settleAct nv n active x.fn

/-- R141, R143: a block mark reads an input line; the raw level of an OUTPUT line stands (log entry 40). -/
def sampleLine (w : Vol) (nv : Nonvolatile) (n : Nat) (raw : Bool) : Vol :=
  let x := w.line n
  if x.fn.isOutput then w
  else
    let reading := x.reading raw
    let w' := w.setLine n { x with raw := raw, stand := x.nextStand raw }
    if x.changes raw then
      match x.debounced with
      | some _ => w'.takeEdge nv n reading
      | none => w'.takeSettling nv n reading
    else w'

/-- R146: the condition an OUTPUT source names holds. -/
def sourceTrue (w : Vol) : OutSource → Bool
  | .zoneHeld z => decide ((w.zone z).state = .held)
  | .zoneFaulted z => decide ((w.zone z).state = .faulted)
  | .platformOccupied p => (w.platform p).occupant.isSome
  | .platformFinal p =>
    match (w.platform p).occupant.bind w.call with
    | some c => decide (c.state = .final)
    | none => false
  | .evacNotNormal => decide (w.evac.state ≠ .normal)
  | .alertRaised => w.engine.raised

/-- R146: the shown level of an OUTPUT line. -/
def outputLevel (w : Vol) (src : OutSource) (gen : Nat) (invert : Bool) (force : Force) : Bool :=
  let logical := match force with
    | .on => true
    | .off => false
    | .none => w.sourceTrue src && (w.gen gen).high
  logical != invert

/-- R146: a block mark computes an OUTPUT line's level. -/
def showLine (w : Vol) (n : Nat) : Vol :=
  match (w.line n).fn with
  | .output src gen invert force => w.modLine n fun x => { x with shown := w.outputLevel src gen invert force }
  | _ => w

def showLines (w : Vol) : Vol := (List.range 16).foldl showLine w

/-- R147. -/
def stepGen (w : Vol) (g : Nat) : Vol := w.setGen g (w.gen g).step

/-- R143: a rewrite: the release of the old function, the new fields, the line unsettled. -/
def rewriteLine (w : Vol) (nv : Nonvolatile) (r : LineRecord) : Vol :=
  let n := r.line
  let old := w.line n
  let w :=
    if old.debounced = some true then (w.modLine n fun x => { x with debounced := some false }).fallAct nv n old.fn else w
  let w := w.modLine n fun x =>
    { x with fn := r.fn, polarity := r.polarity, debounce := r.debounce, report := r.report, debounced := none, stand := 0,
             shown := r.fn.restLevel }
  let w := match old.fn.trainPlatform with
    | some p => w.updateTrain p
    | none => w
  match r.fn.trainPlatform with
  | some p => w.updateTrain p
  | none => w

/-- R139: a record that passes its checks is written. -/
def writeLine (w : Vol) (nv : Nonvolatile) (r : LineRecord) : Vol :=
  if (w.line r.line).rewritten r then w.rewriteLine nv r
  else w.modLine r.line fun x => { x with fn := r.fn, report := r.report }

end Vol

end Sys2Proof.Machine
end

