-- ==== Sys2Proof/Machine/Voices.lean ====
section
/-! DEFINITION. The voice pool (Chapter 6): what a block mark does to a voice, the sample it produces in a frame, and the
tone generator. -/

namespace Sys2Proof.Machine

/-! ### The tone generator (R111) -/

/-- Fixed point of the sine computation: 80 binary places, far finer than any tone value other than an exact tie comes to a
half. -/
def sineScale : Nat := 2 ^ 80

/-- Half of pi at 80 binary places. -/
def halfPi : Nat := 1898976236818169290393996

/-- The terms of the sine series from the term of degree `2 k + 1`, signs alternating. -/
def sineSeries (square : Nat) : Nat → Nat → Nat → Int
  | 0, _, _ => 0
  | fuel + 1, k, term =>
    (term : Int) - sineSeries square fuel (k + 1) (term * square / sineScale / ((2 * k + 2) * (2 * k + 3)))

/-- The sine of `num / den` of a quarter turn, at 80 binary places. -/
def quarterSine (num den : Nat) : Nat :=
  let y := halfPi * num / den
  (sineSeries (y * y / sineScale) 16 0 y).toNat

/-- `peak` times the sine of `num / den` of a quarter turn, rounded to the nearest whole value. The sine is one half at a
third of the quarter, the only place where a value can lie exactly between two (log entry 13). -/
def quarterTone (peak num den : Nat) (negative : Bool) : Nat :=
  if 3 * num = den then (if peak % 2 = 1 ∧ Config.toneTieAway negative = true then peak / 2 + 1 else peak / 2)
  else (2 * peak * quarterSine num den + sineScale) / (2 * sineScale)

/-- `peak` times the sine of `num / den` turns, rounded (R111). -/
def toneSine (peak num den : Nat) : Int :=
  let p := 4 * (num % den)
  let r := p % den
  match p / den with
  | 0 => quarterTone peak r den false
  | 1 => quarterTone peak (den - r) den false
  | 2 => -(quarterTone peak r den true : Int)
  | _ => -(quarterTone peak (den - r) den true : Int)

/-- R111: the value of a tone at position `f`, 48,000 frames to the second. -/
def toneValue (tone f : Nat) : Int :=
  match tone with
  | 0 =>
    let n := f % 48000
    if n < 19200 then toneSine 4194304 (784 * n) 48000
    else if n < 38400 then toneSine 4194304 (622 * (n - 19200)) 48000
    else 0
  | 1 =>
    let n := f % 24000
    if n < 12000 then toneSine 4194304 (1000 * n) 48000 else 0
  | 2 =>
    let n := f % 48000
    -- the integral of the frequency 500 + 700 t over t = n / 48,000 seconds, in turns
    toneSine 4194304 (500 * 48000 * n + 350 * n * n) (48000 * 48000)
  | _ => toneSine 838861 (1000 * f) 48000

/-! ### The place in the list -/

/-- The page of the frame the voice has reached, when that frame is of a CLIP fragment (R109). -/
def Voice.neededPage (x : Voice) : Option PageRef :=
  match x.frags[x.cur]? with
  | some (.clip c _) => some { frag := x.cur, clip := c, page := x.pos / 3 / Config.pageSamples }
  | some (.pause _) => none
  | some (.tone _ _) => none
  | none => none

/-- The page is at the head of the buffer, whose pages stand in playing order. -/
def Voice.hasPage (x : Voice) : Bool :=
  match x.neededPage, x.buffer with
  | none, _ => true
  | some r, q :: _ => decide (q.ref = r)
  | some _, [] => false

/-- R109: the position after one more frame, and whether the page at the head of the buffer is done with. -/
def Voice.advance (x : Voice) : Voice × Bool :=
  match x.frags[x.cur]? with
  | none => (x, false)
  | some fr =>
    let p := x.pos + 1
    if p < fr.frames then
      ({ x with pos := p }, fr.clip?.isSome && decide (p / 3 / Config.pageSamples ≠ x.pos / 3 / Config.pageSamples))
    else if x.cur + 1 < x.frags.length then ({ x with cur := x.cur + 1, pos := 0 }, fr.clip?.isSome)
    else ({ x with cur := x.cur + 1, pos := 0, finished := true }, fr.clip?.isSome)

/-- R115: voice 7's list begins again, and its read order with it. -/
def Voice.restart (x : Voice) : Voice := { x with cur := 0, pos := 0, nextRead := 0, finished := false }

/-- R109: the sample of the frame the voice has reached, its page at hand. -/
def Voice.sample (x : Voice) (nv : Nonvolatile) : Int :=
  match x.frags[x.cur]? with
  | some (.clip c _) =>
    match (nv.clip c).run, x.buffer with
    | some (bank, first, _), q :: _ => if q.readable then (nv.sample bank first (x.pos / 3)).toInt * 256 else 0
    | _, _ => 0
  | some (.pause _) => 0
  | some (.tone t _) => toneValue t x.pos
  | none => 0

namespace Vol

/-! ### A voice at a block mark -/

/-- R116: the list given as a change is taken. -/
def takeList (w : Vol) (nv : Nonvolatile) (v : Nat) : Vol :=
  let x := w.voice v
  match x.newList with
  | none => w
  | some items =>
    if x.state = .idle then w.setVoice v { x with newList := none }
    else
      let (fs, incomplete) := expandEvac nv items
      let w := match x.request with
        | some n => if incomplete then w.modRequest n fun r => { r with incomplete := true } else w
        | none => w
      let w := (w.withdrawDemand v).lowerUses x.frags
      let w := w.raiseUses fs
      let w := w.modVoice v fun y =>
        { y with state := if y.state = .cueing then .cueing else .playing, frags := fs, cur := 0, pos := 0, buffer := [],
                 nextRead := 0, finished := false, newList := none, newListWaits := false }
      w.makeDemand v

/-- The request of a playing voice is cancel pending (R114). -/
def cancelled (w : Vol) (v : Nat) : Bool :=
  let x := w.voice v
  (decide (x.state = .playing) || decide (x.state = .stalled))
    && (match x.request.bind w.request with
      | some r => r.cancelPending
      | none => false)

/-- R114: the voice stops and its request is removed with CANCELLED. -/
def stopCancelled (w : Vol) (nv : Nonvolatile) (v : Nat) : Vol :=
  match (w.voice v).request with
  | some n => (w.removeRequest n .cancelled).handOut nv
  | none => w

/-- The end of a voice's list is to be taken (R113); voice 7's list has none (R115). -/
def atEnd (w : Vol) (v : Nat) : Bool :=
  let x := w.voice v
  decide (x.state = .playing) && decide (x.source = some .template) && x.finished

/-- R113: the voice takes its end and the queue settles the request. -/
def takeEnd (w : Vol) (nv : Nonvolatile) (v : Nat) : Vol :=
  match (w.voice v).request with
  | some n => ((w.releaseVoice v).settleEnd n).handOut nv
  | none => (w.releaseVoice v).handOut nv

/-- The voice's claim is ACTIVE. -/
def claimActive (w : Vol) (v : Nat) : Bool :=
  match (w.voice v).claim.bind w.claim with
  | some c => decide (c.state = .active)
  | none => false

/-- R108: the voice can start. -/
def canStart (w : Vol) (v : Nat) : Bool :=
  let x := w.voice v
  decide (x.state = .cueing) && w.claimActive v && x.hasPage

/-- R108: the voice starts and its request becomes PLAYING. -/
def startVoice (w : Vol) (v : Nat) : Vol :=
  let x := w.voice v
  let w := w.setVoice v { x with state := .playing }
  match x.request with
  | some n => w.modRequest n fun r => { r with state := .playing v }
  | none => w

/-- R110: the voice can resume. -/
def canResume (w : Vol) (v : Nat) : Bool :=
  let x := w.voice v
  decide (x.state = .stalled) && x.hasPage

def resumeVoice (w : Vol) (v : Nat) : Vol := w.modVoice v fun x => { x with state := .playing }

/-- What a block mark does to a voice, a change of list apart: one of stop, end, start and resume. So a voice that stops or
ends here and is handed a request whose claim is ACTIVE at once and whose list needs no page starts at the next mark; the
rules do not say at which (log entry 43). -/
def voiceMark (w : Vol) (nv : Nonvolatile) (v : Nat) : Vol :=
  if w.cancelled v then w.stopCancelled nv v
  else if w.atEnd v then w.takeEnd nv v
  else if w.canStart v then w.startVoice v
  else if w.canResume v then w.resumeVoice v
  else w

/-! ### A voice in a frame -/

/-- R109, R110: a playing voice produces the sample of the frame it has reached, or stalls. -/
def playFrame (w : Vol) (nv : Nonvolatile) (v : Nat) : Int × Vol :=
  let x := w.voice v
  if !x.hasPage then (0, w.setVoice v { x with state := .stalled, stalls := satInc x.stalls })
  else
    let (y, done) := x.advance
    if done then (x.sample nv, (w.setVoice v { y with buffer := y.buffer.drop 1 }).makeDemand v)
    else (x.sample nv, w.setVoice v y)

/-- A voice in a frame. After the last frame of its list a voice produces no sample (R109), but voice 7 begins its list again
(R115). -/
def voiceFrame (w : Vol) (nv : Nonvolatile) (v : Nat) : Int × Vol :=
  let x := w.voice v
  if x.state ≠ .playing then (0, w)
  else if !x.finished then w.playFrame nv v
  else if x.source = some .evacuation then ((w.setVoice v x.restart).makeDemand v).playFrame nv v
  else (0, w)

/-- The eight voices of a frame, lowest number first. -/
def voiceFrames (w : Vol) (nv : Nonvolatile) : List Int × Vol :=
  (List.range 8).foldl (fun (a : List Int × Vol) v =>
    let (x, w) := a.2.voiceFrame nv v
    (a.1 ++ [x], w)) ([], w)

end Vol

end Sys2Proof.Machine
end

