-- ==== Sys2Proof/Machine/Mixer.lean ====
section
/-! DEFINITION. The mixer (Chapter 3): targets, ramps and the holder cut at a block mark; the attenuation of a sample, the
audio of a zone and its mixed output in a frame. -/

namespace Sys2Proof.Machine

/-! ### Attenuation (R40) -/

/-- `n` is at most `x` times 10 to the power `-a/40`, rounded with halves upward. -/
def attenuates (x a n : Nat) : Bool := decide ((2 * n - 1) ^ 40 * 10 ^ a ≤ (2 * x) ^ 40)

/-- The largest value below `2 ^ bits` above `acc` that passes, bit by bit. -/
def attenuateBits (x a : Nat) : Nat → Nat → Nat
  | 0, acc => acc
  | bits + 1, acc => attenuateBits x a bits (if attenuates x a (acc + 2 ^ bits) then acc + 2 ^ bits else acc)

/-- R40: a sample of absolute value `x` at attenuation `a`; 192 is mute. -/
def attenuateNat (x a : Nat) : Nat :=
  if x = 0 ∨ Config.mute ≤ a then 0 else if a = 0 then x else attenuateBits x a 24 0

/-- R40: halves are rounded away from zero. -/
def attenuate (x : Int) (a : Nat) : Int := if x < 0 then -(attenuateNat x.natAbs a : Int) else attenuateNat x.natAbs a

/-- R50: saturation to the 24-bit signed range. -/
def saturate (x : Int) : Int := if x < -8388608 then -8388608 else if 8388607 < x then 8388607 else x

/-! ### Targets (R41 to R43) -/

/-- R42. -/
def Zone.compensation (x : Zone) : Nat :=
  match x.compOn, x.ambient with
  | true, some d => min (d - x.compRef) x.compLimit
  | _, _ => 0

def Zone.derating (x : Zone) : Nat := if x.health = .derated then Config.derating else 0

/-- R47: a level moves toward its target by at most the ramp rate. -/
def ramp (rate level target : Nat) : Nat :=
  if level ≤ target then (if target - level ≤ rate then target else level + rate)
  else if level - target ≤ rate then target else level - rate

namespace Vol

/-- R41. -/
def fgTarget (w : Vol) (z : Nat) : Nat :=
  let x := w.zone z
  match x.holder.bind w.claim with
  | none => Config.mute
  | some c =>
    let base := if 14 ≤ c.priority then x.evacBase else x.fgBase
    min 191 (base + x.derating - x.compensation)

/-- R43: the background is mute. -/
def bgMuted (w : Vol) (z : Nat) : Bool :=
  let x := w.zone z
  match x.bgLane with
  | none => true
  | some l =>
    !w.laneSeen l || decide (x.state = .off)
      || ((w.group 31).contains z && decide (w.evac.state ≠ .normal))

/-- R43. -/
def bgTarget (w : Vol) (z : Nat) : Nat :=
  let x := w.zone z
  if w.bgMuted z then Config.mute
  else min 191 (x.bgBase + (if x.state = .held then x.duck else 0) + x.derating)

/-- R46: the staged bases of a zone become active. -/
def applyStaged (w : Vol) (z : Nat) : Vol :=
  let g := w.gain z
  let w := w.modZone z fun x => { x with fgBase := g.stagedFg.getD x.fgBase, bgBase := g.stagedBg.getD x.bgBase }
  w.setGain z { g with stagedFg := none, stagedBg := none }

/-- R41, R43, R47, R48: the targets and levels of a zone at a block mark. -/
def moveLevels (w : Vol) (z : Nat) : Vol :=
  let g := w.gain z
  let fg := w.fgTarget z
  let bg := w.bgTarget z
  let cuts := g.cut && (w.zone z).holder.isSome
  w.setGain z
    { g with fgTarget := fg, bgTarget := bg, cut := false,
             fgLevel := if cuts then Config.mute else ramp w.rampRate g.fgLevel fg,
             bgLevel := ramp w.rampRate g.bgLevel bg }

/-- The mixer's block mark: every staged base first, then the targets and levels (R46). -/
def mixerMark (w : Vol) : Vol :=
  let w := (List.range 64).foldl applyStaged w
  (List.range 64).foldl moveLevels w

/-- R166: a lane's audio in the frame given out; silence when absent. -/
def laneAudio (w : Vol) (lane : Nat) : Int :=
  if w.laneSeen lane then (tget 0 w.align.out.slots lane).toInt else 0

/-- R49: the foreground audio of a zone, the voices' samples of the frame given. -/
def fgAudio (w : Vol) (samples : List Int) (z : Nat) : Int :=
  match (w.zone z).holder.bind w.claim with
  | none => 0
  | some c =>
    match c.owner with
    | .voice v => samples.getD v 0
    | .live l => w.laneAudio l

/-- R49: the background audio of a zone. -/
def bgAudio (w : Vol) (z : Nat) : Int :=
  match (w.zone z).bgLane with
  | some l => w.laneAudio l
  | none => 0

/-- R50: the mixed output of a zone. -/
def mixZone (w : Vol) (samples : List Int) (z : Nat) : Int :=
  let g := w.gain z
  saturate (attenuate (w.fgAudio samples z) g.fgLevel + attenuate (w.bgAudio z) g.bgLevel)

/-- R50: the mixed outputs of the 64 zones. -/
def mixAll (w : Vol) (samples : List Int) : List Int := (List.range 64).map (w.mixZone samples)

/-- R50, R163: what a slot of a downstream frame carries: the mixed output of the zone placed there, or 0. -/
def slotAudio (w : Vol) (mixed : List Int) (p q : Nat) : Audio :=
  match (List.range 64).find? fun z => decide ((w.zone z).placement = some (p, q)) with
  | some z => BitVec.ofInt 24 (mixed.getD z 0)
  | none => 0

/-- R52: the monitor slot. -/
def monitorAudio (w : Vol) (mixed : List Int) : Audio :=
  match w.monitor with
  | some z => BitVec.ofInt 24 (mixed.getD z 0)
  | none => 0

end Vol

end Sys2Proof.Machine
end

