-- ==== Sys2Proof/Machine/Bytes.lean ====
section
/-! DEFINITION. The checks of Chapter 10 (header check, 16-bit check), the clip check (R128), and the coding of fields as
bytes (R174). -/

namespace Sys2Proof.Machine

/-! ### Fields as bytes (R174) -/

def byteOf (n : Nat) : Byte := BitVec.ofNat 8 n

/-- Two bytes, more significant first. -/
def two (n : Nat) : List Byte := [byteOf (n / 256), byteOf n]

/-- Four bytes, more significant first. -/
def four (n : Nat) : List Byte := two (n / 65536) ++ two n

/-- ON and set are 1, OFF and clear are 0. -/
def flag (x : Bool) : Byte := if x then 1 else 0

/-- A one-byte field that may be none. -/
def oneOr (x : Option Nat) : Byte := byteOf (x.getD 255)

/-- A two-byte field that may be none. -/
def twoOr (x : Option Nat) : List Byte := two (x.getD 65535)

/-- A one-byte field behind its presence byte: 2 with a value, 1 without. -/
def present1 (x : Option Nat) : List Byte :=
  match x with
  | some n => [2, byteOf n]
  | none => [1, 0xFF]

/-- A two-byte field behind its presence byte. -/
def present2 (x : Option Nat) : List Byte :=
  match x with
  | some n => 2 :: two n
  | none => 1 :: two 65535

/-- The value of bytes, more significant first. -/
def valueOf (bs : List Byte) : Nat := bs.foldl (fun n x => n * 256 + x.toNat) 0

/-! ### The 16-bit check (R165, R171) -/

/-- One bit step of the check with generator polynomial 1021. -/
def crc16Bit (c : Nat) : Nat := if c < 32768 then 2 * c else (2 * c - 65536) ^^^ 0x1021

def crc16Step (c : Nat) (x : Byte) : Nat :=
  crc16Bit (crc16Bit (crc16Bit (crc16Bit (crc16Bit (crc16Bit (crc16Bit (crc16Bit (c ^^^ (x.toNat * 256)))))))))

/-- Starting value FFFF, most significant bit first, no final inversion. -/
def crc16 (bs : List Byte) : Nat := bs.foldl crc16Step 0xFFFF

/-! ### The clip check (R128) -/

/-- One bit step of the reflected check with generator polynomial 04C11DB7. -/
def crc32Bit (c : Nat) : Nat := if c % 2 = 1 then (c / 2) ^^^ 0xEDB88320 else c / 2

def crc32Step (c : Nat) (x : Byte) : Nat :=
  crc32Bit (crc32Bit (crc32Bit (crc32Bit (crc32Bit (crc32Bit (crc32Bit (crc32Bit (c ^^^ x.toNat))))))))

/-- Starting value all ones, least significant bit first, the result inverted in every bit. -/
def crc32 (bs : List Byte) : BitVec 32 := BitVec.ofNat 32 (bs.foldl crc32Step 0xFFFFFFFF ^^^ 0xFFFFFFFF)

/-! ### The header check (R165) -/

/-- The covered bits with their numbers 3, 5, 6, 7, 9, ..., from number `n` on, skipping every power of two. -/
def numberBits : Nat → List Bool → List (Nat × Bool)
  | _, [] => []
  | n, x :: t =>
    let m := if n = 4 ∨ n = 8 ∨ n = 16 ∨ n = 32 then n + 1 else n
    (m, x) :: numberBits (m + 1) t

/-- Check bit `k` of the covered bits, 0 to 5: the parity of those whose number has bit `k` set. -/
def checkBit (covered : List Bool) (k : Nat) : Bool :=
  (numberBits 3 covered).foldl (fun p e => if e.1.testBit k then p != e.2 else p) false

def parity (bits : List Bool) : Bool := bits.foldl (fun p x => p != x) false

/-- Check bit 6: the parity of the covered bits and of check bits 0 to 5. -/
def checkSix (covered low : List Bool) : Bool := parity covered != parity low

/-- The check bits 0 to 5, bit 0 first. -/
def lowChecks (covered : List Bool) : List Bool := (List.range 6).map (checkBit covered)

/-- The value of bits, least significant first. -/
def bitsValue : List Bool → Nat
  | [] => 0
  | x :: t => (if x then 1 else 0) + 2 * bitsValue t

/-- The header check of the covered bits; bit 7 is 0. -/
def headerCheck (covered : List Bool) : BitVec 8 :=
  let low := lowChecks covered
  BitVec.ofNat 8 (bitsValue (low ++ [checkSix covered low]))

/-- Invert the covered bit of number `m`, if there is one. -/
def flipNumber (covered : List Bool) (m : Nat) : List Bool :=
  (numberBits 3 covered).map fun e => if e.1 = m then !e.2 else e.2

/-- What decoding a header finds (R165). -/
inductive HeaderResult where
  | good
  | corrected (covered : List Bool)
  | uncorrectable
  deriving DecidableEq, Repr

/-- R165, step 1. -/
def decodeHeader (covered : List Bool) (check : BitVec 8) : HeaderResult :=
  let got := (List.range 6).map fun k => check.getLsbD k
  let number := bitsValue ((lowChecks covered).zipWith (· != ·) got)
  let six := checkSix covered got != check.getLsbD 6
  if number = 0 ∧ six = false then .good
  else if six = true ∧ (number = 0 ∨ number = 1 ∨ number = 2 ∨ number = 4 ∨ number = 8 ∨ number = 16 ∨ number = 32
      ∨ (numberBits 3 covered).any (fun e => decide (e.1 = number)) = true) then
    .corrected (flipNumber covered number)
  else .uncorrectable

/-- The bits of a number, most significant of `w` first. -/
def msbBits (w n : Nat) : List Bool := (List.range w).map fun i => n.testBit (w - 1 - i)

/-- The covered bits of a header without presence: index, message-valid flag, spare (R162). -/
def headBits (index : Nat) (valid spare : Bool) : List Bool := msbBits 6 index ++ [valid, spare]

/-- The lane presence field as sent, lane 0 first (R162). -/
def presenceBits (p : BitVec 32) : List Bool := (List.range 32).map fun i => p.getLsbD i

/-- A header read back from covered bits. -/
def readIndexBits (covered : List Bool) : Nat := bitsValue (covered.take 6).reverse

def readPresence (covered : List Bool) : BitVec 32 := BitVec.ofNat 32 (bitsValue (covered.drop 8))

/-- A 24-bit slot as bytes (R162). -/
def slotBytes (x : Audio) : List Byte := [byteOf (x.toNat / 65536), byteOf (x.toNat / 256), byteOf x.toNat]

/-- The slot check of a frame with these slots and this message byte (R165). -/
def slotCheck (slots : List Audio) (byte : Byte) : BitVec 16 := BitVec.ofNat 16 (crc16 (slots.flatMap slotBytes ++ [byte]))

end Sys2Proof.Machine
end

