-- ==== Sys2Proof/Machine/Programme.lean ====
section
/-! DEFINITION. The programme check (7.9, R135): the clip check over the fields of the resident programme, its computation
and its comparison with the check that is stored. -/

namespace Sys2Proof.Machine

/-- A placement: its port and its slot, all ones for none. -/
def placementBytes (x : Option (Nat × Nat)) : List Byte := [oneOr (x.map (·.1)), oneOr (x.map (·.2))]

/-- A fragment of a list of the programme, in the layout of a TEMPLATE item (R174, R179). -/
def listItemBytes : ListItem → List Byte
  | .clip c => [0] ++ two c ++ [0xFF]
  | .tone t n => [3] ++ two n ++ [byteOf t]

def fragmentsBytes (l : List ListItem) : List Byte := byteOf l.length :: l.flatMap listItemBytes

/-- The place of an evacuation function in the function table of 8.1. -/
def evacFnCode : EvacFn → Nat
  | .alert => 7
  | .full => 8
  | .talk => 9
  | .reset => 10

/-- An evacuation line: function, polarity, debounce (R174). -/
def evacLineBytes : Option EvacLine → List Byte
  | some x => [byteOf (evacFnCode x.fn), if x.polarity = .activeHigh then 0 else 1, byteOf x.debounce]
  | none => [0xFF, 0xFF, 0xFF]

/-- The bytes the programme check covers: all other fields in the order of the table of 7.9, coded as R174 codes them in
messages. The layout is the model's choice (log entry 10). -/
def Programme.bytes (p : Programme) : List Byte :=
  p.placements.toList.flatMap placementBytes ++ p.enabled.toList.map flag ++ p.evacBases.toList.map byteOf
    ++ (byteOf p.group.length :: p.group.map byteOf) ++ [oneOr p.lane]
    ++ fragmentsBytes p.alertList ++ fragmentsBytes p.evacList ++ two p.duration
    ++ p.lines.toList.flatMap evacLineBytes

/-- 7.9: the clip check of R128 over all other fields. -/
def Programme.check (p : Programme) : BitVec 32 := crc32 p.bytes

/-- R135: the computed check matches the one that is stored. -/
def Nonvolatile.programmeMatches (nv : Nonvolatile) : Bool := decide (nv.programme.check = nv.programmeCheck)

/-- R136: a record being written fails its check: the stored check is one that does not match (log entry 10). -/
def Nonvolatile.spoilProgramme (nv : Nonvolatile) : Nonvolatile :=
  { nv with opMark := .programme, programmeCheck := ~~~ nv.programme.check }

/-- R136: the record is stored with its new programme check; the operation mark returns to none. -/
def Nonvolatile.storeProgramme (nv : Nonvolatile) (p : Programme) : Nonvolatile :=
  { nv with programme := p, programmeCheck := p.check, opMark := .none }

/-- R135: the values that the blocks load: the stored ones, or those of an INVALID programme. -/
def Nonvolatile.loaded (nv : Nonvolatile) (valid : Bool) : Programme := if valid then nv.programme else .empty

end Sys2Proof.Machine
end

