-- ==== Sys2Proof/Machine/Store.lean ====
section
/-! DEFINITION. The clip store controller (Chapter 7): its ten requests, the ends of its operations and reads, the start-up
scan. -/

namespace Sys2Proof.Machine

/-- What the owner of a request answers: the result code and the fields of the reply. -/
structure Answer where
  code : ResultCode
  body : ReplyBody

/-- What a request does: its answer and the state after it. -/
abbrev Act := State → Answer × State

def Answer.of (c : ResultCode) : Answer := { code := c, body := .none }

/-- An answer that changes nothing. -/
def refuse (c : ResultCode) (s : State) : Answer × State := (.of c, s)

/-- Answer OK with a changed volatile state. -/
def okVol (s : State) (w : Vol) : Answer × State := (.of .ok, { s with vol := w })

/-! ### The directory and the pages -/

/-- The run of an entry meets the pages from `lo` to `lo + n - 1` of a bank. -/
def ClipEntry.meets (e : ClipEntry) (bank : ClipBank) (lo n : Nat) : Bool :=
  match e.run with
  | some (b', first, count) => decide (b' = bank) && decide (first < lo + n) && decide (lo < first + count)
  | none => false

/-- A page is free: ERASED, and in the run of no WRITING clip (R126). -/
def Nonvolatile.free (nv : Nonvolatile) (bank : ClipBank) (p : Nat) : Bool :=
  decide (nv.page bank p = .erased) && nv.dir.all fun e => !(decide (e.2.state = .writing) && e.2.meets bank p 1)

/-- All `n` pages from `p` on are free, within the bank (R126). -/
def Nonvolatile.fits (nv : Nonvolatile) (bank : ClipBank) (n p : Nat) : Bool :=
  decide (p + n ≤ bankPages bank) && (List.range n).all fun i => nv.free bank (p + i)

/-- R126: the first start page, from the fill point upward and then from page 0. -/
def Nonvolatile.allocate (nv : Nonvolatile) (bank : ClipBank) (fill n : Nat) : Option Nat :=
  ((List.range (bankPages bank - fill)).map (fill + ·) ++ List.range fill).find? (nv.fits bank n)

/-- One past the last page of a bank that is not ERASED, or 0 (R137, step 4). -/
def Nonvolatile.fillAfter (nv : Nonvolatile) (bank : ClipBank) : Nat :=
  let lo := pageIndex bank 0
  let last := nv.pages.foldl (fun m e => if lo ≤ e.1 ∧ e.1 < lo + bankPages bank then max m (e.1 - lo + 1) else m) 0
  if bankPages bank ≤ last then 0 else last

/-- R131: the RETIRED clips with a page in the sector become ABSENT. -/
def Nonvolatile.dropRetired (nv : Nonvolatile) (bank : ClipBank) (sector : Nat) : Nonvolatile :=
  { nv with dir := nv.dir.filter fun e => !(decide (e.2.state = .retired) && e.2.meets bank (64 * sector) 64) }

/-- R137, step 3: every WRITING clip becomes RETIRED. -/
def Nonvolatile.retireWriting (nv : Nonvolatile) : Nonvolatile :=
  { nv with dir := nv.dir.map fun e => if e.2.state = .writing then (e.1, { e.2 with state := .retired }) else e }

def Nonvolatile.writingCount (nv : Nonvolatile) : Nat := (nv.dir.filter fun e => decide (e.2.state = .writing)).length

/-- The bytes the clip check covers: the first `2 * length` of the clip (R128). -/
def Nonvolatile.clipBytes (nv : Nonvolatile) (bank : ClipBank) (first length : Nat) : List Byte :=
  (List.range (2 * length)).map fun i => Memory.read nv.mem (pageIndex bank first * Config.pageBytes + i)

/-- R137, step 2: the pages an operation mark makes DIRTY, and how many. -/
def Nonvolatile.dirtyMarked (nv : Nonvolatile) : Nat × Nonvolatile :=
  match nv.opMark with
  | .none => (0, nv)
  | .page bank p => (1, { nv.setPage bank p .dirty with opMark := .none })
  | .sector bank s => (64, { nv.setSector bank s .dirty with opMark := .none })
  | .programme => (0, { nv with opMark := .none })

namespace Vol

def storeInFlight (w : Vol) : Bool :=
  match w.store.op with
  | .programming _ _ _ _ _ => true
  | .erasing _ _ _ => true
  | .verifying _ _ _ _ _ => true
  | .programWrite _ _ => true
  | .starting _ => false
  | .ready => false

/-- The clip that is the subject of the operation in flight (R120). -/
def storeClip (w : Vol) : Option Nat :=
  match w.store.op with
  | .programming c _ _ _ _ => some c
  | .verifying c _ _ _ _ => some c
  | _ => none

def setOp (w : Vol) (op : StoreOp) : Vol := w.modStore fun c => { c with op := op }

/-- R120: the arms are cleared. -/
def clearArms (w : Vol) : Vol := w.modStore fun c => { c with eraseArm := none, abortArm := false }

def fill (w : Vol) : ClipBank → Nat
  | .r => w.store.fillR
  | .a => w.store.fillA
  | .b => w.store.fillB

def setFill (w : Vol) (bank : ClipBank) (p : Nat) : Vol :=
  w.modStore fun c =>
    match bank with
    | .r => { c with fillR := p }
    | .a => { c with fillA := p }
    | .b => { c with fillB := p }

end Vol

namespace State

/-- Bank R and the programme can be written: MAINTENANCE mode and both guard marks clear (R133, R134). -/
def unguarded (s : State) : Bool := decide (s.vol.mode = .maintenance) && !s.nv.g1 && !s.nv.g2

/-- The guard test of the requests that write a bank. -/
def bankOpen (s : State) (bank : ClipBank) : Bool := decide (bank ≠ .r) || s.unguarded

/-- The bank of a clip that has one is open to writing. -/
def clipOpen (s : State) (c : Nat) : Bool :=
  match (s.nv.clip c).run with
  | some (bank, _, _) => s.bankOpen bank
  | none => true

def notify (s : State) (n : Notice) : State := { s with vol := s.vol.notify n }

end State

/-! ### The requests -/

/-- The checks of R120 and R121 before a request's own rule: range; evacuation; STARTING; an operation in flight. The own
rule is given the arms as they stood. A request that fails its range check leaves both arms. -/
def storeRequest (inRange evacTest exclusive : Bool) (retires : Option Nat) (own : StoreCtl → Act) : Act := fun s =>
  if !inRange then refuse .badArg s
  else
    let old := s.vol.store
    let s := { s with vol := s.vol.clearArms }
    if evacTest ∧ s.vol.evac.state ≠ .normal then refuse .evacActive s
    else if s.vol.storeStarting then refuse .busy s
    else if exclusive ∧ s.vol.storeInFlight = true then refuse .busy s
    else if retires.isSome ∧ s.vol.storeClip = retires then refuse .busy s
    else own old s

/-- R125, R126. -/
def actClipOpen (c : Nat) (bank : ClipBank) (n : Nat) : Act :=
  storeRequest (decide (c < 1024) && within 1 256 n) true true none fun _ s =>
    if (s.nv.clip c).state ≠ .absent then refuse .wrongState s
    else if !s.bankOpen bank then refuse .guarded s
    else match s.nv.allocate bank (s.vol.fill bank) n with
      | none => refuse .noRoom s
      | some p =>
        let next := if bankPages bank ≤ p + n then 0 else p + n
        ({ code := .ok, body := .firstPage p },
          { s with
            nv := s.nv.setClip c { state := .writing, run := some (bank, p, n), written := 0, length := none }
            vol := s.vol.setFill bank next })

/-- R127. -/
def actPageWrite (c i : Nat) (data : List Byte) : Act :=
  storeRequest (decide (c < 1024) && decide (i < 256) && decide (data.length = 4096)) true true none fun _ s =>
    let e := s.nv.clip c
    if e.state ≠ .writing then refuse .wrongState s
    else if !s.clipOpen c then refuse .guarded s
    else if i ≠ e.written then refuse .badArg s
    else match e.run with
      | none => refuse .wrongState s
      | some (bank, first, n) =>
        if n ≤ i ∨ s.nv.page bank (first + i) ≠ .erased then refuse .wrongState s
        else
          (.of .accepted,
            { s with
              nv := { s.nv with opMark := .page bank (first + i) }
              vol := s.vol.setOp (.programming c bank (first + i) data 0) })

/-- R128. -/
def actClipSeal (c length : Nat) (check : BitVec 32) : Act :=
  storeRequest (decide (c < 1024)) true true none fun _ s =>
    let e := s.nv.clip c
    match e.run with
    | none => refuse .wrongState s
    | some (_, _, n) =>
      if e.state ≠ .writing ∨ e.written ≠ n then refuse .wrongState s
      else if n * Config.pageSamples < length then refuse .badArg s
      else if !s.clipOpen c then refuse .guarded s
      else (.of .accepted, { s with vol := s.vol.setOp (.verifying c length check 0 false) })

/-- R129. -/
def actClipRetire (c : Nat) : Act :=
  storeRequest (decide (c < 1024)) true false (some c) fun _ s =>
    let e := s.nv.clip c
    if e.state = .absent then refuse .notFound s
    else if e.state = .retired then refuse .wrongState s
    else if !s.clipOpen c then refuse .guarded s
    else (.of .ok, { s with nv := s.nv.setClip c { e with state := .retired } })

/-- R130: SECTOR ERASE ARM. -/
def actEraseArm (bank : ClipBank) (sector : Nat) : Act :=
  storeRequest (sectorInRange bank sector) true false none fun _ s =>
    if !s.bankOpen bank then refuse .guarded s
    else okVol s (s.vol.modStore fun c => { c with eraseArm := some (bank, sector) })

/-- R130: some clip with a page in the sector is still wanted. -/
def State.sectorWanted (s : State) (bank : ClipBank) (sector : Nat) : Bool :=
  s.nv.dir.any fun e =>
    e.2.meets bank (64 * sector) 64
      && (decide (e.2.state = .valid) || decide (e.2.state = .writing) || decide (0 < Sparse.get 0 s.vol.store.uses e.1))

/-- R130: SECTOR ERASE GO takes the erase arm. -/
def Vol.takeEraseArm (w : Vol) : Vol := w.modStore fun c => { c with eraseArm := none }

/-- R130: a SECTOR ERASE GO that fails its range check. It takes the erase arm whatever the reply; the abort arm stands
(R120). -/
def eraseGoOutOfRange : Act := fun s => refuse .badArg { s with vol := s.vol.takeEraseArm }

/-- R130: SECTOR ERASE GO. -/
def actEraseGo (bank : ClipBank) (sector : Nat) : Act := fun s =>
  if !sectorInRange bank sector then eraseGoOutOfRange s
  else storeRequest true true true none (fun old s =>
    if old.eraseArm ≠ some (bank, sector) then refuse .wrongState s
    else if !s.bankOpen bank then refuse .guarded s
    else if s.sectorWanted bank sector then refuse .inUse s
    else
      (.of .accepted,
        { s with nv := { s.nv with opMark := .sector bank sector }, vol := s.vol.setOp (.erasing bank sector 0) })) s

/-- A verify that stops leaves the read in progress to be discarded: the read runs to its end, holds the read path until then
and is counted by R124, as one whose voice withdrew its demand (R122). The spec gives this for voices alone (log entry 48). -/
def Vol.dropVerifyRead (w : Vol) : Vol :=
  w.modStore fun c =>
    match c.read with
    | some r => if r.user = .verify then { c with read := some { r with user := .discarded } } else c
    | none => c

/-- R132: the second of two consecutive STORE ABORT requests. -/
def abortOperation (s : State) : Answer × State :=
  match s.vol.store.op with
  | .programming c bank p _ _ =>
    let s : State :=
      { s with nv := { s.nv.setPage bank p .dirty with opMark := .none }, vol := s.vol.setOp .ready }
    (.of .ok, s.notify (.storeDone (.page c true (s.nv.clip c).written)))
  | .erasing bank sector _ =>
    let s : State :=
      { s with nv := { s.nv.setSector bank sector .dirty with opMark := .none }, vol := s.vol.setOp .ready }
    (.of .ok, s.notify (.storeDone (.erase bank sector true)))
  | .verifying c _ _ _ _ =>
    let s : State := { s with vol := s.vol.dropVerifyRead.setOp .ready }
    (.of .ok, s.notify (.storeDone (.seal c true false (s.nv.clip c).written)))
  | .programWrite _ _ => refuse .wrongState s
  | .starting _ => refuse .ok s
  | .ready => refuse .ok s

/-- R132. -/
def actStoreAbort : Act :=
  storeRequest true false false none fun old s =>
    if old.abortArm then abortOperation s else okVol s (s.vol.modStore fun c => { c with abortArm := true })

/-- Set or clear a guard mark. -/
def Nonvolatile.setGuard (nv : Nonvolatile) (m : GuardMark) (x : Bool) : Nonvolatile :=
  match m with
  | .g1 => { nv with g1 := x }
  | .g2 => { nv with g2 := x }

/-- R133: GUARD SET. -/
def actGuardSet (m : GuardMark) : Act :=
  storeRequest true false false none fun _ s => (.of .ok, { s with nv := s.nv.setGuard m true })

/-- R133: GUARD CLEAR. -/
def actGuardClear (m : GuardMark) : Act :=
  storeRequest true true false none fun _ s =>
    if s.vol.mode = .normal then refuse .guarded s else (.of .ok, { s with nv := s.nv.setGuard m false })

/-- R136: the clip of a list item is VALID in bank R. -/
def Nonvolatile.residentClip (nv : Nonvolatile) : ListItem → Bool
  | .clip c => decide ((nv.clip c).state = .valid) && decide ((nv.clip c).run.map (·.1) = some .r)
  | .tone _ _ => true

/-- R136: the record that a PROGRAM WRITE stores. -/
def Vol.programmeOf (w : Vol) (p : ProgramFields) : Programme :=
  { placements := w.zones.map (·.placement), enabled := p.enabled, evacBases := w.zones.map (·.evacBase),
    group := w.group 31, lane := p.lane, alertList := p.alertList, evacList := p.evacList, duration := p.duration,
    lines := p.lines }

/-- R136. A clip of its lists that is not VALID in bank R fails the range check of R120 (log entry 39). -/
def actProgramWrite (p : ProgramFields) : Act := fun s =>
  storeRequest (p.inRange && p.alertList.all s.nv.residentClip && p.evacList.all s.nv.residentClip) true true none
    (fun _ s =>
      if !s.unguarded then refuse .guarded s
      else
        (.of .accepted,
          { s with
            nv := s.nv.spoilProgramme
            vol := s.vol.modStore fun c =>
              { c with op := .programWrite (s.vol.programmeOf p) 0, programmeValid := false } })) s

/-! ### Reads -/

namespace Vol

/-- R107: a page is delivered to the voice that demands it. An unreadable one is counted then, not when it is played (log entry
52). -/
def deliver (w : Vol) (v : Nat) (readable : Bool) : Vol :=
  let x := w.voice v
  match x.demand with
  | none => w
  | some r =>
    (w.setVoice v
      { x with buffer := x.buffer ++ [{ ref := r, readable := readable }], demand := none,
               damaged := if readable then x.damaged else satInc x.damaged }).makeDemand v

/-- R124: what the page code finds is counted; an unreadable page marks its clip, with a notice the first time. -/
def countRead (w : Vol) (r : ReadOp) (v : ReadVerdict) (readable : Bool) : Vol :=
  if readable then
    if v = .corrected then w.modStore fun c => { c with corrected := satInc c.corrected } else w
  else
    let w := w.modStore fun c => { c with uncorrectable := satInc c.uncorrectable }
    if w.store.damagedMarks.contains r.clip then w
    else
      (w.modStore fun c => { c with damagedMarks := insertBy (fun a e => decide (a < e)) r.clip c.damagedMarks }).notify
        (.clipDamaged r.clip r.page)

/-- The verify takes a page that has been read (R128). -/
def verifyTakes (w : Vol) (readable : Bool) : Vol :=
  match w.store.op with
  | .verifying c n k next spoiled => w.setOp (.verifying c n k (next + 1) (spoiled || !readable))
  | _ => w

end Vol

/-- R128: the verify has read its last page: the check is compared. -/
def endVerify (s : State) : State :=
  match s.vol.store.op with
  | .verifying c length check next spoiled =>
    let e := s.nv.clip c
    match e.run with
    | none => s
    | some (bank, first, n) =>
      if next < n then s
      else if spoiled = false ∧ crc32 (s.nv.clipBytes bank first length) = check then
        let s : State :=
          { s with nv := s.nv.setClip c { e with state := .valid, length := some length }, vol := s.vol.setOp .ready }
        s.notify (.storeDone (.seal c false false e.written))
      else
        let s : State := { s with vol := (s.vol.setOp .ready).modStore fun k => { k with checkFail := true } }
        s.notify (.storeDone (.seal c false true e.written))
  | _ => s

/-- R107, R122, R124: the read in progress completes. -/
def completeRead (s : State) (v : ReadVerdict) : State :=
  match s.vol.store.read with
  | none => s
  | some r =>
    let readable := decide (s.nv.page r.bank r.page = .written) && decide (v ≠ .unreadable)
    let w := (s.vol.modStore fun c => { c with read := none }).countRead r v readable
    match r.user with
    | .voice n => { s with vol := w.deliver n readable }
    | .verify => endVerify { s with vol := w.verifyTakes readable }
    | .discarded => { s with vol := w }

/-- The read has lasted 1 ms (R122). -/
def Vol.readDue (w : Vol) : Bool :=
  match w.store.read with
  | some r => decide (Config.framesPerMs ≤ r.elapsed)
  | none => false

/-- The read in progress is the verify's last. -/
def State.lastVerifyRead (s : State) : Bool :=
  match s.vol.store.op, s.vol.store.read with
  | .verifying c _ _ next _, some r =>
    decide (r.user = .verify)
      && (match (s.nv.clip c).run with
        | some (_, _, n) => decide (n ≤ next + 1)
        | none => false)
  | _, _ => false

/-! ### The ends of the operations -/

/-- R127: the programming completes. -/
def endProgramming (s : State) : State :=
  match s.vol.store.op with
  | .programming c bank p data _ =>
    let nv := s.nv.setPage bank p .written
    let e := nv.clip c
    let nv := { nv with mem := Memory.writePage nv.mem bank p data, opMark := .none }
    let s : State := { s with nv := nv.setClip c { e with written := e.written + 1 }, vol := s.vol.setOp .ready }
    s.notify (.storeDone (.page c false (e.written + 1)))
  | _ => s

/-- R131: the erase completes. -/
def endErase (s : State) : State :=
  match s.vol.store.op with
  | .erasing bank sector _ =>
    let nv := (s.nv.setSector bank sector .erased).dropRetired bank sector
    let nv := { nv with mem := Memory.eraseSector nv.mem bank sector, opMark := .none }
    let s : State := { s with nv := nv, vol := s.vol.setOp .ready }
    s.notify (.storeDone (.erase bank sector false))
  | _ => s

/-- R136: the record and its check are stored, the programme state is VALID, the operation mark is none and the store is
READY. -/
def storeProgramme (s : State) : State :=
  match s.vol.store.op with
  | .programWrite p _ =>
    { s with nv := s.nv.storeProgramme p, vol := s.vol.modStore fun c => { c with op := .ready, programmeValid := true } }
  | _ => s

/-- R136: the programme write completes. -/
def endProgramWrite (s : State) : State :=
  match s.vol.store.op with
  | .programWrite _ _ => (storeProgramme s).notify (.storeDone .programme)
  | _ => s

/-- R137: the start-up scan ends; R156 follows. -/
def endScan (s : State) : State :=
  if s.vol.storeStarting then
    let (dirtied, nv) := s.nv.dirtyMarked
    let retired := nv.writingCount
    let nv := nv.retireWriting
    let w := s.vol.modStore fun c =>
      { c with op := .ready, fillR := nv.fillAfter .r, fillA := nv.fillAfter .a, fillB := nv.fillAfter .b }
    let w := w.notify (.storeDone (.scan w.store.programmeValid retired dirtied))
    { s with nv := nv, vol := w.scanDoneEvac }
  else s

/-! ### The passing of a frame (log entry 8) -/

/-- Work of the operation in flight, in frames, at which it is due: 2 ms, 1,000 ms, 400 ms; the scan at its latest. -/
def StoreOp.overdue : StoreOp → Bool
  | .starting t => decide (300 * Config.framesPerMs ≤ t)
  | .programming _ _ _ _ t => decide (2 * Config.framesPerMs ≤ t)
  | .erasing _ _ t => decide (1000 * Config.framesPerMs ≤ t)
  | .programWrite _ t => decide (400 * Config.framesPerMs ≤ t)
  | .verifying _ _ _ _ _ => false
  | .ready => false

/-- One more frame of work. -/
def StoreOp.tick : StoreOp → Bool → StoreOp
  | .starting t, _ => .starting (t + 1)
  | .programming c k p d t, _ => .programming c k p d (t + 1)
  | .erasing k n t, suspended => .erasing k n (if suspended then t else t + 1)
  | .programWrite p t, _ => .programWrite p (t + 1)
  | .verifying c n k i x, _ => .verifying c n k i x
  | .ready, _ => .ready

/-- A frame passes for the store: its read and its operation have lasted one frame more. -/
def Vol.storeTick (w : Vol) (nv : Nonvolatile) : Vol :=
  let suspended := w.suspended nv
  w.modStore fun c =>
    { c with op := c.op.tick suspended, read := c.read.map fun r => { r with elapsed := r.elapsed + 1 } }

/-- The end of an operation that is overdue. -/
def endOverdue (s : State) : State :=
  if s.vol.store.op.overdue then
    match s.vol.store.op with
    | .starting _ => endScan s
    | .programming _ _ _ _ _ => endProgramming s
    | .erasing _ _ _ => endErase s
    | .programWrite _ _ => endProgramWrite s
    | .verifying _ _ _ _ _ => s
    | .ready => s
  else s

end Sys2Proof.Machine
end

