-- ==== Sys2Proof/Machine/Span.lean ====
section
/-! DEFINITION. The Span ports and the alignment buffer (Chapter 10): receive states, the checks of a received frame,
message reassembly, and what the buffer takes and gives. -/

namespace Sys2Proof.Machine

/-! ### The alignment buffer (R167, R168) -/

/-- R167: a frame taken from UP enters at the tail; answers whether the oldest frame left unread. -/
def AlignBuffer.push (x : AlignBuffer) (f : LaneFrame) : Bool × AlignBuffer :=
  let full := decide (2 * x.delay ≤ x.frames.length)
  let frames := (if full then x.frames.drop 1 else x.frames) ++ [f]
  (full, { x with frames := frames, state := if x.delay ≤ frames.length then .passing else x.state })

/-- R167: the frame given out at a frame of the frame clock; answers whether it was given out again. -/
def AlignBuffer.give (x : AlignBuffer) : Bool × AlignBuffer :=
  match x.state, x.frames with
  | .passing, f :: rest => (false, { x with frames := rest, out := f })
  | .passing, [] => (true, x)
  | .silent, _ => (false, { x with out := .silence })
  | .filling, _ => (false, { x with out := .silence })

/-- R168: the alignment delay is written. -/
def AlignBuffer.setDelay (x : AlignBuffer) (d : Nat) : AlignBuffer :=
  if x.delay = d then x
  else match x.state with
    | .silent => { x with delay := d }
    | .filling => { x with delay := d, state := .filling, frames := [] }
    | .passing => { x with delay := d, state := .filling, frames := [] }

/-! ### Reassembly (R171) -/

/-- The tests of a run at its end. -/
def runPasses (bs : List Byte) : Bool :=
  let n := bs.length
  let body := valueOf ((bs.drop 6).take 2)
  decide (10 ≤ n) && decide (n ≤ Config.maxRun) && decide (body ≤ Config.maxBody) && decide (n = body + 10)
    && decide (crc16 (bs.take (n - 2)) = valueOf (bs.drop (n - 2)))

/-- What a message byte does to reassembly. -/
inductive ByteResult where
  | nothing
  | discard
  | message (bytes : List Byte)
  deriving DecidableEq, Repr

/-- R171: one message byte with its flag. A message is given on without its check. -/
def Reassembly.take (x : Reassembly) (valid : Bool) (byte : Byte) : ByteResult × Reassembly :=
  match x, valid with
  | .ignoring, true => (.nothing, .ignoring)
  | .ignoring, false => (.nothing, .ready)
  | .ready, true => (.nothing, .run [byte])
  | .ready, false => (.nothing, .ready)
  | .run bs, true => if bs.length < Config.maxRun then (.nothing, .run (bs ++ [byte])) else (.discard, .ignoring)
  | .run bs, false => if runPasses bs then (.message (bs.take (bs.length - 2)), .ready) else (.discard, .ready)

/-- A message is in reassembly. -/
def Reassembly.busy : Reassembly → Bool
  | .run _ => true
  | .ignoring => false
  | .ready => false

/-! ### Receive states (R164) -/

/-- What becomes of an arriving frame. -/
inductive Arrival where
  | ignored
  | missing
  | taken
  deriving DecidableEq, Repr

/-- The index that follows (R164, R165). -/
def nextIndex (i : Nat) : Nat := (i + 1) % 48

namespace Vol

/-- R171: a message in reassembly is abandoned; what follows is ignored up to a frame with flag clear. So it is, uncounted, where
no message is in reassembly (log entry 19). -/
def abandon (w : Vol) (p : Nat) : Vol :=
  let w := if (w.port p).rx.busy then w.modCounts p fun c => { c with abandon := satInc c.abandon } else w
  w.modPort p fun x => { x with rx := .ignoring }

/-- R164, R171: a port leaves LOCKED. For UP every live source closes (R38) and the alignment buffer empties (R167). -/
def leaveLocked (w : Vol) (p : Nat) (next : RxState) (cause : PortCause) : Vol :=
  let w := (w.modCounts p fun c => { c with lockLoss := satInc c.lockLoss }).abandon p
  let w := (w.modPort p fun x => { x with state := next, agreed := 0, badSyncs := 0, last := none }).notify
    (.portState p next cause)
  if p = 0 then
    let w := w.closeSources (fun _ => true) .linkLost
    { w with align := { w.align with state := .silent, frames := [] } }
  else w

/-- R164: a port enters LOCKED. For UP the alignment buffer is FILLING, empty. -/
def enterLocked (w : Vol) (p : Nat) : Vol :=
  let w := (w.modPort p fun x => { x with state := .locked, agreed := 0, badSyncs := 0, last := none, rx := .ignoring }).notify
    (.portState p .locked .verified)
  if p = 0 then { w with align := { w.align with state := .filling, frames := [] } } else w

/-- R164: transitions are seen on the receiving line. -/
def lineActive (w : Vol) (p : Nat) : Vol :=
  if (w.port p).state = .down then w.modPort p fun x => { x with state := .hunt } else w

/-- R164: no transition for 1 ms. -/
def lineQuiet (w : Vol) (p : Nat) : Vol :=
  match (w.port p).state with
  | .down => w
  | .locked => w.leaveLocked p .down .activityLost
  | .hunt => (w.modPort p fun x => { x with state := .down, agreed := 0 }).notify (.portState p .down .activityLost)
  | .verify => (w.modPort p fun x => { x with state := .down, agreed := 0 }).notify (.portState p .down .activityLost)

/-- R164: the sync word is found in HUNT, in a frame of this index. -/
def syncSeen (w : Vol) (p index : Nat) : Vol :=
  if (w.port p).state = .hunt then w.modPort p fun x => { x with state := .verify, agreed := 0, index := index } else w

/-- R164: a frame arrives. A LOCKED frame with a bad sync field counts as missing and its header is not decoded (log entry
19). -/
def arrive (w : Vol) (p : Nat) (sync : BitVec 16) (index : Nat) : Arrival × Vol :=
  let x := w.port p
  match x.state with
  | .down => (.ignored, w)
  | .hunt => (.ignored, w)
  | .verify =>
    if sync = Config.syncWord ∧ index = nextIndex x.index then
      if x.agreed + 1 = 3 then (.taken, w.enterLocked p)
      else (.ignored, w.setPort p { x with agreed := x.agreed + 1, index := index })
    else (.ignored, w.setPort p { x with state := .hunt, agreed := 0 })
  | .locked =>
    if sync = Config.syncWord then (.taken, w.setPort p { x with badSyncs := 0 })
    else if x.badSyncs + 1 = 4 then (.ignored, w.leaveLocked p .hunt .badSync)
    else (.missing, w.setPort p { x with badSyncs := x.badSyncs + 1 })

/-- R165, steps 1 and 2: the header of a frame taken; answers its covered bits, or none when it is uncorrectable. -/
def takeHeader (w : Vol) (p : Nat) (covered : List Bool) (check : BitVec 8) : Option (List Bool) × Vol :=
  match decodeHeader covered check with
  | .good => (some covered, w)
  | .corrected bits => (some bits, w.modCounts p fun c => { c with correctedHeader := satInc c.correctedHeader })
  | .uncorrectable => (none, w)

/-- R165, step 2: the index of a frame with a good or corrected header. -/
def takeIndex (w : Vol) (p index : Nat) : Vol :=
  let w := if index = nextIndex (w.port p).index then w else w.modCounts p fun c => { c with indexJump := satInc c.indexJump }
  w.modPort p fun x => { x with index := index }

/-- R165, step 3: a frame counts as missing. The index expected here stands as that of the missing frame, so the next frame follows
with the one after it (log entry 19). -/
def missFrame (w : Vol) (p : Nat) : Vol :=
  let w := (w.modCounts p fun c => { c with missing := satInc c.missing }).abandon p
  w.modPort p fun x => { x with index := nextIndex x.index }

/-- R171: the message byte of a frame taken; answers a complete message. -/
def takeByte (w : Vol) (p : Nat) (valid : Bool) (byte : Byte) : Option (List Byte) × Vol :=
  let (result, rx) := (w.port p).rx.take valid byte
  let w := w.modPort p fun x => { x with rx := rx }
  match result with
  | .nothing => (none, w)
  | .discard => (none, w.modCounts p fun c => { c with discard := satInc c.discard })
  | .message bs => (some bs, w)

/-- R167: a frame enters the alignment buffer. -/
def pushLanes (w : Vol) (f : LaneFrame) : Vol :=
  let (slipped, a) := w.align.push f
  let w := { w with align := a }
  if slipped then w.modCounts 0 fun c => { c with overflowSlip := satInc c.overflowSlip } else w

/-- R167: a frame of the frame clock reads the alignment buffer. -/
def giveLanes (w : Vol) : Vol :=
  let (slipped, a) := w.align.give
  let w := { w with align := a }
  if slipped then w.modCounts 0 fun c => { c with underflowSlip := satInc c.underflowSlip } else w

/-- R165, step 4: the slots of an upstream frame, replaced by those of the last frame taken when the slot check fails. -/
def takeSlots (w : Vol) (f : UpFrame) : Vector Audio 32 × Vol :=
  if slotCheck f.slots.toList f.byte = f.slotCheck then (f.slots, w)
  else
    (((w.port 0).last.getD .silence).slots, w.modCounts 0 fun c => { c with slotCheck := satInc c.slotCheck })

/-- R165: a missing upstream frame enters as the last frame taken, or as silence. -/
def missUp (w : Vol) : Vol := (w.missFrame 0).pushLanes ((w.port 0).last.getD .silence)

/-- R165: an upstream frame arrives; answers a complete message. The header of a LOCKED frame whose sync field is bad is not
decoded (log entry 19). -/
def receiveUp (w : Vol) (f : UpFrame) : Option (List Byte) × Vol :=
  match w.arrive 0 f.sync f.index.toNat with
  | (.ignored, w) => (none, w)
  | (.missing, w) => (none, w.missUp)
  | (.taken, w) =>
    match w.takeHeader 0 (headBits f.index.toNat f.valid f.spare ++ presenceBits f.presence) f.headerCheck with
    | (none, w) => (none, w.missUp)
    | (some bits, w) =>
      let (slots, w) := (w.takeIndex 0 (readIndexBits bits)).takeSlots f
      let lanes : LaneFrame := { presence := readPresence bits, slots := slots }
      let w := (w.modPort 0 fun x => { x with last := some lanes }).pushLanes lanes
      w.takeByte 0 (bits.getD 6 false) f.byte

/-- R165: a node return frame arrives on DN port `p` (port number 1 to 4); answers a complete message. The header of a LOCKED
frame whose sync field is bad is not decoded (log entry 19). -/
def receiveNode (w : Vol) (p : Nat) (f : NodeFrame) : Option (List Byte) × Vol :=
  match w.arrive p f.sync f.index.toNat with
  | (.ignored, w) => (none, w)
  | (.missing, w) => (none, w.missFrame p)
  | (.taken, w) =>
    match w.takeHeader p (headBits f.index.toNat f.valid f.spare) f.headerCheck with
    | (none, w) => (none, w.missFrame p)
    | (some bits, w) =>
      let w := w.takeIndex p (readIndexBits bits)
      let w := if slotCheck [] f.byte = f.slotCheck then w
        else w.modCounts p fun c => { c with slotCheck := satInc c.slotCheck }
      w.takeByte p (bits.getD 6 false) f.byte

end Vol

end Sys2Proof.Machine
end

