-- ==== Sys2Proof/Machine/Codec.lean ====
section
/-! DEFINITION. What the part sends as bytes: named values as their places, the notices and the replies (R174, R177, R178).
Where Chapter 11 leaves the order of a notice's fields to the rule that owns it, the order is the rule's (log entry 14). -/

namespace Sys2Proof.Machine

/-! ### Named values: their place in the list where their chapter first gives them -/

/-- The position of a value in a list. -/
def placeIn {α : Type} [DecidableEq α] (x : α) (l : List α) : Nat := (l.findIdx? fun y => decide (y = x)).getD 255

def LineCond.code (x : LineCond) : Nat := placeIn x [.unknown, .normal, .hot, .opened, .short, .silent]
def Health.code (x : Health) : Nat := placeIn x [.good, .derated, .faulted]
def ZoneState.code (x : ZoneState) : Nat := placeIn x [.off, .quiet, .held, .faulted]
def RxState.code (x : RxState) : Nat := placeIn x [.down, .hunt, .verify, .locked]
def PortCause.code (x : PortCause) : Nat := placeIn x [.activityLost, .badSync, .verified]
def LiveCause.code (x : LiveCause) : Nat := placeIn x [.stopped, .released, .talkLimit, .linkLost, .reset]
def Origin.code (x : Origin) : Nat := placeIn x [.timetable, .direct, .contact, .evac]
def Trigger.code (x : Trigger) : Nat := x.place
def ReqOutcome.code (x : ReqOutcome) : Nat :=
  placeIn x [.done, .incomplete, .cancelled, .expired, .evicted, .dropped, .superseded, .withdrawn, .suppressed, .preempted,
    .noTarget, .noZones, .failed, .reset]
def CallState.code (x : CallState) : Nat :=
  placeIn x [.planned, .approaching, .atPlatform, .boarding, .final, .gone, .cancelled]
def EvacState.code (x : EvacState) : Nat := placeIn x [.normal, .alert, .evacuate]
def EvacList.code (x : EvacList) : Nat := placeIn x [.standIn, .alert, .evacuate]
def AlertCond.code (x : AlertCond) : Nat := placeIn x [.zoneFault, .link, .store, .queue, .evac, .conflict]
def EdgeResult.code (x : EdgeResult) : Nat := placeIn x [.none, .laneBusy, .noCall, .noTemplate, .notTaken]
def ResultCode.code (x : ResultCode) : Nat :=
  placeIn x [.ok, .accepted, .busy, .noRoom, .badArg, .notFound, .wrongState, .conflict, .inUse, .guarded, .resident,
    .evacActive, .notReady, .alreadySet]
def Mode.code (x : Mode) : Nat := placeIn x [.normal, .maintenance]
def ResetCause.code (x : ResetCause) : Nat := placeIn x [.power, .line, .soft]
def AlignState.code (x : AlignState) : Nat := placeIn x [.silent, .filling, .passing]
def bankCode (x : ClipBank) : Nat := placeIn x [.r, .a, .b]
def kindCode (x : CallKind) : Nat := placeIn x [.arrive, .depart]
def modeCode (x : ClaimMode) : Nat := placeIn x [.whole, .part, .join]
def resumeCode (x : ResumePolicy) : Nat := placeIn x [.restart, .abandon]
def fieldCode (x : SpokenField) : Nat := placeIn x [.platform, .destination, .scheduled, .expected, .delay]
def polarityCode (x : Polarity) : Nat := placeIn x [.activeHigh, .activeLow]
def reportCode (x : EdgeReport) : Nat := placeIn x [.none, .rising, .falling, .both]
def forceCode (x : Force) : Nat := placeIn x [.none, .on, .off]

def fnCode : LineFn → Nat
  | .plain => 0
  | .talk _ _ _ => 1
  | .trainPresent _ => 2
  | .doorsClosed _ => 3
  | .platformWarn _ => 4
  | .zoneFault _ => 5
  | .output _ _ _ _ => 6
  | .evac f => evacFnCode f

/-- A source of an OUTPUT line with its argument (R146). -/
def sourceCode : OutSource → Nat × Nat
  | .zoneHeld z => (0, z)
  | .zoneFaulted z => (1, z)
  | .platformOccupied p => (2, p)
  | .platformFinal p => (3, p)
  | .evacNotNormal => (4, 255)
  | .alertRaised => (5, 255)

/-- The five parameter bytes of a contact line (R179). -/
def fnParams : LineFn → List Byte
  | .talk l g p => [byteOf l, byteOf g, byteOf p, 0xFF, 0xFF]
  | .trainPresent p => [byteOf p, 0xFF, 0xFF, 0xFF, 0xFF]
  | .doorsClosed p => [byteOf p, 0xFF, 0xFF, 0xFF, 0xFF]
  | .platformWarn p => [byteOf p, 0xFF, 0xFF, 0xFF, 0xFF]
  | .zoneFault z => [byteOf z, 0xFF, 0xFF, 0xFF, 0xFF]
  | .output src gen invert force =>
    [byteOf (sourceCode src).1, byteOf (sourceCode src).2, byteOf gen, flag invert, byteOf (forceCode force)]
  | .plain => List.replicate 5 0xFF
  | .evac _ => List.replicate 5 0xFF

/-! ### Notices -/

/-- The kind of a notice (R174, 11.4). -/
def Notice.kind : Notice → Nat
  | .requestEnd _ _ _ _ _ _ _ => 64
  | .callState _ _ _ _ _ _ _ _ _ _ => 65
  | .callRemoved _ _ => 65
  | .zoneState _ _ _ _ _ => 66
  | .portState _ _ _ => 67
  | .liveEnd _ _ _ => 68
  | .storeDone _ => 69
  | .clipDamaged _ _ => 70
  | .evacState _ _ _ => 71
  | .alertRaised _ => 72
  | .alertCleared => 73
  | .contactEdge _ _ _ _ => 74
  | .timeJump _ _ => 75
  | .platformConflict _ _ _ _ _ => 76
  | .laneAbsent _ => 77

/-- The opener of a live source with the line that opened it, if one did. -/
def openerBytes : Opener → List Byte
  | .request => [0, 0xFF]
  | .line n => [1, byteOf n]
  | .evacuation n => [2, oneOr n]

/-- The cause of an EVAC STATE notice with its line. -/
def evacCauseBytes : EvacCause → List Byte
  | .start => [0, 0xFF]
  | .escalate => [1, 0xFF]
  | .stop => [2, 0xFF]
  | .timer => [3, 0xFF]
  | .alertLine n => [4, byteOf n]
  | .fullLine n => [5, byteOf n]
  | .resetLine n => [6, byteOf n]

/-- The result of an operation: OK, CHECK_FAIL or ABORTED (R120). -/
def opResult (aborted checkFail : Bool) : Byte := if aborted then 2 else if checkFail then 1 else 0

/-- The body of STORE DONE: the operation, its clip, its bank and sector, its result, the pages written, and what a scan reports:
the programme state, the clips made RETIRED and the pages made DIRTY. A field that the operation lacks holds all ones, so every body
has one length (R120, R137, R174; the fields of the layout: log entry 14). -/
def storeDoneFields (operation : Nat) (clip : Option Nat) (sector : Option (ClipBank × Nat)) (result : Byte) (written : Option Nat)
    (scan : Option (Bool × Nat × Nat)) : List Byte :=
  [byteOf operation] ++ twoOr clip ++ [oneOr (sector.map fun x => bankCode x.1), oneOr (sector.map (·.2)), result] ++ twoOr written
    ++ [oneOr (scan.map fun x => if x.1 then 0 else 1)] ++ twoOr (scan.map (·.2.1)) ++ [oneOr (scan.map (·.2.2))]

/-- The body of STORE DONE, by operation. -/
def storeDoneBytes : StoreDone → List Byte
  | .page c aborted n => storeDoneFields 0 (some c) none (opResult aborted false) (some n) none
  | .seal c aborted failed n => storeDoneFields 1 (some c) none (opResult aborted failed) (some n) none
  | .erase bank s aborted => storeDoneFields 2 none (some (bank, s)) (opResult aborted false) none none
  | .programme => storeDoneFields 3 none none 0 none none
  | .scan valid retired dirtied => storeDoneFields 4 none none 0 none (some (valid, retired, dirtied))

/-- The body of a notice. That of a call removed has the length of every CALL STATE, the fields R70 does not name for it all
ones (log entry 14). -/
def Notice.body : Notice → List Byte
  | .requestEnd n origin call platform template priority outcome =>
    present2 n ++ [byteOf origin.code] ++ present1 (call.map (·.1))
      ++ [oneOr (call.map (·.2.code)), oneOr platform, oneOr template, byteOf priority, byteOf outcome.code]
  | .callState slot kind service state platform trigger announced stale suppressed made =>
    [byteOf slot, byteOf (kindCode kind)] ++ two service
      ++ [byteOf state.code, oneOr platform, oneOr (trigger.map Trigger.code), flag announced, flag stale, flag suppressed,
          flag (!made)]
  | .callRemoved slot service =>
    [byteOf slot, 0xFF] ++ two service ++ [7, 0xFF, 0xFF, 0xFF, 0xFF, 0xFF, 0xFF]
  | .zoneState z state health cond ext =>
    [byteOf z, byteOf state.code, byteOf health.code, byteOf cond.code, flag ext]
  | .portState p state cause => [byteOf p, byteOf state.code, byteOf cause.code]
  | .liveEnd lane opener cause => [byteOf lane] ++ openerBytes opener ++ [byteOf cause.code]
  | .storeDone d => storeDoneBytes d
  | .clipDamaged c p => two c ++ two p
  | .evacState before after cause => [byteOf before.code, byteOf after.code] ++ evacCauseBytes cause
  | .alertRaised conds => byteOf conds.length :: conds.map fun c => byteOf c.code
  | .alertCleared => []
  | .contactEdge line rising fn result =>
    [byteOf line, flag (!rising), byteOf (fnCode fn)] ++ fnParams fn ++ [byteOf result.code]
  | .timeJump held new => four held ++ four new
  | .platformConflict p slot service occupant occupantService =>
    [byteOf p, byteOf slot] ++ two service ++ [byteOf occupant] ++ two occupantService
  | .laneAbsent lane => [byteOf lane]

/-! ### Messages -/

/-- R174: a whole message, with its check. -/
def messageBytes (destination source kind cls tag : Nat) (body : List Byte) : List Byte :=
  let m := [byteOf destination, byteOf source, byteOf kind, byteOf cls] ++ two tag ++ two body.length ++ body
  m ++ two (crc16 m)

/-- R178: a notice as sent. -/
def noticeMessage (source : Nat) (n : Notice) : List Byte := messageBytes 0 source n.kind 3 0 n.body

/-- The fields of a reply after its result code. -/
def ReplyBody.bytes : ReplyBody → List Byte
  | .none => []
  | .hello address mode valid cause =>
    two Config.vendorCode ++ two Config.partCode
      ++ [byteOf Config.revision, byteOf address, byteOf mode.code, flag (!valid), byteOf cause.code]
  | .firstPage p => two p
  | .number n => two n
  | .announced a => [flag a]
  | .record bs => bs
  | .status bs => bs

/-- R175: a reply as sent. -/
def Reply.message (r : Reply) : List Byte :=
  messageBytes r.destination r.source r.kind 2 r.tag (byteOf r.code.code :: r.body.bytes)

end Sys2Proof.Machine
end

