-- ==== Sys2Proof/Machine/Engine.lean ====
section
/-! DEFINITION. The message engine (Chapter 11): taking a request and writing its reply, the outbound arbiter, HELLO,
ADDRESS, STATUS, ALERT MASK and the soft RESET; the values of each kind of reset. -/

namespace Sys2Proof.Machine

/-! ### Taking a request (R175, R177) -/

namespace Vol

/-- R175, test 2: the destination is 255, or equals the node address (0 while it is unset). -/
def addressed (w : Vol) (destination : Nat) : Bool :=
  decide (destination = 255) || decide (destination = w.engine.address)

/-- R177: the free reply place of lowest number. -/
def freePlace (w : Vol) : Option Nat := (List.range 8).find? fun i => (tget none w.engine.places i).isNone

def placesTaken (w : Vol) : Nat := (w.engine.places.toList.filter (·.isSome)).length

/-- R177: the reply is written into its place and waits. -/
def writeReply (w : Vol) (place : Nat) (r : Reply) : Vol :=
  w.modEngine fun e => { e with places := tset e.places place (some r), waiting := e.waiting ++ [place] }

def discardClass (w : Vol) : Vol := w.modEngine fun e => { e with classDiscards := satInc e.classDiscards }
def discardAddress (w : Vol) : Vol := w.modEngine fun e => { e with addressDiscards := satInc e.addressDiscards }
def discardPlace (w : Vol) : Vol := w.modEngine fun e => { e with placeDiscards := satInc e.placeDiscards }

end Vol

/-- R175, tests 4 to 6: what a request that has a place is answered; the owner acts when all pass. -/
def answerRequest (kind : Nat) (shaped : Bool) (act : Act) : Act := fun s =>
  if !within 1 32 kind then refuse .badArg s
  else if s.vol.engine.address = 0 ∧ kind ≠ 1 ∧ kind ≠ 2 then refuse .notReady s
  else if !shaped then refuse .badArg s
  else act s

/-- The end of a request: its reply is written, from the node address as it then stands, and the event ends. -/
def endRequest (h : RequestHeader) (kind place : Nat) (r : Answer × State) : State :=
  let reply : Reply :=
    { destination := h.source, source := r.2.vol.engine.address, kind := kind, tag := h.tag, code := r.1.code,
      body := r.1.body }
  ({ r.2 with vol := r.2.vol.writeReply place reply }).finish

/-- R175: a message of class request. `shaped` is test 6, `act` its owner's rule. -/
def takeRequest (h : RequestHeader) (kind : Nat) (shaped : Bool) (act : Act) (s : State) : State :=
  whenRunning s fun s =>
    if !s.vol.addressed h.destination then { s with vol := s.vol.discardAddress }
    else match s.vol.freePlace with
      | none => { s with vol := s.vol.discardPlace }
      | some place => endRequest h kind place (answerRequest kind shaped act s)

/-! ### The outbound arbiter (R172, R177) -/

namespace Vol

/-- R172: UP can take a new message: LOCKED, nothing in sending, and the last return frame had its flag clear. -/
def canSend (w : Vol) : Bool := w.upLocked && w.engine.sending.isNone && !w.sent.up.valid

/-- R177: the earliest waiting reply, or else the oldest notice, is given to UP. -/
def startSending (w : Vol) : Vol :=
  if w.canSend then
    match w.engine.waiting, w.engine.notices with
    | place :: rest, _ =>
      match tget none w.engine.places place with
      | some r => w.modEngine fun e => { e with waiting := rest, sending := some { rest := r.message, place := some place } }
      | none => w
    | [], (source, n) :: rest =>
      w.modEngine fun e => { e with notices := rest, sending := some { rest := noticeMessage source n, place := none } }
    | [], [] => w
  else w

/-- The last byte of the message in sending has been sent. -/
def sendingDone (w : Vol) : Bool :=
  match w.engine.sending with
  | some m => decide (m.rest = [])
  | none => false

/-- R177: the sending ends; a reply's place is free. -/
def endSending (w : Vol) : Vol :=
  match w.engine.sending with
  | some m =>
    if m.rest = [] then
      w.modEngine fun e =>
        { e with sending := none,
                 places := match m.place with
                   | some p => tset e.places p none
                   | none => e.places }
    else w
  | none => w

end Vol

/-! ### HELLO and ADDRESS -/

/-- R180. -/
def actHello : Act := fun s =>
  ({ code := .ok, body := .hello s.vol.engine.address s.vol.mode s.vol.store.programmeValid s.vol.engine.cause }, s)

/-- R176. An address of 0 or 255 is BAD_ARG also while the node address is set (log entry 45). -/
def actAddress (a : Nat) : Act := fun s =>
  if !within 1 254 a then refuse .badArg s
  else if s.vol.engine.address ≠ 0 then refuse .alreadySet s
  else okVol s (s.vol.modEngine fun e => { e with address := a })

/-! ### STATUS (R181) -/

/-- The counts of a port (R173), the slips for UP alone. -/
def portBytes (isUp : Bool) (x : Port) : List Byte :=
  let c := x.counts
  [byteOf x.state.code, byteOf c.correctedHeader, byteOf c.missing, byteOf c.slotCheck, byteOf c.indexJump,
    byteOf c.discard, byteOf c.abandon, byteOf c.lockLoss]
    ++ (if isUp then [byteOf c.overflowSlip, byteOf c.underflowSlip] else [])

/-- The operation in flight: its place in PAGE, SEAL, ERASE, PROGRAMME, SCAN, then its clip or its bank and sector. -/
def operationBytes : StoreOp → List Byte
  | .ready => [0xFF, 0xFF, 0xFF, 0xFF, 0xFF]
  | .programming c _ _ _ _ => [0] ++ two c ++ [0xFF, 0xFF]
  | .verifying c _ _ _ _ => [1] ++ two c ++ [0xFF, 0xFF]
  | .erasing bank s _ => [2, 0xFF, 0xFF, byteOf (bankCode bank), byteOf s]
  | .programWrite _ _ => [3, 0xFF, 0xFF, 0xFF, 0xFF]
  | .starting _ => [4, 0xFF, 0xFF, 0xFF, 0xFF]

/-- The controller state in the order of 7.3. -/
def controllerCode : StoreOp → Nat
  | .starting _ => 0
  | .ready => 1
  | .programming _ _ _ _ _ => 2
  | .erasing _ _ _ => 3
  | .verifying _ _ _ _ _ => 4
  | .programWrite _ _ => 5

/-- Pages of a bank in each state (R118). -/
def Nonvolatile.pageCounts (nv : Nonvolatile) (bank : ClipBank) : List Byte :=
  let lo := pageIndex bank 0
  let mine := nv.pages.filter fun e => decide (lo ≤ e.1) && decide (e.1 < lo + bankPages bank)
  let written := (mine.filter fun e => decide (e.2 = .written)).length
  let dirty := (mine.filter fun e => decide (e.2 = .dirty)).length
  two (bankPages bank - written - dirty) ++ two written ++ two dirty

namespace Vol

def claimCount (w : Vol) (st : ClaimState) : Nat :=
  (w.claims.toList.filter fun c => match c with
    | some x => decide (x.state = st)
    | none => false).length

def voiceCount (w : Vol) (st : VoiceState) : Nat := (w.voices.toList.filter fun x => decide (x.state = st)).length

def requestCount (w : Vol) (p : ReqState → Bool) : Nat := (w.queue.requests.filter fun r => p r.state).length

/-- The requests in PENDING, READY, VOICED and PLAYING (R87). -/
def requestCounts (w : Vol) : List Byte :=
  [byteOf (w.requestCount fun st => decide (st = .pending)), byteOf (w.requestCount fun st => decide (st = .ready)),
    byteOf (w.requestCount fun st => match st with
      | .voiced _ => true
      | _ => false),
    byteOf (w.requestCount fun st => match st with
      | .playing _ => true
      | _ => false)]

/-- R181: the report, in the order of its table (log entry 14). The place taken by the STATUS request itself counts. The raised state
is 1 for raised and 0 for cleared, SUSPENDED 1 while it holds and 0 otherwise (log entry 14). -/
def statusReport (w : Vol) (nv : Nonvolatile) : List Byte :=
  let e := w.engine
  (w.ports.toList.zipIdx.flatMap fun p => portBytes (decide (p.2 = 0)) p.1)
    ++ two w.align.delay ++ [byteOf w.align.state.code] ++ two w.align.frames.length ++ [flag (!w.disciplined)]
    ++ [byteOf e.address, byteOf w.mode.code, byteOf e.cause.code, byteOf (w.placesTaken + 1), byteOf e.notices.length,
        flag e.overflow, byteOf e.classDiscards, byteOf e.addressDiscards, byteOf e.placeDiscards]
    ++ (byteOf e.mask.length :: e.mask.map fun c => byteOf c.code) ++ [flag e.raised]
    ++ [byteOf w.reportDiscards] ++ (w.platforms.toList.map fun x => flag x.conflict)
    ++ [byteOf (w.claimCount .waiting), byteOf (w.claimCount .active), byteOf (w.claimCount .exhausted),
        byteOf (w.live.toList.filter (·.isSome)).length]
    ++ w.requestCounts ++ [byteOf w.lowCount, flag e.queueLatch]
    ++ [byteOf (w.voiceCount .idle), byteOf (w.voiceCount .cueing), byteOf (w.voiceCount .playing),
        byteOf (w.voiceCount .stalled)]
    ++ (w.voices.toList.flatMap fun x => [byteOf x.stalls, byteOf x.damaged])
    ++ [flag w.clock.isSet] ++ four w.clock.time ++ four w.clock.dayBase
    ++ two (w.calls.toList.filter (·.isSome)).length ++ two w.due.length
    ++ [byteOf (controllerCode w.store.op)] ++ operationBytes w.store.op ++ [flag (w.suspended nv)]
    ++ nv.pageCounts .r ++ nv.pageCounts .a ++ nv.pageCounts .b
    ++ [flag nv.g1, flag nv.g2, flag (!w.store.programmeValid), flag w.store.checkFail, byteOf w.store.corrected,
        byteOf w.store.uncorrectable]
    ++ (w.lines.toList.map fun x => flag x.latch)
    ++ [byteOf w.evac.state.code] ++ four w.evac.timer ++ [oneOr (w.evac.list.map EvacList.code)]
    ++ present2 w.evac.request

/-- R181: what clear clears. -/
def statusClear (w : Vol) : Vol :=
  { w with
    ports := w.ports.map fun x => { x with counts := .zero }
    engine := { w.engine with overflow := false, classDiscards := 0, addressDiscards := 0, placeDiscards := 0,
                              queueLatch := false }
    reportDiscards := 0
    platforms := w.platforms.map fun x => { x with conflict := false }
    voices := w.voices.map fun x => { x with stalls := 0, damaged := 0 }
    store := { w.store with checkFail := false, corrected := 0, uncorrectable := 0 }
    lines := w.lines.map fun x => { x with latch := false } }

end Vol

/-- R181. -/
def actStatus (clear : Bool) : Act := fun s =>
  ({ code := .ok, body := .status (s.vol.statusReport s.nv) },
    if clear then { s with vol := s.vol.statusClear } else s)

/-! ### ALERT MASK (R182) -/

/-- The condition an entry names. -/
def alertCondOf : Nat → Option AlertCond
  | 0 => some .zoneFault
  | 1 => some .link
  | 2 => some .store
  | 3 => some .queue
  | 4 => some .evac
  | 5 => some .conflict
  | _ => none

/-- R182. The mask, a set, is kept in the table's order. -/
def actAlertMask (conds : List Nat) : Act := fun s =>
  if conds.all (fun c => decide (c < 6)) = true ∧ distinct conds = true then
    okVol s (s.vol.modEngine fun e =>
      { e with mask := (List.range 6).filterMap fun i => if conds.contains i then alertCondOf i else none })
  else refuse .badArg s

/-! ### Resets -/

/-- The parts of the coming block mark that stay taken over a soft FULL reset: all but the generators' steps, since the four
generators, reset, start at phase 0 at one block mark, the first after the reset (R147; log entry 6). -/
def FrameClock.releaseGens (x : FrameClock) : FrameClock :=
  { x with done := x.done.filter fun m => match m with
      | .gen _ => false
      | _ => true }

/-- R140: a contact line as the programme gives it. -/
def residentLine (l : Option EvacLine) : Line :=
  match l with
  | some x => { Line.initial with fn := .evac x.fn, polarity := x.polarity, debounce := x.debounce, report := .both }
  | none => .initial

namespace Vol

/-- R6, R135: a zone loads its resident fields. -/
def loadZone (pr : Programme) (z : Nat) (x : Zone) : Zone :=
  { x with placement := tget none pr.placements z, enabled := tget false pr.enabled z, evacBase := tget 0 pr.evacBases z }

/-- R135: the blocks load their resident values. The raw level of a line is that of the last block mark (8.1). -/
def loadProgramme (w : Vol) (pr : Programme) : Vol :=
  { w with
    zones := w.zones.mapIdx fun z x => loadZone pr z x
    groups := tset w.groups 31 pr.group
    lines := pr.lines.mapIdx fun l x => { residentLine x with raw := (w.line l).raw }
    evac := { w.evac with lane := pr.lane, alertList := pr.alertList, evacList := pr.evacList, duration := pr.duration } }

/-- The values a line reset gives: those of power-on, but for the fault histories (R6, R16), the reset cause (R180) and a
programme write in flight, which runs on (R136). -/
def lineReset (w : Vol) : Vol :=
  { Vol.powerOn with
    zones := w.zones.map fun x => { Zone.initial with history := x.history }
    engine := { Engine.initial with cause := .line }
    store :=
      { StoreCtl.initial with
        op := match w.store.op with
          | .programWrite p t => .programWrite p t
          | _ => .starting 0 } }

/-- R100, R35: the notices of the requests and live sources that a soft reset ends. -/
def resetNotices (w : Vol) : Vol :=
  let w := w.queue.requests.foldl (fun w r => w.endNotice r .reset) w
  (List.range 32).foldl (fun w l =>
    match w.source l with
    | some x => w.notify (.liveEnd l x.opener .reset)
    | none => w) w

/-- R183, step 1. -/
def dropNotices (w : Vol) : Vol :=
  w.modEngine fun e => { e with notices := [], overflow := e.overflow || !e.notices.isEmpty }

/-- R138, R117: the store controller at a soft reset. -/
def StoreCtl.softReset (c : StoreCtl) : StoreCtl :=
  { c with
    eraseArm := none, abortArm := false, uses := []
    read := c.read.map fun r =>
      match r.user with
      | .voice _ => { r with user := .discarded }
      | .verify => r
      | .discarded => r }

/-- R183: the soft AUDIO column of every block (R6, R17, R18, R35, R53, R100, R117, R138, R184). The two targets of a zone stand
until the first block mark (log entry 3). The alert timer is kept at the value it stands at (log entry 56). -/
def resetAudio (w : Vol) : Vol :=
  let w := w.dropNotices.resetNotices
  { w with
    zones := w.zones.map fun x => { x with holder := none, waiters := [] }
    claims := Vector.replicate 40 none
    stampCounter := 0
    live := Vector.replicate 32 none
    gains := w.gains.map fun g =>
      { g with stagedFg := none, stagedBg := none, fgLevel := Config.mute, bgLevel := Config.mute, cut := false }
    queue := { w.queue with requests := [], nextStamp := 0 }
    voices := w.voices.map fun x => { Voice.initial with stalls := x.stalls, damaged := x.damaged }
    store := StoreCtl.softReset w.store
    engine := { w.engine with cause := .soft } }

/-- R6: a zone at a soft FULL reset. A placement other than the one held restarts its supervision; a zone that the reset turns
on with its placement keeps its silence timer, where R14 would start it from 0 (log entry 27). -/
def fullZone (pr : Programme) (z : Nat) (x : Zone) : Zone :=
  let y := loadZone pr z
    { Zone.initial with ambient := x.ambient, cond := x.cond, normals := x.normals, silence := x.silence,
                        history := x.history }
  if y.placement.isSome ∧ y.placement ≠ x.placement then y.freshSupervision else y

/-- R183: the soft FULL column of every block: the AUDIO column, and the tables and settings at their start values. -/
def resetFull (w : Vol) (pr : Programme) : Vol :=
  let w := w.resetAudio
  let zones := w.zones.mapIdx fun z x => fullZone pr z x
  ({ w with
      zones := zones
      groups := Vector.replicate 32 []
      platforms := Vector.replicate 32 .initial
      rampRate := 2
      monitor := none
      align := w.align.setDelay 96
      calls := Vector.replicate 256 none
      profiles := Vector.replicate 16 .initial
      due := []
      templates := Vector.replicate 128 none
      hours := Vector.replicate 24 none
      minutes := Vector.replicate 60 none
      numbers := Vector.replicate 100 none
      platPhrases := Vector.replicate 32 none
      dests := Vector.replicate 256 none
      gens := Vector.replicate 4 .initial
      fclk := w.fclk.releaseGens
      engine := { w.engine with mask := [] } }).loadProgramme pr

end Vol

/-- R183, scope AUDIO. -/
def actResetAudio : Act := fun s =>
  if s.vol.evac.state ≠ .normal then refuse .evacActive s else okVol s s.vol.resetAudio

/-- The store is in PROGRAM_WRITE (R183). -/
def StoreOp.isProgramWrite : StoreOp → Bool
  | .programWrite _ _ => true
  | _ => false

/-- R183, scope FULL. -/
def actResetFull : Act := fun s =>
  if s.vol.evac.state ≠ .normal then refuse .evacActive s
  else if s.vol.store.op.isProgramWrite then refuse .busy s
  else okVol s (s.vol.resetFull (s.nv.loaded s.vol.store.programmeValid))

/-- Power is applied: every block at its power-on values, held in reset. -/
def applyPower (s : State) : State := { s with power := .held, vol := .powerOn }

/-- Power is lost: the operation in flight stops and the volatile state is gone (log entry 4). -/
def losePower (s : State) : State := { s with power := .off, vol := .powerOn }

/-- The reset line is asserted (R136, R138). -/
def assertReset (s : State) : State :=
  if s.power = .off then s else { s with power := .held, vol := s.vol.lineReset }

/-- R134, R135, R145: what the release of power-on or line reset does. The programme check is computed and compared, which
gives the programme state; the frame clock's first frame carries the first block mark (R169), and the store makes its scan
(R137). -/
def releaseReset (s : State) (cl0High : Bool) : State :=
  let valid := s.nv.programmeMatches
  let w := s.vol.loadProgramme (s.nv.loaded valid)
  let mode := if cl0High = true ∧ valid = true then Mode.normal else Mode.maintenance
  { s with
    power := .running
    vol := { w with mode := mode, store := { w.store with op := .starting 0, programmeValid := valid } } }

/-- The reset line or power-on reset is released; a programme write in flight holds the part in reset (R136). -/
def lineReleased (s : State) (cl0High : Bool) : State :=
  if s.power = .held then
    if s.vol.store.op.isProgramWrite then { s with power := .releasing } else releaseReset s cl0High
  else s

/-- R136: the programme write completes. The record is stored and STORE DONE is sent, in reset too (log entry 16); when the
reset line was released meanwhile, reset is released now. -/
def programWriteDone (s : State) (cl0High : Bool) : State :=
  match s.vol.store.op with
  | .programWrite _ t =>
    match s.power with
    | .running => if 400 * Config.framesPerMs ≤ t then (endProgramWrite s).finish else s
    | .held => endProgramWrite s
    | .releasing => releaseReset (endProgramWrite s) cl0High
    | .off => s
  | _ => s

end Sys2Proof.Machine
end

