-- ==== Sys2Proof/Machine/Tables.lean ====
section
/-! DEFINITION. The object classes (11.5): TABLE WRITE of each class and TABLE READ. -/

namespace Sys2Proof.Machine

/-! ### ZONE (R3 to R5, R44) -/

/-- R3, R5: the zone record with the fields of the write. A new line starts its supervision afresh; a zone that becomes
enabled and placed starts its silence timer from 0 (R4, R14). -/
def Zone.written (x : Zone) (r : ZoneRecord) : Zone :=
  let y : Zone :=
    { x with
      placement := r.placement, enabled := r.enabled, bgLane := r.bgLane, bgBase := r.bgBase, duck := r.duck,
      fgBase := r.fgBase, evacBase := r.evacBase, fallback := r.fallback, compOn := r.compOn, compRef := r.compRef,
      compLimit := r.compLimit }
  let y := if y.placement.isSome ∧ y.placement ≠ x.placement then y.freshSupervision else y
  if x.on = false ∧ y.on = true then { y with silence := 0 } else y

/-- R3, check 3: another zone holds the placement. -/
def Vol.placementHeld (w : Vol) (z : Nat) (p : Option (Nat × Nat)) : Bool :=
  p.isSome && (List.range 64).any fun y => decide (y ≠ z) && decide ((w.zone y).placement = p)

/-- R3, check 4: the write leaves a zone of group 31 OFF during an evacuation. -/
def Vol.leavesOff (w : Vol) (r : ZoneRecord) : Bool :=
  decide (w.evac.state ≠ .normal) && (w.group 31).contains r.zone && (w.zone r.zone).on
    && !((w.zone r.zone).written r).on

/-- R3, R44. -/
def actWriteZone (r : ZoneRecord) : Act := fun s =>
  let w := s.vol
  let x := w.zone r.zone
  if !r.inRange then refuse .badArg s
  else if w.mode = .normal ∧ ¬(r.placement = x.placement ∧ r.evacBase = x.evacBase) then refuse .resident s
  else if w.placementHeld r.zone r.placement then refuse .conflict s
  else if w.leavesOff r then refuse .evacActive s
  else
    let w := w.modGain r.zone fun g => { g with stagedFg := none, stagedBg := none }
    okVol s (w.zoneEvent s.nv r.zone fun x => x.written r)

/-! ### GROUP and PLATFORM (R7, R8, R10) -/

/-- R7, R8. -/
def actWriteGroup (g : Nat) (members : List Nat) : Act := fun s =>
  if !groupInRange g members then refuse .badArg s
  else if g = 31 ∧ s.vol.mode = .normal then refuse .resident s
  else if g = 31 ∧ s.vol.evac.state ≠ .normal then refuse .evacActive s
  else okVol s (s.vol.setGroup g (sortBy (fun a e => decide (a < e)) members))

/-- R10. -/
def actWritePlatform (p : Nat) (group template : Option Nat) : Act := fun s =>
  if within 1 32 p ∧ optBelow 32 group = true ∧ optBelow 128 template = true then
    okVol s (s.vol.modPlatform p fun x => { x with group := group, warning := template })
  else refuse .badArg s

/-! ### PROFILE (R57) -/

def ofRecord (r : ProfileRecord) : Profile :=
  { approachLead := r.approachLead, boardingLead := r.boardingLead, finalLead := r.finalLead, clearDelay := r.clearDelay,
    delayThreshold := r.delayThreshold, concourse := r.concourse, templates := r.templates }

/-- The slots whose call names a profile. -/
def Vol.callsOf (w : Vol) (p : Nat) : List Nat :=
  (List.range 256).filter fun c =>
    match w.call c with
    | some x => decide (x.profile = p)
    | none => false

/-- R57: the fields are set together, and the due entries of the profile's calls are made anew and tested, in the order of the
due list (log entry 36). -/
def actWriteProfile (r : ProfileRecord) : Act := fun s =>
  if r.inRange then
    let w := { s.vol with profiles := tset s.vol.profiles r.profile (ofRecord r) }
    let slots := w.callsOf r.profile
    okVol s ((slots.foldl Vol.remakeDue w).walkDue s.nv slots.contains)
  else refuse .badArg s

/-! ### TEMPLATE and phrases (R82, R83) -/

/-- R82. -/
def actWriteTemplate (r : TemplateRecord) : Act := fun s =>
  if r.items = [] then
    (if r.template < 128 then okVol s { s.vol with templates := tset s.vol.templates r.template none } else refuse .badArg s)
  else if r.inRange then
    okVol s
      { s.vol with templates := tset s.vol.templates r.template (some
          { items := r.items, target := r.target, priority := r.priority, mode := r.mode, resume := r.resume,
            repeats := r.repeats, gap := r.gap, window := r.window }) }
  else refuse .badArg s

/-- R83: the entries are written to consecutive places from place `i`. -/
def writePhrases {n : Nat} (t : Vector (Option Nat) n) (i : Nat) (entries : List (Option Nat)) : Vector (Option Nat) n :=
  (entries.zipIdx i).foldl (fun t e => tset t e.2 e.1) t

/-- R83, for HOURS. -/
def actWriteHours (first : Nat) (entries : List (Option Nat)) : Act := fun s =>
  if phraseInRange 0 24 first entries then okVol s { s.vol with hours := writePhrases s.vol.hours first entries }
  else refuse .badArg s

/-- R83, for MINUTES. -/
def actWriteMinutes (first : Nat) (entries : List (Option Nat)) : Act := fun s =>
  if phraseInRange 0 60 first entries then okVol s { s.vol with minutes := writePhrases s.vol.minutes first entries }
  else refuse .badArg s

/-- R83, for NUMBERS, whose indices start at 1. -/
def actWriteNumbers (first : Nat) (entries : List (Option Nat)) : Act := fun s =>
  if phraseInRange 1 100 first entries then
    okVol s { s.vol with numbers := writePhrases s.vol.numbers (first - 1) entries }
  else refuse .badArg s

/-- R83, for PLATFORMS, whose indices start at 1. -/
def actWritePlatPhrases (first : Nat) (entries : List (Option Nat)) : Act := fun s =>
  if phraseInRange 1 32 first entries then
    okVol s { s.vol with platPhrases := writePhrases s.vol.platPhrases (first - 1) entries }
  else refuse .badArg s

/-- R83, for DESTINATIONS. -/
def actWriteDests (first : Nat) (entries : List (Option Nat)) : Act := fun s =>
  if phraseInRange 0 256 first entries then okVol s { s.vol with dests := writePhrases s.vol.dests first entries }
  else refuse .badArg s

/-! ### CONTACT_LINE, GENERATOR, LINK_CONFIG (R139, R148, R51, R168, R179) -/

/-- R139. -/
def actWriteLine (r : LineRecord) : Act := fun s =>
  if !r.inRange then refuse .badArg s
  else if r.fn.isEvac ∨ (s.vol.line r.line).fn.isEvac = true then refuse .resident s
  else okVol s (s.vol.writeLine s.nv r)

/-- R148. -/
def actWriteGenerator (g p r f : Nat) : Act := fun s =>
  if generatorInRange g p r f then okVol s (s.vol.setGen g { s.vol.gen g with staged := some (p, r, f) })
  else refuse .badArg s

/-- R51, R168, R179. -/
def actWriteLink (d rate : Nat) : Act := fun s =>
  if linkConfigInRange d rate then okVol s { s.vol with align := s.vol.align.setDelay d, rampRate := rate }
  else refuse .badArg s

/-- R179: classes 13 to 15. -/
def actWriteUnassigned : Act := refuse .ok

/-! ### TABLE READ (R179) -/

def historyBits (h : FaultHistory) : Byte := byteOf (bitsValue [h.hot, h.opened, h.short, h.silent, h.external])

/-- ACTIVE 0, INACTIVE 1, none all ones. -/
def levelByte : Option Bool → Byte
  | some true => 0
  | some false => 1
  | none => 0xFF

def zoneBytes (w : Vol) (z : Nat) : List Byte :=
  let x := w.zone z
  let g := w.gain z
  [byteOf z, oneOr (x.placement.map (·.1)), oneOr (x.placement.map (·.2)), flag x.enabled, oneOr x.bgLane, byteOf x.bgBase,
    byteOf x.duck, byteOf x.fgBase, byteOf x.evacBase, oneOr x.fallback, flag x.compOn, byteOf x.compRef,
    byteOf x.compLimit, oneOr x.ambient, byteOf x.cond.code, byteOf x.normals] ++ two x.silence
    ++ [flag x.extFault, historyBits x.history, byteOf x.health.code, byteOf x.state.code, oneOr x.holder, byteOf g.fgLevel,
        byteOf g.bgLevel]
    ++ (byteOf x.waiters.length :: x.waiters.map byteOf)

def groupBytes (w : Vol) (g : Nat) : List Byte :=
  byteOf g :: byteOf (w.group g).length :: (w.group g).map byteOf

def platformBytes (w : Vol) (p : Nat) : List Byte :=
  let x := w.platform p
  [byteOf p, oneOr x.group, oneOr x.warning] ++ present1 x.occupant ++ [levelByte x.trainPresent, flag x.conflict]

def profileBytes (w : Vol) (p : Nat) : List Byte :=
  let x := w.profile p
  [byteOf p] ++ two x.approachLead ++ two x.boardingLead ++ two x.finalLead ++ two x.clearDelay
    ++ [byteOf x.delayThreshold, oneOr x.concourse] ++ x.templates.toList.map oneOr

def itemBytes : Item → List Byte
  | .clip c => [0] ++ two c ++ [0xFF]
  | .field f => [1] ++ two (fieldCode f) ++ [0xFF]
  | .pause n => [2] ++ two n ++ [0xFF]
  | .tone t n => [3] ++ two n ++ [byteOf t]

/-- The target kind and group of a template. -/
def targetBytes : Target → List Byte
  | .group g => [0, byteOf g]
  | .callPlatform => [1, 0xFF]
  | .profile => [2, 0xFF]

/-- R82: an empty template reads back with these fields. -/
def Template.blank : Template :=
  { items := [], target := .group 0, priority := 0, mode := .whole, resume := .restart, repeats := 1, gap := 10,
    window := 0 }

def templateBytes (w : Vol) (t : Nat) : List Byte :=
  let x := (w.template t).getD .blank
  [byteOf t] ++ targetBytes x.target ++ [byteOf x.priority, byteOf (modeCode x.mode), byteOf (resumeCode x.resume),
    byteOf x.repeats] ++ two x.gap ++ two x.window ++ [byteOf x.items.length] ++ x.items.flatMap itemBytes

/-- A phrase table read from place `i`, under the index `first`. -/
def phraseBytes {n : Nat} (t : Vector (Option Nat) n) (first i count : Nat) : List Byte :=
  two first ++ [byteOf count] ++ (List.range count).flatMap fun k => twoOr (tget none t (i + k))

def lineBytes (w : Vol) (l : Nat) : List Byte :=
  let x := w.line l
  [byteOf l, byteOf (fnCode x.fn), byteOf (polarityCode x.polarity), byteOf x.debounce, byteOf (reportCode x.report)]
    ++ fnParams x.fn
    ++ [flag (!x.raw), levelByte x.debounced, flag x.latch,
        levelByte (if x.fn.isOutput then some x.shown else none)]

def genBytes (w : Vol) (g : Nat) : List Byte :=
  let x := w.gen g
  [byteOf g] ++ two x.p ++ two x.r ++ two x.f ++ [flag x.staged.isSome] ++ twoOr (x.staged.map (·.1))
    ++ twoOr (x.staged.map (·.2.1)) ++ twoOr (x.staged.map (·.2.2)) ++ two x.phase

/-- A class indexed by one number from `lo` to `lo + n - 1`. -/
def readOne (lo n : Nat) (index : ReadIndex) (f : Nat → List Byte) : Option (List Byte) :=
  match index with
  | .one i => if lo ≤ i ∧ i < lo + n then some (f i) else none
  | .none => none
  | .range _ _ => none

/-- A phrase class, its indices from `lo` on. A range that runs past the table's end is out of range (log entry 53). -/
def readPhrase {n : Nat} (lo : Nat) (t : Vector (Option Nat) n) (index : ReadIndex) : Option (List Byte) :=
  match index with
  | .range first count =>
    if within 1 64 count ∧ lo ≤ first ∧ first + count ≤ lo + n then some (phraseBytes t first (first - lo) count) else none
  | .none => none
  | .one _ => none

/-- R179: the record of a class, or none for BAD_ARG. -/
def readRecord (w : Vol) (cls : Nat) (index : ReadIndex) : Option (List Byte) :=
  match cls with
  | 0 => readOne 0 64 index (zoneBytes w)
  | 1 => readOne 0 32 index (groupBytes w)
  | 2 => readOne 1 32 index (platformBytes w)
  | 3 => readOne 0 16 index (profileBytes w)
  | 4 => readOne 0 128 index (templateBytes w)
  | 5 => readPhrase 0 w.hours index
  | 6 => readPhrase 0 w.minutes index
  | 7 => readPhrase 1 w.numbers index
  | 8 => readPhrase 1 w.platPhrases index
  | 9 => readPhrase 0 w.dests index
  | 10 => readOne 0 16 index (lineBytes w)
  | 11 => readOne 0 4 index (genBytes w)
  | 12 =>
    match index with
    | .none => some (two w.align.delay ++ [byteOf w.rampRate])
    | .one _ => none
    | .range _ _ => none
  | 13 => some (List.replicate 16 0xFF)
  | 14 => some (List.replicate 16 0xFF)
  | 15 => some (List.replicate 16 0xFF)
  | _ => none

/-- R179. -/
def actTableRead (cls : Nat) (index : ReadIndex) : Act := fun s =>
  match readRecord s.vol cls index with
  | some bs => ({ code := .ok, body := .record bs }, s)
  | none => refuse .badArg s

end Sys2Proof.Machine
end

