-- ==== Sys2Proof/Machine/Acts.lean ====
section
/-! DEFINITION. What the owners of the remaining requests do: station clock, call table, request queue, live source table,
mixer, evacuation controller. -/

namespace Sys2Proof.Machine

/-! ### TIME (R55) -/

/-- R55: the request is a jump: the clock was SET and the times differ by more than 2 s. -/
def StationClock.jumps (c : StationClock) (t : Nat) : Bool := c.isSet && (decide (c.time + 2 < t) || decide (t + 2 < c.time))

/-- R55, R56; the queue's tests of the new time (R90) follow the walk (log entry 12). -/
def actTime (t dayBase : Nat) : Act := fun s =>
  if t < dayBase ∨ 86400 ≤ t - dayBase then refuse .badArg s
  else
    let old := s.vol.clock
    let w := { s.vol with clock := { isSet := true, time := t, dayBase := dayBase, marks := 0 } }
    let w := if old.jumps t then w.notify (.timeJump old.time t) else w
    let w := if old.isSet = false ∨ old.time < t then w.walkAll s.nv else w
    okVol s (w.queueTime s.nv)

/-! ### Calls (R58, R71, R75, R77, R78) -/

/-- R58: the call a load makes. -/
def CallLoad.call (c : CallLoad) : Call :=
  { kind := c.kind, service := c.service, destination := c.destination, platform := c.platform, scheduled := c.scheduled,
    expected := c.expected, profile := c.profile, state := .planned, held := none, announced := false,
    delayRef := delayMinutes c.scheduled c.expected, arrival := none, gone := none }

/-- R58. -/
def actCallLoad (c : CallLoad) : Act := fun s =>
  if !c.inRange then refuse .badArg s
  else if (s.vol.call c.slot).isSome then refuse .inUse s
  else okVol s (((s.vol.setCall c.slot (some (CallLoad.call c))).remakeDue c.slot).walkOne s.nv c.slot)

/-- R71, check 1: at least one field, the platform 1 to 32 or none. -/
def updateInRange (slot : Nat) (expected platform : Carried Nat) : Bool :=
  decide (slot < 256)
    && (match expected, platform with
      | .left, .left => false
      | _, _ => true)
    && (match platform with
      | .left => true
      | .cleared => true
      | .value p => within 1 32 p)

/-- The new value of a field that may be left out. -/
def Carried.toUpdate {α : Type} : Carried α → Option (Option α)
  | .left => none
  | .cleared => some none
  | .value a => some (some a)

/-- R71, check 4: a call in BOARDING or FINAL is asked onto another platform that has an occupant. -/
def Vol.updateConflicts (w : Vol) (c : Call) (platform : Option (Option Nat)) : Option Nat :=
  match platform with
  | some (some p) =>
    if c.state.occupies ∧ c.platform ≠ some p ∧ (w.platform p).occupant.isSome then some p else none
  | some none => none
  | none => none

/-- The states of a call that take an update (R71, check 3). -/
def CallState.updatable : CallState → Bool
  | .planned => true
  | .approaching => true
  | .boarding => true
  | .final => true
  | .atPlatform => false
  | .gone => false
  | .cancelled => false

/-- R71 to R74. -/
def actCallUpdate (slot : Nat) (expected platform : Carried Nat) : Act := fun s =>
  if !updateInRange slot expected platform then refuse .badArg s
  else match s.vol.call slot with
    | none => refuse .notFound s
    | some c =>
      let e := Carried.toUpdate expected
      let p := Carried.toUpdate platform
      if c.state.updatable = false ∨ (p = some none ∧ c.state.occupies = true) then refuse .wrongState s
      else match s.vol.updateConflicts c p with
        | some q => (.of .conflict, { s with vol := s.vol.modPlatform q fun x => { x with conflict := true } })
        | none =>
          let w := match p with
            | some p => s.vol.updatePlatform s.nv slot p
            | none => s.vol
          let w := match e with
            | some e => w.updateExpected s.nv slot e
            | none => w
          okVol s w

/-- R75: the mark ARRIVED. -/
def actMarkArrived (slot : Nat) : Act := fun s =>
  if 256 ≤ slot then refuse .badArg s
  else match s.vol.call slot with
    | none => refuse .notFound s
    | some c =>
      match c.platform with
      | none => refuse .wrongState s
      | some p =>
        if c.kind = .arrive ∧ c.state = .approaching ∧ c.held = none then
          let code : ResultCode := if (s.vol.platform p).occupant.isSome then .accepted else .ok
          (.of code, { s with vol := s.vol.tryPlatform s.nv slot .atPlatform false })
        else refuse .wrongState s

/-- R75: the mark DEPARTED. -/
def actMarkDeparted (slot : Nat) : Act := fun s =>
  if 256 ≤ slot then refuse .badArg s
  else match s.vol.call slot with
    | none => refuse .notFound s
    | some c =>
      if (c.kind = .depart ∧ c.state = .final) ∨ (c.kind = .arrive ∧ c.state = .atPlatform) then
        okVol s (s.vol.enterGone s.nv slot false)
      else refuse .wrongState s

/-- R77: the cancellation of a call, in its five steps. The CANCELLED request is handed over before the platform is offered, so
before the withdrawals that the transition of a held call makes in the same event (log entry 54). -/
def Vol.cancelCall (w : Vol) (nv : Nonvolatile) (slot : Nat) : Vol :=
  let w := w.supersede nv slot none .withdrawn
  let w := w.modCall slot fun c => { c with state := .cancelled, gone := some w.clock.time, held := none }
  let w := w.endTransition nv slot (some .cancelled) false
  let (freed, w) := w.freePlatform slot
  match freed with
  | some p => w.offerPlatform nv p
  | none => w

/-- R77. -/
def actCallCancel (slot : Nat) : Act := fun s =>
  if 256 ≤ slot then refuse .badArg s
  else match s.vol.call slot with
    | none => refuse .notFound s
    | some c =>
      if c.state = .atPlatform ∨ c.state = .gone ∨ c.state = .cancelled then refuse .wrongState s
      else okVol s (s.vol.cancelCall s.nv slot)

/-- R78. -/
def actCallRemove (slot : Nat) : Act := fun s =>
  if 256 ≤ slot then refuse .badArg s
  else match s.vol.call slot with
    | none => refuse .notFound s
    | some c => ({ code := .ok, body := .announced c.announced }, { s with vol := s.vol.removeCall s.nv slot })

/-! ### ANNOUNCE and ANNOUNCE CANCEL (R94, R95) -/

/-- R85: a DIRECT request. A not-before earlier than the station time is taken as the station time (R94). -/
def Vol.directRequest (w : Vol) (a : Announcement) (t : Template) : Request :=
  let r := w.requestFrom t a.template .direct
  let nb := max w.clock.time (a.notBefore.getD w.clock.time)
  { r with override := a.group, values := some a.values, priority := a.priority.getD t.priority, notBefore := nb,
           expiry := expiryFrom nb (some t.window) }

/-- R94. A request evicted for this one leaves the queue before this one takes its number: the model's choice (log entry 57). -/
def actAnnounce (a : Announcement) : Act := fun s =>
  if !a.inRange then refuse .badArg s
  else match s.vol.template a.template with
    | none => refuse .notFound s
    | some t =>
      let r := s.vol.directRequest a t
      if s.vol.evac.state = .evacuate ∧ r.priority < 12 then refuse .evacActive s
      else match s.vol.makeRoom r.priority with
        | none => (.of .noRoom, { s with vol := s.vol.modEngine fun e => { e with queueLatch := true } })
        | some w =>
          let (r, w) := w.numberRequest r
          ({ code := .accepted, body := .number r.number }, { s with vol := w.enterQueue s.nv r })

/-- R95. -/
def actAnnounceCancel (n : Nat) : Act := fun s =>
  match s.vol.request n with
  | none => refuse .notFound s
  | some r =>
    if r.origin = .evac then refuse .wrongState s
    else if r.isPlaying then okVol s (s.vol.modRequest n fun x => { x with cancelPending := true })
    else okVol s ((s.vol.removeRequest n .cancelled).handOut s.nv)

/-! ### Live sources (R36, R38) -/

/-- R36, without the evacuation flag. -/
def actLiveStart (l : LiveStart) : Act := fun s =>
  if l.inRange = false ∨ 13 < l.priority then refuse .badArg s
  else if (s.vol.source l.lane).isSome then refuse .busy s
  else match s.vol.openSource l.lane .request l.group l.priority l.limit with
    | some w => okVol s w
    | none => refuse .badArg s

/-- R36, R158, with the evacuation flag. -/
def actLiveStartEvac (l : LiveStart) : Act := fun s =>
  if l.inRange = false then refuse .badArg s
  else match s.vol.evac.lane with
    | none => refuse .wrongState s
    | some lane =>
      if s.vol.evac.state = .normal then refuse .wrongState s
      else if s.vol.evacSourceOpen then refuse .busy s
      else if s.vol.group 31 = [] then refuse .badArg s
      else match s.vol.openEvacSource lane none with
        | some w => okVol s w
        | none => refuse .badArg s

/-- R38. -/
def actLiveStop (lane : Nat) : Act := fun s =>
  if 32 ≤ lane then refuse .badArg s
  else if (s.vol.source lane).isNone then refuse .notFound s
  else okVol s (s.vol.closeSource lane .stopped)

/-! ### Gain (R45, R52) -/

/-- R45: an entry stages the bases it carries. -/
def Vol.stageGain (w : Vol) (e : GainEntry) : Vol :=
  w.modGain e.zone fun g => { g with stagedFg := e.fg.or g.stagedFg, stagedBg := e.bg.or g.stagedBg }

/-- R45. -/
def actGainSet (entries : List GainEntry) : Act := fun s =>
  if within 1 64 entries.length ∧ entries.all GainEntry.inRange = true ∧ distinct (entries.map (·.zone)) = true then
    okVol s (entries.foldl Vol.stageGain s.vol)
  else refuse .badArg s

/-- R52. -/
def actMonitor (zone : Option Nat) : Act := fun s =>
  if optBelow 64 zone then okVol s { s.vol with monitor := zone } else refuse .badArg s

/-! ### Evacuation (R151) -/

def actEvacStart : Act := fun s =>
  if s.vol.evac.state = .normal then okVol s (s.vol.enterAlert s.nv .start) else refuse .ok s

def actEvacEscalate : Act := fun s =>
  if s.vol.evac.state = .evacuate then refuse .ok s else okVol s (s.vol.enterEvacuate s.nv .escalate)

def actEvacStop : Act := fun s =>
  if s.vol.evac.state = .normal ∨ s.vol.lineHolds = true then refuse .wrongState s
  else okVol s (s.vol.returnNormal s.nv .stop)

end Sys2Proof.Machine
end

