-- ==== Sys2Proof/WellFormed.lean ====
section
/-! DEFINITION. Well-formed commands: every operand fits the coding R174 and R179 give it (one byte up to 255, two bytes
above, four bytes for station times), a station page is 4,096 bytes long, and a row's operand is one the row is about. -/

namespace Sys2Proof

/-- Fits one byte. -/
def isByte (n : Nat) : Bool := decide (n < 256)

/-- Fits two bytes. -/
def isWord (n : Nat) : Bool := decide (n < 65536)

/-- Fits four bytes: a station time or a 32-bit value. -/
def isQuad (n : Nat) : Bool := decide (n < 4294967296)

/-- Fits one byte and is not all ones, or is none: a field that may be none (R174). -/
def isByteOrNone : Option Nat → Bool
  | none => true
  | some n => decide (n < 255)

/-- A clip number of a phrase entry, or empty (R179): two bytes, all ones for empty. -/
def isWordOrNone : Option Nat → Bool
  | none => true
  | some n => decide (n < 65535)

/-- An optional field of four bytes with a presence byte (R174). -/
def isQuadOrLeft : Option Nat → Bool
  | none => true
  | some n => isQuad n

def RequestHeader.wf (h : RequestHeader) : Bool :=
  isByte h.destination && isByte h.source && isWord h.tag

def Carried.wf (ok : Nat → Bool) : Carried Nat → Bool
  | .left => true
  | .cleared => true
  | .value n => ok n

def Item.wf : Item → Bool
  | .clip c => isWord c
  | .field _ => true
  | .pause n => isWord n
  | .tone t n => isByte t && isWord n

def ListItem.wf : ListItem → Bool
  | .clip c => isWord c
  | .tone t n => isByte t && isWord n

def Target.wf : Target → Bool
  | .group g => isByte g
  | .callPlatform => true
  | .profile => true

def OutSource.wf : OutSource → Bool
  | .zoneHeld z => isByte z
  | .zoneFaulted z => isByte z
  | .platformOccupied p => isByte p
  | .platformFinal p => isByte p
  | .evacNotNormal => true
  | .alertRaised => true

def LineFn.wf : LineFn → Bool
  | .plain => true
  | .talk l g p => isByte l && isByte g && isByte p
  | .trainPresent p => isByte p
  | .doorsClosed p => isByte p
  | .platformWarn p => isByte p
  | .zoneFault z => isByte z
  | .output src gen _ _ => src.wf && isByte gen
  | .evac _ => true

def ZoneRecord.wf (r : ZoneRecord) : Bool :=
  isByte r.zone && isByteOrNone r.port && isByteOrNone r.slot && isByteOrNone r.bgLane && isByte r.bgBase
    && isByte r.duck && isByte r.fgBase && isByte r.evacBase && isByteOrNone r.fallback && isByte r.compRef
    && isByte r.compLimit

def ProfileRecord.wf (r : ProfileRecord) : Bool :=
  isByte r.profile && isWord r.approachLead && isWord r.boardingLead && isWord r.finalLead && isWord r.clearDelay
    && isByte r.delayThreshold && isByteOrNone r.concourse && r.templates.toList.all isByteOrNone

def TemplateRecord.wf (r : TemplateRecord) : Bool :=
  isByte r.template && r.target.wf && isByte r.priority && isByte r.repeats && isWord r.gap && isWord r.window
    && isByte r.items.length && r.items.all Item.wf

def CallLoad.wf (c : CallLoad) : Bool :=
  isByte c.slot && isWord c.service && isByte c.destination && isByteOrNone c.platform && isQuad c.scheduled
    && isQuadOrLeft c.expected && isByte c.profile

def FieldValues.wf (v : FieldValues) : Bool :=
  isByteOrNone v.platform && (v.destination.all isByte) && isQuadOrLeft v.scheduled && isQuadOrLeft v.expected
    && v.delay.all isWord

def Announcement.wf (a : Announcement) : Bool :=
  isByte a.template && a.priority.all isByte && isByteOrNone a.group && isQuadOrLeft a.notBefore && a.values.wf

def LiveStart.wf (l : LiveStart) : Bool :=
  isByte l.lane && isByte l.group && isByte l.priority && isWord l.limit

def GainEntry.wf (e : GainEntry) : Bool :=
  isByte e.zone && e.fg.all isByte && e.bg.all isByte

def ProgramFields.wf (p : ProgramFields) : Bool :=
  isByteOrNone p.lane && isByte p.alertList.length && isByte p.evacList.length && p.alertList.all ListItem.wf
    && p.evacList.all ListItem.wf && isWord p.duration
    && p.lines.toList.all fun l => match l with
      | none => true
      | some e => isByte e.debounce

/-- A list of phrase entries as a record carries it (R83, R179). -/
def phraseWf (first : Nat) (entries : List (Option Nat)) : Bool :=
  isWord first && isByte entries.length && entries.all isWordOrNone

def ReadIndex.wf : ReadIndex → Bool
  | .none => true
  | .one i => isByte i
  | .range a c => isWord a && isByte c

/-- A command whose operands can be sent. -/
def Instr.wf : Instr → Bool
  | .powerOn | .powerLoss | .lineReset | .resetRelease _ | .scanComplete => true
  | .frameClockFrame _ | .generatorPeriodEnd _ | .contactEdge _ | .lineSettle _ _ | .secondAdvance => true
  | .dueEntryTaken => true
  | .requestReady n => isWord n
  | .requestExpired n => isWord n
  | .pageReadComplete _ | .voiceStart _ | .voiceResume _ | .voiceEnd _ | .voiceCancelStop _ | .evacListChange => true
  | .zoneSilenceExpiry _ | .talkLimit _ | .laneAbsent _ | .alertTimerExpiry => true
  | .programmingComplete | .verifyComplete _ | .eraseComplete | .programWriteComplete _ => true
  | .portActivity _ | .portActivityLost _ | .syncFound _ _ | .upstreamFrame _ | .nodeReturnFrame _ _ => true
  | .upMessageDiscarded m =>
    isByte m.destination && isByte m.source && isByte m.kind && isByte m.cls && isWord m.tag
  | .requestUnknownKind h k => h.wf && isByte k && !(decide (1 ≤ k) && decide (k ≤ 32))
  | .zoneReport _ r => isByte r.cls && isByte r.kind && isByte r.slot && isByte r.condition && isByteOrNone r.ambient
  | .outboundMessageStart | .messageSendComplete => true
  | .hello h => h.wf
  | .address h a => h.wf && isByte a
  | .status h _ => h.wf
  | .resetAudio h => h.wf
  | .resetFull h => h.wf
  | .alertMask h cs => h.wf && isByte cs.length && cs.all isByte
  | .tableWriteZone h r => h.wf && r.wf
  | .tableWriteGroup h g ms => h.wf && isByte g && isByte ms.length && ms.all isByte
  | .tableWritePlatform h p g t => h.wf && isByte p && isByteOrNone g && isByteOrNone t
  | .tableWriteProfile h r => h.wf && r.wf
  | .tableWriteTemplate h r => h.wf && r.wf
  | .tableWriteHours h f es => h.wf && phraseWf f es
  | .tableWriteMinutes h f es => h.wf && phraseWf f es
  | .tableWriteNumbers h f es => h.wf && phraseWf f es
  | .tableWritePlatformsPhrase h f es => h.wf && phraseWf f es
  | .tableWriteDestinations h f es => h.wf && phraseWf f es
  | .tableWriteContactLine h r => h.wf && isByte r.line && r.fn.wf && isByte r.debounce
  | .tableWriteGenerator h g p r f => h.wf && isByte g && isWord p && isWord r && isWord f
  | .tableWriteLinkConfig h d r => h.wf && isWord d && isByte r
  | .tableWriteUnassigned h c => h.wf && decide (13 ≤ c) && decide (c ≤ 15)
  | .tableRead h c i => h.wf && isByte c && i.wf
  | .time h t b => h.wf && isQuad t && isQuad b
  | .callLoad h c => h.wf && c.wf
  | .callUpdate h s e p => h.wf && isByte s && e.wf isQuad && p.wf isByte
  | .callMarkArrived h s => h.wf && isByte s
  | .callMarkDeparted h s => h.wf && isByte s
  | .callCancel h s => h.wf && isByte s
  | .callRemove h s => h.wf && isByte s
  | .announce h a => h.wf && a.wf
  | .announceCancel h n => h.wf && isWord n
  | .liveStart h l => h.wf && l.wf
  | .liveStartEvac h l => h.wf && l.wf
  | .liveStop h l => h.wf && isByte l
  | .gainSet h es => h.wf && isByte es.length && es.all GainEntry.wf
  | .monitorSelect h z => h.wf && isByteOrNone z
  | .evacStart h => h.wf
  | .evacEscalate h => h.wf
  | .evacStop h => h.wf
  | .clipOpen h c _ n => h.wf && isWord c && isWord n
  | .pageWrite h c i d => h.wf && isWord c && isByte i && decide (d.length = 4096)
  | .clipSeal h c n _ => h.wf && isWord c && isQuad n
  | .clipRetire h c => h.wf && isWord c
  | .sectorEraseArm h _ s => h.wf && isByte s
  | .sectorEraseGo h _ s => h.wf && isByte s
  | .storeAbort h => h.wf
  | .guardSet h _ => h.wf
  | .guardClear h _ => h.wf
  | .programWrite h p => h.wf && p.wf

end Sys2Proof
end

