-- ==== Sys2Proof/Machine/AdminRequests.lean ====
section
/-! DEFINITION. The requests of link and administration (R176, R180 to R183). -/

namespace Sys2Proof.Machine

/-- HELLO (R180). -/
def execHello (h : RequestHeader) (s : State) : Host.Outcome State Fault Refusal :=
  .next (takeRequest h 1 (Instr.wf (.hello h)) actHello s)

/-- ADDRESS (R176). -/
def execAddress (h : RequestHeader) (a : Nat) (s : State) : Host.Outcome State Fault Refusal :=
  .next (takeRequest h 2 (Instr.wf (.address h a)) (actAddress a) s)

/-- STATUS (R181). -/
def execStatus (h : RequestHeader) (clear : Bool) (s : State) : Host.Outcome State Fault Refusal :=
  .next (takeRequest h 3 (Instr.wf (.status h clear)) (actStatus clear) s)

/-- RESET, scope AUDIO (R183). -/
def execResetAudio (h : RequestHeader) (s : State) : Host.Outcome State Fault Refusal :=
  .next (takeRequest h 4 (Instr.wf (.resetAudio h)) actResetAudio s)

/-- RESET, scope FULL (R183). -/
def execResetFull (h : RequestHeader) (s : State) : Host.Outcome State Fault Refusal :=
  .next (takeRequest h 4 (Instr.wf (.resetFull h)) actResetFull s)

/-- ALERT MASK (R182). -/
def execAlertMask (h : RequestHeader) (conditions : List Nat) (s : State) : Host.Outcome State Fault Refusal :=
  .next (takeRequest h 5 (Instr.wf (.alertMask h conditions)) (actAlertMask conditions) s)

end Sys2Proof.Machine
end

