-- ==== Sys2Proof/Machine/Message.lean ====
section
/-! DEFINITION. Complete messages: the bodies of requests read from their bytes (R174, R179), requests handed to their
owners (R175), zone reports (R12). A body whose length is not the shape of its kind fails test 6 of R175; one that codes a
named value outside its list has passed it, and its owner's range check answers BAD_ARG. -/

namespace Sys2Proof.Machine

/-! ### Reading fields -/

def oneAt (bs : List Byte) (i : Nat) : Nat := (bs.getD i 0).toNat
def twoAt (bs : List Byte) (i : Nat) : Nat := valueOf ((bs.drop i).take 2)
def fourAt (bs : List Byte) (i : Nat) : Nat := valueOf ((bs.drop i).take 4)

/-- A one-byte field that may be none. -/
def maybeAt (bs : List Byte) (i : Nat) : Option Nat := if oneAt bs i = 255 then none else some (oneAt bs i)

/-- A two-byte field that may be none. -/
def maybeTwoAt (bs : List Byte) (i : Nat) : Option Nat := if twoAt bs i = 65535 then none else some (twoAt bs i)

/-- ON or OFF. -/
def flagAt (bs : List Byte) (i : Nat) : Option Bool :=
  match oneAt bs i with
  | 0 => some false
  | 1 => some true
  | _ => none

/-- A field behind its presence byte at `i`, its value already read (R174). Under presence 0 or 1 the field's bytes are not
looked at (log entry 47). -/
def carriedAt (bs : List Byte) (i value : Nat) : Option (Carried Nat) :=
  match oneAt bs i with
  | 0 => some .left
  | 1 => some .cleared
  | 2 => some (.value value)
  | _ => none

/-- An optional field behind its presence byte at `i`; none counts as not carried, in a base of GAIN SET too (R45, R174; log
entry 14). Without a value the field's bytes are not looked at (log entry 47). -/
def optionalAt (bs : List Byte) (i value : Nat) : Option (Option Nat) :=
  match oneAt bs i with
  | 0 => some none
  | 1 => some none
  | 2 => some (some value)
  | _ => none

/-- Element `i` of the list of a named value. -/
def namedAt {α : Type} (bs : List Byte) (i : Nat) (l : List α) : Option α := l[oneAt bs i]?

/-- The given bytes in groups of `n`, each read. -/
def chunksOf {α : Type} (n : Nat) (f : List Byte → Option α) : Nat → List Byte → Option (List α)
  | 0, _ => some []
  | count + 1, bs => do
    let x ← f (bs.take n)
    let t ← chunksOf n f count (bs.drop n)
    pure (x :: t)

/-- R175, test 6: a body of the shape of its kind goes to its owner, with what its fields ask; none for another length. A body
of the right length whose fields name a value outside its list asks nothing, and the owner's range check answers BAD_ARG. -/
def handed (shape : Bool) (fields : Option Act) : Option Act := if shape then some (fields.getD (refuse .badArg)) else none

/-- A body of `n` bytes. -/
def ofLength (bs : List Byte) (n : Nat) (fields : Option Act) : Option Act := handed (decide (bs.length = n)) fields

/-! ### Records (R179) -/

def bankAt (bs : List Byte) (i : Nat) : Option ClipBank := namedAt bs i [.r, .a, .b]
def polarityAt (bs : List Byte) (i : Nat) : Option Polarity := namedAt bs i [.activeHigh, .activeLow]

/-- A ZONE record, alone or with its read-only fields, which are not looked at. Their wait list is taken with every length its
byte can give, 0 to 255, though a read never gives more than the 40 claims there are (log entry 49). -/
def readZone (bs : List Byte) : Option Act :=
  handed (decide (bs.length = 13 ∨ (26 ≤ bs.length ∧ bs.length = 26 + oneAt bs 25))) do
    let enabled ← flagAt bs 3
    let compOn ← flagAt bs 10
    pure (actWriteZone
      { zone := oneAt bs 0, port := maybeAt bs 1, slot := maybeAt bs 2, enabled := enabled, bgLane := maybeAt bs 4,
        bgBase := oneAt bs 5, duck := oneAt bs 6, fgBase := oneAt bs 7, evacBase := oneAt bs 8, fallback := maybeAt bs 9,
        compOn := compOn, compRef := oneAt bs 11, compLimit := oneAt bs 12 })

def readGroup (bs : List Byte) : Option Act :=
  handed (decide (2 ≤ bs.length ∧ bs.length = 2 + oneAt bs 1))
    (some (actWriteGroup (oneAt bs 0) ((bs.drop 2).map fun x => x.toNat)))

def readPlatform (bs : List Byte) : Option Act :=
  handed (decide (bs.length = 3 ∨ bs.length = 7)) (some (actWritePlatform (oneAt bs 0) (maybeAt bs 1) (maybeAt bs 2)))

def readProfile (bs : List Byte) : Option Act :=
  ofLength bs 18 (some (actWriteProfile
    { profile := oneAt bs 0, approachLead := twoAt bs 1, boardingLead := twoAt bs 3, finalLead := twoAt bs 5,
      clearDelay := twoAt bs 7, delayThreshold := oneAt bs 9, concourse := maybeAt bs 10,
      templates := Vector.ofFn fun i : Fin 7 => maybeAt bs (11 + i) }))

/-- A template item: kind, value, tone. A byte its kind does not use is not looked at (log entry 47). -/
def readItem (bs : List Byte) : Option Item :=
  match oneAt bs 0 with
  | 0 => some (.clip (twoAt bs 1))
  | 1 => ([SpokenField.platform, .destination, .scheduled, .expected, .delay][twoAt bs 1]?).map .field
  | 2 => some (.pause (twoAt bs 1))
  | 3 => some (.tone (oneAt bs 3) (twoAt bs 1))
  | _ => none

/-- A fragment of PROGRAM WRITE, in the layout of a template item, its unused bytes not looked at either (log entry 47). -/
def readListItem (bs : List Byte) : Option ListItem :=
  match oneAt bs 0 with
  | 0 => some (.clip (twoAt bs 1))
  | 3 => some (.tone (oneAt bs 3) (twoAt bs 1))
  | _ => none

/-- A target and its argument, which is looked at for a group only (log entry 47). -/
def readTarget (bs : List Byte) (i : Nat) : Option Target :=
  match oneAt bs i with
  | 0 => some (.group (oneAt bs (i + 1)))
  | 1 => some .callPlatform
  | 2 => some .profile
  | _ => none

/-- A record with no items makes the template empty; its other fields are not looked at (R82). -/
def readTemplate (bs : List Byte) : Option Act :=
  handed (decide (12 ≤ bs.length ∧ bs.length = 12 + 4 * oneAt bs 11))
    (if oneAt bs 11 = 0 then
      some (actWriteTemplate
        { template := oneAt bs 0, target := .group 0, priority := 0, mode := .whole, resume := .restart, repeats := 1,
          gap := 10, window := 0, items := [] })
    else do
      let target ← readTarget bs 1
      let mode ← namedAt bs 4 [ClaimMode.whole, .part, .join]
      let resume ← namedAt bs 5 [ResumePolicy.restart, .abandon]
      let items ← chunksOf 4 readItem (oneAt bs 11) (bs.drop 12)
      pure (actWriteTemplate
        { template := oneAt bs 0, target := target, priority := oneAt bs 3, mode := mode, resume := resume,
          repeats := oneAt bs 6, gap := twoAt bs 7, window := twoAt bs 9, items := items }))

/-- A record of a phrase class, handed to the class's write. -/
def readPhrases (write : Nat → List (Option Nat) → Act) (bs : List Byte) : Option Act :=
  handed (decide (3 ≤ bs.length ∧ bs.length = 3 + 2 * oneAt bs 2)) do
    let entries ← chunksOf 2 (fun e => some (maybeTwoAt e 0)) (oneAt bs 2) (bs.drop 3)
    pure (write (twoAt bs 0) entries)

/-- The source of an OUTPUT line with its argument, which is not looked at where it takes none (log entry 44). -/
def readSource (code arg : Nat) : Option OutSource :=
  match code with
  | 0 => some (.zoneHeld arg)
  | 1 => some (.zoneFaulted arg)
  | 2 => some (.platformOccupied arg)
  | 3 => some (.platformFinal arg)
  | 4 => some .evacNotNormal
  | 5 => some .alertRaised
  | _ => none

/-- An evacuation function by its code. -/
def readEvacFn : Nat → Option EvacFn
  | 7 => some .alert
  | 8 => some .full
  | 9 => some .talk
  | 10 => some .reset
  | _ => none

/-- A line function and its five parameter bytes from `i` on. Bytes the function does not use are not looked at (log entry
44). -/
def readFn (bs : List Byte) (code i : Nat) : Option LineFn :=
  match code with
  | 0 => some .plain
  | 1 => some (.talk (oneAt bs i) (oneAt bs (i + 1)) (oneAt bs (i + 2)))
  | 2 => some (.trainPresent (oneAt bs i))
  | 3 => some (.doorsClosed (oneAt bs i))
  | 4 => some (.platformWarn (oneAt bs i))
  | 5 => some (.zoneFault (oneAt bs i))
  | 6 => do
    let src ← readSource (oneAt bs i) (oneAt bs (i + 1))
    let invert ← flagAt bs (i + 3)
    let force ← namedAt bs (i + 4) [Force.none, .on, .off]
    pure (.output src (oneAt bs (i + 2)) invert force)
  | n => (readEvacFn n).map .evac

def readLine (bs : List Byte) : Option Act :=
  handed (decide (bs.length = 10 ∨ bs.length = 14)) do
    let fn ← readFn bs (oneAt bs 1) 5
    let polarity ← polarityAt bs 2
    let report ← namedAt bs 4 [EdgeReport.none, .rising, .falling, .both]
    pure (actWriteLine { line := oneAt bs 0, fn := fn, polarity := polarity, debounce := oneAt bs 3, report := report })

def readGenerator (bs : List Byte) : Option Act :=
  handed (decide (bs.length = 7 ∨ bs.length = 16))
    (some (actWriteGenerator (oneAt bs 0) (twoAt bs 1) (twoAt bs 3) (twoAt bs 5)))

/-- R179: a TABLE WRITE record of a class. A record of the unassigned classes has any length (log entry 46). -/
def readWrite (cls : Nat) (bs : List Byte) : Option Act :=
  match cls with
  | 0 => readZone bs
  | 1 => readGroup bs
  | 2 => readPlatform bs
  | 3 => readProfile bs
  | 4 => readTemplate bs
  | 5 => readPhrases actWriteHours bs
  | 6 => readPhrases actWriteMinutes bs
  | 7 => readPhrases actWriteNumbers bs
  | 8 => readPhrases actWritePlatPhrases bs
  | 9 => readPhrases actWriteDests bs
  | 10 => readLine bs
  | 11 => readGenerator bs
  | 12 => ofLength bs 3 (some (actWriteLink (twoAt bs 0) (oneAt bs 2)))
  | 13 => some actWriteUnassigned
  | 14 => some actWriteUnassigned
  | 15 => some actWriteUnassigned
  | _ => none

/-- R179: TABLE READ of a class, its index fields read. Those of an unassigned class have any length (log entry 46). -/
def readIndexFields (cls : Nat) (bs : List Byte) : Option Act :=
  if 13 ≤ cls then some (actTableRead cls .none)
  else if cls = 12 then ofLength bs 0 (some (actTableRead cls .none))
  else if 5 ≤ cls ∧ cls ≤ 9 then ofLength bs 3 (some (actTableRead cls (.range (twoAt bs 0) (oneAt bs 2))))
  else ofLength bs 1 (some (actTableRead cls (.one (oneAt bs 0))))

/-! ### Bodies -/

def readCallLoad (bs : List Byte) : Option Act :=
  ofLength bs 16 do
    let kind ← namedAt bs 1 [CallKind.arrive, .depart]
    let expected ← optionalAt bs 10 (fourAt bs 11)
    pure (actCallLoad
      { slot := oneAt bs 0, kind := kind, service := twoAt bs 2, destination := oneAt bs 4, platform := maybeAt bs 5,
        scheduled := fourAt bs 6, expected := expected, profile := oneAt bs 15 })

def readCallUpdate (bs : List Byte) : Option Act :=
  ofLength bs 8 do
    let expected ← carriedAt bs 1 (fourAt bs 2)
    let platform ← carriedAt bs 6 (oneAt bs 7)
    pure (actCallUpdate (oneAt bs 0) expected platform)

def readCallMark (bs : List Byte) : Option Act :=
  ofLength bs 2
    (match oneAt bs 1 with
      | 0 => some (actMarkArrived (oneAt bs 0))
      | 1 => some (actMarkDeparted (oneAt bs 0))
      | _ => none)

def readAnnounce (bs : List Byte) : Option Act :=
  ofLength bs 27 do
    let priority ← optionalAt bs 1 (oneAt bs 2)
    let group ← optionalAt bs 3 (oneAt bs 4)
    let notBefore ← optionalAt bs 5 (fourAt bs 6)
    let platform ← optionalAt bs 10 (oneAt bs 11)
    let destination ← optionalAt bs 12 (oneAt bs 13)
    let scheduled ← optionalAt bs 14 (fourAt bs 15)
    let expected ← optionalAt bs 19 (fourAt bs 20)
    let delay ← optionalAt bs 24 (twoAt bs 25)
    pure (actAnnounce
      { template := oneAt bs 0, priority := priority, group := group, notBefore := notBefore,
        values := { platform := platform, destination := destination, scheduled := scheduled, expected := expected,
                    delay := delay } })

def readLiveStart (bs : List Byte) : Option Act :=
  ofLength bs 6 do
    let evacuation ← flagAt bs 5
    let l : LiveStart := { lane := oneAt bs 0, group := oneAt bs 1, priority := oneAt bs 2, limit := twoAt bs 3 }
    pure (if evacuation then actLiveStartEvac l else actLiveStart l)

def readGainEntry (bs : List Byte) : Option GainEntry := do
  let fg ← optionalAt bs 1 (oneAt bs 2)
  let bg ← optionalAt bs 3 (oneAt bs 4)
  pure { zone := oneAt bs 0, fg := fg, bg := bg }

def readGainSet (bs : List Byte) : Option Act :=
  handed (decide (1 ≤ bs.length ∧ bs.length = 1 + 5 * oneAt bs 0))
    ((chunksOf 5 readGainEntry (oneAt bs 0) (bs.drop 1)).map actGainSet)

def guardAt (bs : List Byte) (i : Nat) : Option GuardMark := namedAt bs i [GuardMark.g1, .g2]

/-- SECTOR ERASE GO. A bank byte that names no bank fails the owner's range check, and the erase arm is taken all the same
(R130). -/
def readEraseGo (bs : List Byte) : Option Act :=
  ofLength bs 2 (some
    (match bankAt bs 0 with
      | some bank => actEraseGo bank (oneAt bs 1)
      | none => eraseGoOutOfRange))

/-- An element of the evacuation lines of PROGRAM WRITE: all ones for none, its other bytes not looked at (log entry 47). -/
def readEvacLine (bs : List Byte) : Option (Option EvacLine) :=
  if oneAt bs 0 = 255 then some none
  else do
    let fn ← readEvacFn (oneAt bs 0)
    let polarity ← polarityAt bs 1
    pure (some { fn := fn, polarity := polarity, debounce := oneAt bs 2 })

/-- The two lists stand between the lane and the duration. -/
def readProgramWrite (bs : List Byte) : Option Act :=
  let n := oneAt bs 65
  let rest := bs.drop (66 + 4 * n)
  let m := oneAt rest 0
  let tail := rest.drop (1 + 4 * m)
  handed (decide (66 + 4 * n + 1 + 4 * m + 2 + 48 = bs.length)) do
    let enabled ← chunksOf 1 (fun e => flagAt e 0) 64 bs
    let alertList ← chunksOf 4 readListItem n (bs.drop 66)
    let evacList ← chunksOf 4 readListItem m (rest.drop 1)
    let lines ← chunksOf 3 readEvacLine 16 (tail.drop 2)
    pure (actProgramWrite
      { enabled := Vector.ofFn fun i : Fin 64 => enabled.getD i false, lane := maybeAt bs 64, alertList := alertList,
        evacList := evacList, duration := twoAt tail 0, lines := Vector.ofFn fun i : Fin 16 => (lines.getD i none) })

/-- R174, R175: what the body of a request of this kind asks; none when it fails test 6. -/
def readBody (kind : Nat) (bs : List Byte) : Option Act :=
  match kind with
  | 1 => ofLength bs 0 (some actHello)
  | 2 => ofLength bs 1 (some (actAddress (oneAt bs 0)))
  | 3 => ofLength bs 1 ((flagAt bs 0).map actStatus)
  | 4 => ofLength bs 1 (namedAt bs 0 [actResetAudio, actResetFull])
  | 5 => handed (decide (1 ≤ bs.length ∧ bs.length = 1 + oneAt bs 0)) (some (actAlertMask ((bs.drop 1).map fun x => x.toNat)))
  | 6 => if bs = [] then none else readWrite (oneAt bs 0) (bs.drop 1)
  | 7 => if bs = [] then none else readIndexFields (oneAt bs 0) (bs.drop 1)
  | 8 => ofLength bs 8 (some (actTime (fourAt bs 0) (fourAt bs 4)))
  | 9 => readCallLoad bs
  | 10 => readCallUpdate bs
  | 11 => readCallMark bs
  | 12 => ofLength bs 1 (some (actCallCancel (oneAt bs 0)))
  | 13 => ofLength bs 1 (some (actCallRemove (oneAt bs 0)))
  | 14 => readAnnounce bs
  | 15 => ofLength bs 2 (some (actAnnounceCancel (twoAt bs 0)))
  | 16 => readLiveStart bs
  | 17 => ofLength bs 1 (some (actLiveStop (oneAt bs 0)))
  | 18 => readGainSet bs
  | 19 => ofLength bs 1 (some (actMonitor (maybeAt bs 0)))
  | 20 => ofLength bs 0 (some actEvacStart)
  | 21 => ofLength bs 0 (some actEvacEscalate)
  | 22 => ofLength bs 0 (some actEvacStop)
  | 23 => ofLength bs 5 ((bankAt bs 2).map fun k => actClipOpen (twoAt bs 0) k (twoAt bs 3))
  | 24 => ofLength bs 4099 (some (actPageWrite (twoAt bs 0) (oneAt bs 2) (bs.drop 3)))
  | 25 => ofLength bs 10 (some (actClipSeal (twoAt bs 0) (fourAt bs 2) (BitVec.ofNat 32 (fourAt bs 6))))
  | 26 => ofLength bs 2 (some (actClipRetire (twoAt bs 0)))
  | 27 => ofLength bs 2 ((bankAt bs 0).map fun k => actEraseArm k (oneAt bs 1))
  | 28 => readEraseGo bs
  | 29 => ofLength bs 0 (some actStoreAbort)
  | 30 => ofLength bs 1 ((guardAt bs 0).map actGuardSet)
  | 31 => ofLength bs 1 ((guardAt bs 0).map actGuardClear)
  | 32 => readProgramWrite bs
  | _ => none

/-- R175: a complete message handed to the message engine by UP, given without its check. -/
def takeMessage (bs : List Byte) (s : State) : State :=
  if oneAt bs 3 ≠ 1 then { s with vol := s.vol.discardClass }
  else
    let h : RequestHeader := { destination := oneAt bs 0, source := oneAt bs 1, tag := twoAt bs 4 }
    let kind := oneAt bs 2
    let act := readBody kind (bs.drop 8)
    takeRequest h kind act.isSome (act.getD (refuse .badArg)) s

/-! ### Zone reports (R12) -/

/-- The zone placed on a downstream port (0 to 3) at a slot. -/
def Vol.zoneAt (w : Vol) (p slot : Nat) : Option Nat :=
  (List.range 64).find? fun z => decide ((w.zone z).placement = some (p, slot))

end Sys2Proof.Machine

namespace Sys2Proof

/-- R12: the message is a notice of kind ZONE REPORT with a slot and an ambient level in range. -/
def ReportMessage.passes (r : ReportMessage) : Bool :=
  decide (r.cls = 3) && decide (r.kind = 78) && decide (r.slot < 16) && optWithin 30 110 r.ambient

end Sys2Proof

namespace Sys2Proof.Machine

/-- R12: the zone a report belongs to and the condition it applies, or none when it is discarded. -/
def Vol.reportTarget (w : Vol) (p : Nat) (r : ReportMessage) : Option (Nat × LineCond) :=
  if r.passes then
    match reportedCond r.condition, w.zoneAt p r.slot with
    | some c, some z => some (z, c)
    | _, _ => none
  else none

/-- R12: a complete message from downstream port `p`, 0 to 3. -/
def takeReport (p : Nat) (r : ReportMessage) (s : State) : State :=
  match s.vol.reportTarget p r with
  | none => { s with vol := { s.vol with reportDiscards := satInc s.vol.reportDiscards } }
  | some (z, c) => State.finish { s with vol := s.vol.zoneEvent s.nv z fun x => x.applyReport c r.ambient }

/-- The report a complete message codes: a body of another length than three bytes has no slot. -/
def reportOf (bs : List Byte) : ReportMessage :=
  let body := bs.drop 8
  { cls := oneAt bs 3, kind := oneAt bs 2, slot := if body.length = 3 then oneAt body 0 else 255, condition := oneAt body 1,
    ambient := maybeAt body 2 }

end Sys2Proof.Machine
end

