-- ==== Sys2Proof/Machine/Frame.lean ====
section
/-! DEFINITION. A frame of the frame clock (R169): the block mark, the production of samples, the mix and the frames sent;
and the parts of a block mark that a command can take ahead of the rest (log entry 6). -/

namespace Sys2Proof.Machine

namespace Vol

/-! ### The parts of a block mark -/

/-- A part of the coming block mark still to be taken. -/
def open? (w : Vol) (m : MarkPart) : Bool := w.atMark && !w.taken m

/-- R54: the block mark completes a second. -/
def secondDue (w : Vol) : Bool := w.clock.isSet && decide (1000 ≤ w.clock.marks + 1)

/-- R54, R90: the station clock takes a block mark. A second that a command has taken ahead leaves the queue's tests of the
new time to the block mark. -/
def clockMark (w : Vol) (nv : Nonvolatile) : Vol :=
  if w.taken .second then (w.queueTime nv).finish nv
  else if w.secondDue then ((w.advanceSecond nv).queueTime nv).finish nv
  else if w.clock.isSet then { w with clock := { w.clock with marks := w.clock.marks + 1 } }
  else w

/-- R14: the next block mark brings the silence timer to its limit. -/
def silenceDue (w : Vol) (z : Nat) : Bool :=
  let x := w.zone z
  x.on && decide (x.silence < Config.silenceLimit) && decide (Config.silenceLimit ≤ x.silence + 1)

/-- R14: the silence timer of a zone takes a block mark. -/
def silenceMark (w : Vol) (nv : Nonvolatile) (z : Nat) : Vol :=
  let x := w.zone z
  if w.silenceDue z then (w.zoneEvent nv z Zone.goSilent).finish nv
  else if x.on ∧ x.silence < Config.silenceLimit then w.setZone z { x with silence := x.silence + 1 }
  else w

/-- R154: the next block mark ends the ALERT stage. -/
def alertDue (w : Vol) : Bool := decide (w.evac.state = .alert) && decide (w.evac.duration * 1000 ≤ w.evac.timer + 1)

/-- R38: the next block mark brings the source to its talk limit. -/
def talkDue (w : Vol) (lane : Nat) : Bool :=
  match w.source lane with
  | some x => x.expires (x.talkTime + 1)
  | none => false

/-- R166: the frame the alignment buffer gives out at the next frame of the frame clock, as it stands. -/
def coming (w : Vol) : LaneFrame := w.align.give.2.out

/-- The lane's presence flag in that frame, which a LANE_ABSENT sent ahead of the mark reads (log entry 6). -/
def laneComing (w : Vol) (lane : Nat) : Bool := w.coming.presence.getLsbD lane

/-- R39: the next block mark reports the lane absent. -/
def absenceDue (w : Vol) (lane : Nat) : Bool :=
  match w.source lane with
  | some x => !w.laneComing lane && decide (Config.absenceLimit ≤ x.absence + 1) && !x.absenceReported
  | none => false

/-- R142: the reading that would change a settled line's level next: the other one. -/
def edgeLevel (x : Line) : Option Bool := x.debounced.map fun d => x.reading true != d

/-- R142: a block mark that reads the other level makes the edge. -/
def edgeDue (w : Vol) (l : Nat) (raw : Bool) : Bool :=
  let x := w.line l
  !x.fn.isOutput && x.debounced.isSome && x.changes raw

/-- R143: a block mark that reads this level settles the line. -/
def settleDue (w : Vol) (l : Nat) (raw : Bool) : Bool :=
  let x := w.line l
  !x.fn.isOutput && x.debounced.isNone && x.changes raw

/-- A block mark reads line `l`; a change ends an event. -/
def lineMark (w : Vol) (nv : Nonvolatile) (l : Nat) (raw : Bool) : Vol :=
  if w.edgeDue l raw || w.settleDue l raw then (w.sampleLine nv l raw).finish nv else w.sampleLine nv l raw

/-- R116: a list given before the coming block mark stands to be taken by voice 7. -/
def listDue (w : Vol) : Bool :=
  decide ((w.voice 7).state ≠ .idle) && (w.voice 7).newList.isSome && !(w.voice 7).newListWaits

/-- A voice takes a block mark; what it does ends an event. -/
def voiceEvent (w : Vol) (nv : Nonvolatile) (v : Nat) : Vol := (w.voiceMark nv v).finish nv

/-- The alert timer takes a block mark; its expiry ends an event. -/
def alertEvent (w : Vol) (nv : Nonvolatile) : Vol :=
  if w.alertDue then (w.alertMark nv).finish nv else w.alertMark nv

/-- A live source takes a block mark; its closing ends an event. -/
def talkEvent (w : Vol) (nv : Nonvolatile) (lane : Nat) : Vol :=
  if w.talkDue lane then (w.talkMark lane).finish nv else w.talkMark lane

/-- R116: the list that was given before the block mark is taken. -/
def listEvent (w : Vol) (nv : Nonvolatile) : Vol := if w.listDue then (w.takeList nv 7).finish nv else w

/-- R169: the parts of the block mark up to the voices that no command has taken ahead, in one fixed order. The list of voice
7 comes first, so that one given at this mark waits for the next (R116). -/
def markParts (w : Vol) (nv : Nonvolatile) (levels : BitVec 16) : Vol :=
  let left (m : MarkPart) : Bool := !w.taken m
  let w := if left .list then w.listEvent nv else w
  let w := w.clockMark nv
  let w := (List.range 64).foldl (fun w z => if left (.silence z) then w.silenceMark nv z else w) w
  let w := if left .alert then w.alertEvent nv else w
  let w := (List.range 32).foldl (fun w l => if left (.talk l) then w.talkEvent nv l else w) w
  let w := (List.range 32).foldl (fun w l => if left (.absence l) then w.absenceMark (w.laneSeen l) l else w) w
  let w := (List.range 16).foldl (fun w l => if left (.line l) then w.lineMark nv l (levels.getLsbD l) else w) w
  (List.range 8).foldl (fun w v => if left (.voice v) then w.voiceEvent nv v else w) w

/-- The part when the block mark computes the targets and levels: the parts before it taken, every staged base active
(R46). -/
def atLevels (w : Vol) (nv : Nonvolatile) (levels : BitVec 16) : Vol :=
  (List.range 64).foldl applyStaged (w.markParts nv levels)

/-- The part when the block mark computes what the OUTPUT lines show: the mixer and the generators have taken it (R146,
R147). -/
def atOutputs (w : Vol) (nv : Nonvolatile) (levels : BitVec 16) : Vol :=
  (List.range 4).foldl (fun v g => if !w.taken (.gen g) then v.stepGen g else v) (w.markParts nv levels).mixerMark

/-- R169: the block mark: every part that no command has taken ahead, in one fixed order. -/
def blockMark (w : Vol) (nv : Nonvolatile) (levels : BitVec 16) : Vol :=
  let w := (w.atOutputs nv levels).showLines.modVoice 7 fun x => { x with newListWaits := false }
  { w with fclk := { w.fclk with done := [] } }

/-! ### Frames sent (R162, R163, R172) -/

/-- The message byte of the next return frame, with its flag; it leaves the message in sending. -/
def popByte (w : Vol) : Bool × Byte × Vol :=
  match w.engine.sending with
  | some m =>
    match m.rest with
    | x :: rest => (true, x, w.modEngine fun e => { e with sending := some { m with rest := rest } })
    | [] => (false, 0, w)
  | none => (false, 0, w)

def returnFrame (index : Nat) (monitor : Audio) (valid : Bool) (byte : Byte) : ReturnFrame :=
  { sync := Config.syncWord, index := index, valid := valid, spare := false, monitor := monitor, byte := byte,
    headerCheck := headerCheck (headBits index valid false), slotCheck := slotCheck [monitor] byte }

def downFrame (index : Nat) (slots : List Audio) : DownFrame :=
  { sync := Config.syncWord, index := index, valid := false, spare := false, slots := slots, byte := 0,
    headerCheck := headerCheck (headBits index false false), slotCheck := slotCheck slots 0 }

/-- R163: every port sends its frame. -/
def sendFrames (w : Vol) (mixed : List Int) : Vol :=
  let index := w.fclk.count
  let (valid, byte, w) := w.popByte
  { w with
    sent :=
      { up := returnFrame index (w.monitorAudio mixed) valid byte
        down := Vector.ofFn fun p : Fin 4 => downFrame index ((List.range 16).map (w.slotAudio mixed p))
        mixed := mixed } }

/-- R169: the frame count of the next frame. -/
def nextCount (w : Vol) : Nat := if w.fclk.fresh then 0 else (w.fclk.count + 1) % 48

/-- The part when it produces the samples of a frame: the block mark of the frame taken, the frame count at the frame's index
(R162, R169). -/
def atSamples (w : Vol) (nv : Nonvolatile) (levels : BitVec 16) : Vol :=
  let marked := if w.atMark then w.blockMark nv levels else w
  { marked with fclk := { marked.fclk with count := w.nextCount, fresh := false } }

/-- Samples, mix and sending of a frame (R50, R109, R163). -/
def produce (w : Vol) (nv : Nonvolatile) : Vol :=
  let (samples, w) := w.voiceFrames nv
  w.sendFrames (w.mixAll samples)

end Vol

/-- What is due before a frame: the read that has lasted its time, the operation that has done its work, the message sent
out (log entry 8). The frame that has passed then counts for the store as it stood during it: an erase that this frame's
samples suspend has worked up to here, so entering SUSPENDED costs no work (R123). -/
def beforeFrame (s : State) (v : ReadVerdict) : State :=
  let s := if s.vol.readDue then (completeRead s v).finish else s
  let s := if s.vol.store.op.overdue then (endOverdue s).finish else s
  { s with vol := s.vol.endSending.startSending.storeTick s.nv }

/-- R169: a frame of the frame clock. The alignment buffer gives out its frame first, so that every block, the block mark
among them, reads the flags of the frame given out at this frame (R166). -/
def takeFrame (x : FrameInput) (s : State) : State :=
  whenRunning s fun s =>
    let s := beforeFrame s x.verdict
    s.onVol fun nv w => ((w.giveLanes.atSamples nv x.levels).produce nv).finish nv

/-- A part of the coming block mark is taken by a command, when it is due. -/
def takeMark (m : MarkPart) (due : Vol → Bool) (act : Nonvolatile → Vol → Vol) (s : State) : State :=
  whenRunning s fun s =>
    if s.vol.open? m && due s.vol then s.onVol fun nv w => ((act nv w).markTaken m).finish nv else s

/-- An event of the queue or the store that is due is taken by a command. -/
def takeEvent (due : State → Bool) (act : State → State) (s : State) : State :=
  whenRunning s fun s => if due s then (act s).finish else s

/-! ### Events of the station time (R79, R90) -/

namespace Vol

/-- R90: the request is PENDING and its not-before is reached. -/
def isReadyNow (w : Vol) (n : Nat) : Bool :=
  match w.request n with
  | some r => w.readyNow r && !w.expiredNow r
  | none => false

def makeReady (w : Vol) (nv : Nonvolatile) (n : Nat) : Vol :=
  (w.modRequest n fun x => { x with state := .ready }).handOut nv

/-- R90: the request is PENDING, READY or VOICED and its expiry has passed. -/
def isExpiredNow (w : Vol) (n : Nat) : Bool :=
  match w.request n with
  | some r => w.expiredNow r
  | none => false

def expire (w : Vol) (nv : Nonvolatile) (n : Nat) : Vol := (w.removeRequest n .expired).handOut nv

end Vol

namespace State

/-- R79, R80: the timetable takes due entries and the head entry's time has come. -/
def dueReady (s : State) : Bool := s.vol.takesDue && (s.vol.nextDue fun _ => true).isSome

def takeHeadDue (s : State) : State :=
  match s.vol.nextDue fun _ => true with
  | some e => s.onVol fun nv w => w.takeDue nv e
  | none => s

end State

/-! ### The ends of operations, frames and messages -/

/-- 2 ms of programming have passed (R127). -/
def StoreOp.programmed : StoreOp → Bool
  | .programming c k p d t => (StoreOp.programming c k p d t).overdue
  | _ => false

/-- 1,000 ms of erase work are done (R131). -/
def StoreOp.erased : StoreOp → Bool
  | .erasing k n t => (StoreOp.erasing k n t).overdue
  | _ => false

/-- R165, R171: an upstream frame, and the message it completes. -/
def takeUpFrame (f : UpFrame) (s : State) : State :=
  let (message, w) := s.vol.receiveUp f
  let s := State.finish { s with vol := w }
  match message with
  | some bs => takeMessage bs s
  | none => s

/-- R165, R171: a node return frame on downstream port `p`, 0 to 3, and the message it completes. -/
def takeNodeFrame (p : Nat) (f : NodeFrame) (s : State) : State :=
  let (message, w) := s.vol.receiveNode (p + 1) f
  let s := State.finish { s with vol := w }
  match message with
  | some bs => takeReport p (reportOf bs) s
  | none => s

/-- R175, tests 1 to 3: a message that is discarded is counted. -/
def discardMessage (m : MessageHeader) (s : State) : State :=
  if m.cls ≠ 1 then { s with vol := s.vol.discardClass }
  else if !s.vol.addressed m.destination then { s with vol := s.vol.discardAddress }
  else if s.vol.freePlace.isNone then { s with vol := s.vol.discardPlace }
  else s

end Sys2Proof.Machine
end

