-- ==== Sys2Proof/Machine/Ends.lean ====
section
/-! DEFINITION. The ends of the store operations (7.3), each when its work is done. -/

namespace Sys2Proof.Machine

/-- PROGRAMMING_COMPLETE (R127). -/
def execProgrammingComplete (s : State) : Host.Outcome State Fault Refusal :=
  .next (takeEvent (fun s => s.vol.store.op.programmed) endProgramming s)

/-- VERIFY_COMPLETE (R128): the last page of the verify has been read. -/
def execVerifyComplete (v : ReadVerdict) (s : State) : Host.Outcome State Fault Refusal :=
  .next (takeEvent (fun s => s.vol.readDue && s.lastVerifyRead) (fun s => completeRead s v) s)

/-- ERASE_COMPLETE (R131). -/
def execEraseComplete (s : State) : Host.Outcome State Fault Refusal :=
  .next (takeEvent (fun s => s.vol.store.op.erased) endErase s)

/-- PROGRAM_WRITE_COMPLETE (R136); the operand is the raw level of CL0, read when this completion releases reset (R145). -/
def execProgramWriteComplete (cl0High : Bool) (s : State) : Host.Outcome State Fault Refusal :=
  .next (programWriteDone s cl0High)

end Sys2Proof.Machine
end

