-- ==== Sys2Proof/Machine/Links.lean ====
section
/-! DEFINITION. The Span ports (R164, R165) and the message channels (R12, R171, R172, R175, R177). Ports are numbered UP 0, DN0 to DN3 1 to 4; downstream ports alone 0 to 3. -/

namespace Sys2Proof.Machine

/-- PORT_ACTIVITY (R164). -/
def execPortActivity (p : Fin 5) (s : State) : Host.Outcome State Fault Refusal :=
  .next (takeEvent (fun _ => true) (fun s => s.onVol fun _ w => w.lineActive p) s)

/-- PORT_ACTIVITY_LOST (R164). -/
def execPortActivityLost (p : Fin 5) (s : State) : Host.Outcome State Fault Refusal :=
  .next (takeEvent (fun _ => true) (fun s => s.onVol fun _ w => w.lineQuiet p) s)

/-- SYNC_FOUND (R164). -/
def execSyncFound (p : Fin 5) (index : BitVec 6) (s : State) : Host.Outcome State Fault Refusal :=
  .next (takeEvent (fun _ => true) (fun s => s.onVol fun _ w => w.syncSeen p index.toNat) s)

/-- UPSTREAM_FRAME (R165, R171): a message that the frame completes is handed to the message engine. -/
def execUpstreamFrame (f : UpFrame) (s : State) : Host.Outcome State Fault Refusal :=
  .next (whenRunning s (takeUpFrame f))

/-- NODE_RETURN_FRAME (R165, R171): a message that the frame completes is handed to the zone table. -/
def execNodeReturnFrame (p : Fin 4) (f : NodeFrame) (s : State) : Host.Outcome State Fault Refusal :=
  .next (whenRunning s (takeNodeFrame p f))

/-- UP_MESSAGE_DISCARDED (R175, tests 1 to 3); a message that none of them discards is not this command and changes nothing. -/
def execUpMessageDiscarded (m : MessageHeader) (s : State) : Host.Outcome State Fault Refusal :=
  .next (whenRunning s (discardMessage m))

/-- REQUEST_UNKNOWN_KIND (R175, test 4). -/
def execRequestUnknownKind (h : RequestHeader) (kind : Nat) (s : State) : Host.Outcome State Fault Refusal :=
  .next (takeRequest h kind (Instr.wf (.requestUnknownKind h kind)) (refuse .badArg) s)

/-- ZONE_REPORT (R12, R13): a complete message on a downstream channel. -/
def execZoneReport (p : Fin 4) (r : ReportMessage) (s : State) : Host.Outcome State Fault Refusal :=
  .next (whenRunning s (takeReport p r))

/-- OUTBOUND_MESSAGE_START (R172, R177). -/
def execOutboundMessageStart (s : State) : Host.Outcome State Fault Refusal :=
  .next (takeEvent (fun _ => true) (fun s => s.onVol fun _ w => w.startSending) s)

/-- MESSAGE_SEND_COMPLETE (R177). -/
def execMessageSendComplete (s : State) : Host.Outcome State Fault Refusal :=
  .next (takeEvent (fun s => s.vol.sendingDone) (fun s => s.onVol fun _ w => w.endSending) s)

end Sys2Proof.Machine
end

