-- ==== Sys2Proof/Machine/Marks.lean ====
section
/-! DEFINITION. The commands of the frame clock and of its block marks (R169), and the events the station time brings (R79, R90). A command whose event is not due changes nothing (log entry 5). -/

namespace Sys2Proof.Machine

/-- FRAME_CLOCK_FRAME (R169). -/
def execFrameClockFrame (x : FrameInput) (s : State) : Host.Outcome State Fault Refusal :=
  .next (takeFrame x s)

/-- GENERATOR_PERIOD_END (R147, R148). -/
def execGeneratorPeriodEnd (g : Fin 4) (s : State) : Host.Outcome State Fault Refusal :=
  .next (takeMark (.gen g) (fun w => (w.gen g).ends) (fun _ w => w.stepGen g) s)

/-- CONTACT_EDGE (R142, R144): the block mark reads the level that makes the edge. -/
def execContactEdge (l : Fin 16) (s : State) : Host.Outcome State Fault Refusal :=
  match Vol.edgeLevel (s.vol.line l) with
  | some raw => .next (takeMark (.line l) (fun w => w.edgeDue l raw) (fun nv w => w.sampleLine nv l raw) s)
  | none => .next s

/-- LINE_SETTLE (R143): the block mark reads the level at which the line settles. -/
def execLineSettle (l : Fin 16) (high : Bool) (s : State) : Host.Outcome State Fault Refusal :=
  .next (takeMark (.line l) (fun w => w.settleDue l high) (fun nv w => w.sampleLine nv l high) s)

/-- SECOND_ADVANCE (R54): the station time advances and the timetable walks the due list (R79). -/
def execSecondAdvance (s : State) : Host.Outcome State Fault Refusal :=
  .next (takeMark .second Vol.secondDue (fun nv w => w.advanceSecond nv) s)

/-- DUE_ENTRY_TAKEN (R79, R80): the head of the due list, when its time has come. -/
def execDueEntryTaken (s : State) : Host.Outcome State Fault Refusal :=
  .next (takeEvent State.dueReady State.takeHeadDue s)

/-- REQUEST_READY (R90). -/
def execRequestReady (n : Nat) (s : State) : Host.Outcome State Fault Refusal :=
  .next (takeEvent (fun s => s.vol.isReadyNow n) (fun s => s.onVol fun nv w => w.makeReady nv n) s)

/-- REQUEST_EXPIRED (R90). -/
def execRequestExpired (n : Nat) (s : State) : Host.Outcome State Fault Refusal :=
  .next (takeEvent (fun s => s.vol.isExpiredNow n) (fun s => s.onVol fun nv w => w.expire nv n) s)

/-- PAGE_READ_COMPLETE (R107, R124): the read in progress has lasted 1 ms. -/
def execPageReadComplete (v : ReadVerdict) (s : State) : Host.Outcome State Fault Refusal :=
  .next (takeEvent (fun s => s.vol.readDue) (fun s => completeRead s v) s)

/-- VOICE_START (R108). -/
def execVoiceStart (v : Fin 8) (s : State) : Host.Outcome State Fault Refusal :=
  .next (takeMark (.voice v) (fun w => w.canStart v) (fun _ w => w.startVoice v) s)

/-- VOICE_RESUME (R110). -/
def execVoiceResume (v : Fin 8) (s : State) : Host.Outcome State Fault Refusal :=
  .next (takeMark (.voice v) (fun w => w.canResume v && !w.cancelled v) (fun _ w => w.resumeVoice v) s)

/-- VOICE_END (R113, R92). -/
def execVoiceEnd (v : Fin 8) (s : State) : Host.Outcome State Fault Refusal :=
  .next (takeMark (.voice v) (fun w => w.atEnd v) (fun nv w => w.takeEnd nv v) s)

/-- VOICE_CANCEL_STOP (R114, R95). -/
def execVoiceCancelStop (v : Fin 8) (s : State) : Host.Outcome State Fault Refusal :=
  .next (takeMark (.voice v) (fun w => w.cancelled v) (fun nv w => w.stopCancelled nv v) s)

/-- EVAC_LIST_CHANGE (R116). -/
def execEvacListChange (s : State) : Host.Outcome State Fault Refusal :=
  .next (takeMark .list Vol.listDue (fun nv w => w.takeList nv 7) s)

/-- ZONE_SILENCE_EXPIRY (R14). -/
def execZoneSilenceExpiry (z : Fin 64) (s : State) : Host.Outcome State Fault Refusal :=
  .next (takeMark (.silence z) (fun w => w.silenceDue z) (fun nv w => w.zoneEvent nv z Zone.goSilent) s)

/-- TALK_LIMIT (R38). -/
def execTalkLimit (lane : Fin 32) (s : State) : Host.Outcome State Fault Refusal :=
  .next (takeMark (.talk lane) (fun w => w.talkDue lane) (fun _ w => w.talkMark lane) s)

/-- LANE_ABSENT (R39). -/
def execLaneAbsent (lane : Fin 32) (s : State) : Host.Outcome State Fault Refusal :=
  .next (takeMark (.absence lane) (fun w => w.absenceDue lane) (fun _ w => w.absenceMark (w.laneComing lane) lane) s)

/-- ALERT_TIMER_EXPIRY (R154, R155). -/
def execAlertTimerExpiry (s : State) : Host.Outcome State Fault Refusal :=
  .next (takeMark .alert Vol.alertDue (fun nv w => w.alertMark nv) s)

end Sys2Proof.Machine
end

