-- ==== Sys2Proof/Machine/Power.lean ====
section
/-! DEFINITION. The commands of power and reset: the application and loss of power, the reset line, its release, the end of the start-up scan. -/

namespace Sys2Proof.Machine

/-- POWER_ON: every block at its power-on values, held in reset (R6, R53, R81, R100, R117, R138, R149, R161, R173, R184). -/
def execPowerOn (s : State) : Host.Outcome State Fault Refusal :=
  .next (applyPower s)

/-- POWER_LOSS: the operation in flight stops; the nonvolatile store and its operation mark stay (R118). -/
def execPowerLoss (s : State) : Host.Outcome State Fault Refusal :=
  .next (losePower s)

/-- LINE_RESET: every block at its line-reset values, held in reset; a resident programme write runs on (R136). -/
def execLineReset (s : State) : Host.Outcome State Fault Refusal :=
  .next (assertReset s)

/-- RESET_RELEASE (R134, R135, R145); the operand is the raw level of CL0. -/
def execResetRelease (cl0High : Bool) (s : State) : Host.Outcome State Fault Refusal :=
  .next (lineReleased s cl0High)

/-- SCAN_COMPLETE (R137, R156): the start-up scan ends, at any moment while the store is STARTING. -/
def execScanComplete (s : State) : Host.Outcome State Fault Refusal :=
  .next (takeEvent (fun s => s.vol.storeStarting) endScan s)

end Sys2Proof.Machine
end

