-- ==== Sys2Proof/Machine/ServiceRequests.lean ====
section
/-! DEFINITION. The requests of the station clock, the call table, the request queue, the live source table, the mixer and the evacuation controller. -/

namespace Sys2Proof.Machine

/-- TIME (R55, R56). -/
def execTime (h : RequestHeader) (t : Nat) (dayBase : Nat) (s : State) : Host.Outcome State Fault Refusal :=
  .next (takeRequest h 8 (Instr.wf (.time h t dayBase)) (actTime t dayBase) s)

/-- CALL LOAD (R58). -/
def execCallLoad (h : RequestHeader) (c : CallLoad) (s : State) : Host.Outcome State Fault Refusal :=
  .next (takeRequest h 9 (Instr.wf (.callLoad h c)) (actCallLoad c) s)

/-- CALL UPDATE (R71 to R74). -/
def execCallUpdate (h : RequestHeader) (slot : Nat) (expected : Carried Nat) (platform : Carried Nat) (s : State) : Host.Outcome State Fault Refusal :=
  .next (takeRequest h 10 (Instr.wf (.callUpdate h slot expected platform)) (actCallUpdate slot expected platform) s)

/-- CALL MARK with mark ARRIVED (R75). -/
def execCallMarkArrived (h : RequestHeader) (slot : Nat) (s : State) : Host.Outcome State Fault Refusal :=
  .next (takeRequest h 11 (Instr.wf (.callMarkArrived h slot)) (actMarkArrived slot) s)

/-- CALL MARK with mark DEPARTED (R75). -/
def execCallMarkDeparted (h : RequestHeader) (slot : Nat) (s : State) : Host.Outcome State Fault Refusal :=
  .next (takeRequest h 11 (Instr.wf (.callMarkDeparted h slot)) (actMarkDeparted slot) s)

/-- CALL CANCEL (R77). -/
def execCallCancel (h : RequestHeader) (slot : Nat) (s : State) : Host.Outcome State Fault Refusal :=
  .next (takeRequest h 12 (Instr.wf (.callCancel h slot)) (actCallCancel slot) s)

/-- CALL REMOVE (R78). -/
def execCallRemove (h : RequestHeader) (slot : Nat) (s : State) : Host.Outcome State Fault Refusal :=
  .next (takeRequest h 13 (Instr.wf (.callRemove h slot)) (actCallRemove slot) s)

/-- ANNOUNCE (R94). -/
def execAnnounce (h : RequestHeader) (a : Announcement) (s : State) : Host.Outcome State Fault Refusal :=
  .next (takeRequest h 14 (Instr.wf (.announce h a)) (actAnnounce a) s)

/-- ANNOUNCE CANCEL (R95). -/
def execAnnounceCancel (h : RequestHeader) (number : Nat) (s : State) : Host.Outcome State Fault Refusal :=
  .next (takeRequest h 15 (Instr.wf (.announceCancel h number)) (actAnnounceCancel number) s)

/-- LIVE START without the evacuation flag (R36). -/
def execLiveStart (h : RequestHeader) (l : LiveStart) (s : State) : Host.Outcome State Fault Refusal :=
  .next (takeRequest h 16 (Instr.wf (.liveStart h l)) (actLiveStart l) s)

/-- LIVE START with the evacuation flag (R36, R158). -/
def execLiveStartEvac (h : RequestHeader) (l : LiveStart) (s : State) : Host.Outcome State Fault Refusal :=
  .next (takeRequest h 16 (Instr.wf (.liveStartEvac h l)) (actLiveStartEvac l) s)

/-- LIVE STOP (R38). -/
def execLiveStop (h : RequestHeader) (lane : Nat) (s : State) : Host.Outcome State Fault Refusal :=
  .next (takeRequest h 17 (Instr.wf (.liveStop h lane)) (actLiveStop lane) s)

/-- GAIN SET (R45). -/
def execGainSet (h : RequestHeader) (entries : List GainEntry) (s : State) : Host.Outcome State Fault Refusal :=
  .next (takeRequest h 18 (Instr.wf (.gainSet h entries)) (actGainSet entries) s)

/-- MONITOR SELECT (R52). -/
def execMonitorSelect (h : RequestHeader) (zone : Option Nat) (s : State) : Host.Outcome State Fault Refusal :=
  .next (takeRequest h 19 (Instr.wf (.monitorSelect h zone)) (actMonitor zone) s)

/-- EVAC START (R151). -/
def execEvacStart (h : RequestHeader) (s : State) : Host.Outcome State Fault Refusal :=
  .next (takeRequest h 20 (Instr.wf (.evacStart h)) actEvacStart s)

/-- EVAC ESCALATE (R151). -/
def execEvacEscalate (h : RequestHeader) (s : State) : Host.Outcome State Fault Refusal :=
  .next (takeRequest h 21 (Instr.wf (.evacEscalate h)) actEvacEscalate s)

/-- EVAC STOP (R151). -/
def execEvacStop (h : RequestHeader) (s : State) : Host.Outcome State Fault Refusal :=
  .next (takeRequest h 22 (Instr.wf (.evacStop h)) actEvacStop s)

end Sys2Proof.Machine
end

