-- ==== Sys2Proof/Machine/StoreRequests.lean ====
section
/-! DEFINITION. The ten clip store requests (R120). -/

namespace Sys2Proof.Machine

/-- CLIP OPEN (R125, R126). -/
def execClipOpen (h : RequestHeader) (clip : Nat) (bank : ClipBank) (count : Nat) (s : State) : Host.Outcome State Fault Refusal :=
  .next (takeRequest h 23 (Instr.wf (.clipOpen h clip bank count)) (actClipOpen clip bank count) s)

/-- PAGE WRITE (R127). -/
def execPageWrite (h : RequestHeader) (clip : Nat) (index : Nat) (data : List Byte) (s : State) : Host.Outcome State Fault Refusal :=
  .next (takeRequest h 24 (Instr.wf (.pageWrite h clip index data)) (actPageWrite clip index data) s)

/-- CLIP SEAL (R128). -/
def execClipSeal (h : RequestHeader) (clip : Nat) (length : Nat) (check : BitVec 32) (s : State) : Host.Outcome State Fault Refusal :=
  .next (takeRequest h 25 (Instr.wf (.clipSeal h clip length check)) (actClipSeal clip length check) s)

/-- CLIP RETIRE (R129). -/
def execClipRetire (h : RequestHeader) (clip : Nat) (s : State) : Host.Outcome State Fault Refusal :=
  .next (takeRequest h 26 (Instr.wf (.clipRetire h clip)) (actClipRetire clip) s)

/-- SECTOR ERASE ARM (R130). -/
def execSectorEraseArm (h : RequestHeader) (bank : ClipBank) (sector : Nat) (s : State) : Host.Outcome State Fault Refusal :=
  .next (takeRequest h 27 (Instr.wf (.sectorEraseArm h bank sector)) (actEraseArm bank sector) s)

/-- SECTOR ERASE GO (R130). -/
def execSectorEraseGo (h : RequestHeader) (bank : ClipBank) (sector : Nat) (s : State) : Host.Outcome State Fault Refusal :=
  .next (takeRequest h 28 (Instr.wf (.sectorEraseGo h bank sector)) (actEraseGo bank sector) s)

/-- STORE ABORT (R132). -/
def execStoreAbort (h : RequestHeader) (s : State) : Host.Outcome State Fault Refusal :=
  .next (takeRequest h 29 (Instr.wf (.storeAbort h)) actStoreAbort s)

/-- GUARD SET (R133). -/
def execGuardSet (h : RequestHeader) (mark : GuardMark) (s : State) : Host.Outcome State Fault Refusal :=
  .next (takeRequest h 30 (Instr.wf (.guardSet h mark)) (actGuardSet mark) s)

/-- GUARD CLEAR (R133). -/
def execGuardClear (h : RequestHeader) (mark : GuardMark) (s : State) : Host.Outcome State Fault Refusal :=
  .next (takeRequest h 31 (Instr.wf (.guardClear h mark)) (actGuardClear mark) s)

/-- PROGRAM WRITE (R136). -/
def execProgramWrite (h : RequestHeader) (p : ProgramFields) (s : State) : Host.Outcome State Fault Refusal :=
  .next (takeRequest h 32 (Instr.wf (.programWrite h p)) (actProgramWrite p) s)

end Sys2Proof.Machine
end

