-- ==== Sys2Proof/Machine/TableRequests.lean ====
section
/-! DEFINITION. TABLE WRITE of each class and TABLE READ (R179). -/

namespace Sys2Proof.Machine

/-- TABLE WRITE of class ZONE (R3 to R5, R44). -/
def execTableWriteZone (h : RequestHeader) (r : ZoneRecord) (s : State) : Host.Outcome State Fault Refusal :=
  .next (takeRequest h 6 (Instr.wf (.tableWriteZone h r)) (actWriteZone r) s)

/-- TABLE WRITE of class GROUP (R7, R8). -/
def execTableWriteGroup (h : RequestHeader) (group : Nat) (members : List Nat) (s : State) : Host.Outcome State Fault Refusal :=
  .next (takeRequest h 6 (Instr.wf (.tableWriteGroup h group members)) (actWriteGroup group members) s)

/-- TABLE WRITE of class PLATFORM (R10). -/
def execTableWritePlatform (h : RequestHeader) (platform : Nat) (group : Option Nat) (template : Option Nat) (s : State) : Host.Outcome State Fault Refusal :=
  .next (takeRequest h 6 (Instr.wf (.tableWritePlatform h platform group template)) (actWritePlatform platform group template) s)

/-- TABLE WRITE of class PROFILE (R57). -/
def execTableWriteProfile (h : RequestHeader) (r : ProfileRecord) (s : State) : Host.Outcome State Fault Refusal :=
  .next (takeRequest h 6 (Instr.wf (.tableWriteProfile h r)) (actWriteProfile r) s)

/-- TABLE WRITE of class TEMPLATE (R82). -/
def execTableWriteTemplate (h : RequestHeader) (r : TemplateRecord) (s : State) : Host.Outcome State Fault Refusal :=
  .next (takeRequest h 6 (Instr.wf (.tableWriteTemplate h r)) (actWriteTemplate r) s)

/-- TABLE WRITE of class HOURS (R83). -/
def execTableWriteHours (h : RequestHeader) (first : Nat) (entries : List (Option Nat)) (s : State) : Host.Outcome State Fault Refusal :=
  .next (takeRequest h 6 (Instr.wf (.tableWriteHours h first entries)) (actWriteHours first entries) s)

/-- TABLE WRITE of class MINUTES (R83). -/
def execTableWriteMinutes (h : RequestHeader) (first : Nat) (entries : List (Option Nat)) (s : State) : Host.Outcome State Fault Refusal :=
  .next (takeRequest h 6 (Instr.wf (.tableWriteMinutes h first entries)) (actWriteMinutes first entries) s)

/-- TABLE WRITE of class NUMBERS (R83). -/
def execTableWriteNumbers (h : RequestHeader) (first : Nat) (entries : List (Option Nat)) (s : State) : Host.Outcome State Fault Refusal :=
  .next (takeRequest h 6 (Instr.wf (.tableWriteNumbers h first entries)) (actWriteNumbers first entries) s)

/-- TABLE WRITE of class PLATFORMS_PHRASE (R83). -/
def execTableWritePlatformsPhrase (h : RequestHeader) (first : Nat) (entries : List (Option Nat)) (s : State) : Host.Outcome State Fault Refusal :=
  .next (takeRequest h 6 (Instr.wf (.tableWritePlatformsPhrase h first entries)) (actWritePlatPhrases first entries) s)

/-- TABLE WRITE of class DESTINATIONS (R83). -/
def execTableWriteDestinations (h : RequestHeader) (first : Nat) (entries : List (Option Nat)) (s : State) : Host.Outcome State Fault Refusal :=
  .next (takeRequest h 6 (Instr.wf (.tableWriteDestinations h first entries)) (actWriteDests first entries) s)

/-- TABLE WRITE of class CONTACT_LINE (R139, R143). -/
def execTableWriteContactLine (h : RequestHeader) (r : LineRecord) (s : State) : Host.Outcome State Fault Refusal :=
  .next (takeRequest h 6 (Instr.wf (.tableWriteContactLine h r)) (actWriteLine r) s)

/-- TABLE WRITE of class GENERATOR (R148). -/
def execTableWriteGenerator (h : RequestHeader) (gen : Nat) (p : Nat) (r : Nat) (f : Nat) (s : State) : Host.Outcome State Fault Refusal :=
  .next (takeRequest h 6 (Instr.wf (.tableWriteGenerator h gen p r f)) (actWriteGenerator gen p r f) s)

/-- TABLE WRITE of class LINK_CONFIG (R51, R168, R179). -/
def execTableWriteLinkConfig (h : RequestHeader) (delay : Nat) (rate : Nat) (s : State) : Host.Outcome State Fault Refusal :=
  .next (takeRequest h 6 (Instr.wf (.tableWriteLinkConfig h delay rate)) (actWriteLink delay rate) s)

/-- TABLE WRITE of classes 13 to 15 (R179). -/
def execTableWriteUnassigned (h : RequestHeader) (cls : Nat) (s : State) : Host.Outcome State Fault Refusal :=
  .next (takeRequest h 6 (Instr.wf (.tableWriteUnassigned h cls)) actWriteUnassigned s)

/-- TABLE READ (R179). -/
def execTableRead (h : RequestHeader) (cls : Nat) (index : ReadIndex) (s : State) : Host.Outcome State Fault Refusal :=
  .next (takeRequest h 7 (Instr.wf (.tableRead h cls index)) (actTableRead cls index) s)

end Sys2Proof.Machine
end

