-- ==== Sys2Proof/Machine/Dispatch.lean ====
section
/-! DEFINITION. One arm for each command: its meaning. -/

namespace Sys2Proof.Machine

def exec (i : Instr) (s : State) : Host.Outcome State Fault Refusal :=
  match i with
  | .powerOn => Sys2Proof.Machine.execPowerOn s
  | .powerLoss => Sys2Proof.Machine.execPowerLoss s
  | .lineReset => Sys2Proof.Machine.execLineReset s
  | .resetRelease cl0High => Sys2Proof.Machine.execResetRelease cl0High s
  | .scanComplete => Sys2Proof.Machine.execScanComplete s
  | .frameClockFrame x => Sys2Proof.Machine.execFrameClockFrame x s
  | .generatorPeriodEnd g => Sys2Proof.Machine.execGeneratorPeriodEnd g s
  | .contactEdge l => Sys2Proof.Machine.execContactEdge l s
  | .lineSettle l high => Sys2Proof.Machine.execLineSettle l high s
  | .secondAdvance => Sys2Proof.Machine.execSecondAdvance s
  | .dueEntryTaken => Sys2Proof.Machine.execDueEntryTaken s
  | .requestReady n => Sys2Proof.Machine.execRequestReady n s
  | .requestExpired n => Sys2Proof.Machine.execRequestExpired n s
  | .pageReadComplete v => Sys2Proof.Machine.execPageReadComplete v s
  | .voiceStart v => Sys2Proof.Machine.execVoiceStart v s
  | .voiceResume v => Sys2Proof.Machine.execVoiceResume v s
  | .voiceEnd v => Sys2Proof.Machine.execVoiceEnd v s
  | .voiceCancelStop v => Sys2Proof.Machine.execVoiceCancelStop v s
  | .evacListChange => Sys2Proof.Machine.execEvacListChange s
  | .zoneSilenceExpiry z => Sys2Proof.Machine.execZoneSilenceExpiry z s
  | .talkLimit lane => Sys2Proof.Machine.execTalkLimit lane s
  | .laneAbsent lane => Sys2Proof.Machine.execLaneAbsent lane s
  | .alertTimerExpiry => Sys2Proof.Machine.execAlertTimerExpiry s
  | .programmingComplete => Sys2Proof.Machine.execProgrammingComplete s
  | .verifyComplete v => Sys2Proof.Machine.execVerifyComplete v s
  | .eraseComplete => Sys2Proof.Machine.execEraseComplete s
  | .programWriteComplete cl0High => Sys2Proof.Machine.execProgramWriteComplete cl0High s
  | .portActivity p => Sys2Proof.Machine.execPortActivity p s
  | .portActivityLost p => Sys2Proof.Machine.execPortActivityLost p s
  | .syncFound p index => Sys2Proof.Machine.execSyncFound p index s
  | .upstreamFrame f => Sys2Proof.Machine.execUpstreamFrame f s
  | .nodeReturnFrame p f => Sys2Proof.Machine.execNodeReturnFrame p f s
  | .upMessageDiscarded m => Sys2Proof.Machine.execUpMessageDiscarded m s
  | .requestUnknownKind h kind => Sys2Proof.Machine.execRequestUnknownKind h kind s
  | .zoneReport p r => Sys2Proof.Machine.execZoneReport p r s
  | .outboundMessageStart => Sys2Proof.Machine.execOutboundMessageStart s
  | .messageSendComplete => Sys2Proof.Machine.execMessageSendComplete s
  | .hello h => Sys2Proof.Machine.execHello h s
  | .address h a => Sys2Proof.Machine.execAddress h a s
  | .status h clear => Sys2Proof.Machine.execStatus h clear s
  | .resetAudio h => Sys2Proof.Machine.execResetAudio h s
  | .resetFull h => Sys2Proof.Machine.execResetFull h s
  | .alertMask h conditions => Sys2Proof.Machine.execAlertMask h conditions s
  | .tableWriteZone h r => Sys2Proof.Machine.execTableWriteZone h r s
  | .tableWriteGroup h group members => Sys2Proof.Machine.execTableWriteGroup h group members s
  | .tableWritePlatform h platform group template => Sys2Proof.Machine.execTableWritePlatform h platform group template s
  | .tableWriteProfile h r => Sys2Proof.Machine.execTableWriteProfile h r s
  | .tableWriteTemplate h r => Sys2Proof.Machine.execTableWriteTemplate h r s
  | .tableWriteHours h first entries => Sys2Proof.Machine.execTableWriteHours h first entries s
  | .tableWriteMinutes h first entries => Sys2Proof.Machine.execTableWriteMinutes h first entries s
  | .tableWriteNumbers h first entries => Sys2Proof.Machine.execTableWriteNumbers h first entries s
  | .tableWritePlatformsPhrase h first entries => Sys2Proof.Machine.execTableWritePlatformsPhrase h first entries s
  | .tableWriteDestinations h first entries => Sys2Proof.Machine.execTableWriteDestinations h first entries s
  | .tableWriteContactLine h r => Sys2Proof.Machine.execTableWriteContactLine h r s
  | .tableWriteGenerator h gen p r f => Sys2Proof.Machine.execTableWriteGenerator h gen p r f s
  | .tableWriteLinkConfig h delay rate => Sys2Proof.Machine.execTableWriteLinkConfig h delay rate s
  | .tableWriteUnassigned h cls => Sys2Proof.Machine.execTableWriteUnassigned h cls s
  | .tableRead h cls index => Sys2Proof.Machine.execTableRead h cls index s
  | .time h t dayBase => Sys2Proof.Machine.execTime h t dayBase s
  | .callLoad h c => Sys2Proof.Machine.execCallLoad h c s
  | .callUpdate h slot expected platform => Sys2Proof.Machine.execCallUpdate h slot expected platform s
  | .callMarkArrived h slot => Sys2Proof.Machine.execCallMarkArrived h slot s
  | .callMarkDeparted h slot => Sys2Proof.Machine.execCallMarkDeparted h slot s
  | .callCancel h slot => Sys2Proof.Machine.execCallCancel h slot s
  | .callRemove h slot => Sys2Proof.Machine.execCallRemove h slot s
  | .announce h a => Sys2Proof.Machine.execAnnounce h a s
  | .announceCancel h number => Sys2Proof.Machine.execAnnounceCancel h number s
  | .liveStart h l => Sys2Proof.Machine.execLiveStart h l s
  | .liveStartEvac h l => Sys2Proof.Machine.execLiveStartEvac h l s
  | .liveStop h lane => Sys2Proof.Machine.execLiveStop h lane s
  | .gainSet h entries => Sys2Proof.Machine.execGainSet h entries s
  | .monitorSelect h zone => Sys2Proof.Machine.execMonitorSelect h zone s
  | .evacStart h => Sys2Proof.Machine.execEvacStart h s
  | .evacEscalate h => Sys2Proof.Machine.execEvacEscalate h s
  | .evacStop h => Sys2Proof.Machine.execEvacStop h s
  | .clipOpen h clip bank count => Sys2Proof.Machine.execClipOpen h clip bank count s
  | .pageWrite h clip index data => Sys2Proof.Machine.execPageWrite h clip index data s
  | .clipSeal h clip length check => Sys2Proof.Machine.execClipSeal h clip length check s
  | .clipRetire h clip => Sys2Proof.Machine.execClipRetire h clip s
  | .sectorEraseArm h bank sector => Sys2Proof.Machine.execSectorEraseArm h bank sector s
  | .sectorEraseGo h bank sector => Sys2Proof.Machine.execSectorEraseGo h bank sector s
  | .storeAbort h => Sys2Proof.Machine.execStoreAbort h s
  | .guardSet h mark => Sys2Proof.Machine.execGuardSet h mark s
  | .guardClear h mark => Sys2Proof.Machine.execGuardClear h mark s
  | .programWrite h p => Sys2Proof.Machine.execProgramWrite h p s

end Sys2Proof.Machine
end

