-- ==== Sys2Proof/Machine/FrameBits.lean ====
section
/-! DEFINITION. The four frames of the Span link as their bits, in the order of sending (R162): the frames the part sends, and
the frames it receives, written and read. -/

namespace Sys2Proof.Machine

/-! ### Fields as bits, most significant first (R162) -/

/-- A field, most significant bit first. -/
def fieldBits {n : Nat} (x : BitVec n) : List Bool := msbBits n x.toNat

/-- The slots of a frame, slot or lane 0 first. -/
def slotsBits (slots : List Audio) : List Bool := slots.flatMap fieldBits

/-- What every frame begins with: sync, frame index, message-valid flag, spare. -/
def openingBits (sync : BitVec 16) (index : Nat) (valid spare : Bool) : List Bool := fieldBits sync ++ headBits index valid spare

/-- What every frame ends with: message byte, header check, slot check. The check bits of the header check stand in the order 7
down to 0 (R165). -/
def closingBits (byte : Byte) (headerCheck : BitVec 8) (slotCheck : BitVec 16) : List Bool :=
  fieldBits byte ++ fieldBits headerCheck ++ fieldBits slotCheck

/-- The field of `n` bits at place `i`. -/
def fieldAt (n : Nat) (bits : List Bool) (i : Nat) : BitVec n := BitVec.ofNat n (bitsValue ((bits.drop i).take n).reverse)

/-! ### Frames sent (R163) -/

/-- An upstream return frame, 80 bits. -/
def ReturnFrame.bits (f : ReturnFrame) : List Bool :=
  openingBits f.sync f.index f.valid f.spare ++ slotsBits [f.monitor] ++ closingBits f.byte f.headerCheck f.slotCheck

/-- A downstream frame, 440 bits with its 16 slots. -/
def DownFrame.bits (f : DownFrame) : List Bool :=
  openingBits f.sync f.index f.valid f.spare ++ slotsBits f.slots ++ closingBits f.byte f.headerCheck f.slotCheck

/-- The bits of the frame last sent on a port: UP is 0, DN0 to DN3 are 1 to 4. -/
def Vol.sentBits (w : Vol) (p : Nat) : List Bool :=
  if p = 0 then w.sent.up.bits else (tget DownFrame.zero w.sent.down (p - 1)).bits

end Sys2Proof.Machine

namespace Sys2Proof

open Sys2Proof.Machine

/-! ### Frames received (R165) -/

/-- An upstream frame, 856 bits. -/
def UpFrame.bits (f : UpFrame) : List Bool :=
  openingBits f.sync f.index.toNat f.valid f.spare ++ presenceBits f.presence ++ slotsBits f.slots.toList
    ++ closingBits f.byte f.headerCheck f.slotCheck

/-- A node return frame, 56 bits. -/
def NodeFrame.bits (f : NodeFrame) : List Bool :=
  openingBits f.sync f.index.toNat f.valid f.spare ++ closingBits f.byte f.headerCheck f.slotCheck

/-- The upstream frame that 856 bits of the line are. -/
def UpFrame.ofBits (bits : List Bool) : UpFrame :=
  { sync := fieldAt 16 bits 0, index := fieldAt 6 bits 16, valid := bits.getD 22 false, spare := bits.getD 23 false
    presence := BitVec.ofNat 32 (bitsValue ((bits.drop 24).take 32)), slots := Vector.ofFn fun i : Fin 32 => fieldAt 24 bits (56 + 24 * i)
    byte := fieldAt 8 bits 824, headerCheck := fieldAt 8 bits 832, slotCheck := fieldAt 16 bits 840 }

/-- The node return frame that 56 bits of the line are. -/
def NodeFrame.ofBits (bits : List Bool) : NodeFrame :=
  { sync := fieldAt 16 bits 0, index := fieldAt 6 bits 16, valid := bits.getD 22 false, spare := bits.getD 23 false
    byte := fieldAt 8 bits 24, headerCheck := fieldAt 8 bits 32, slotCheck := fieldAt 16 bits 40 }

end Sys2Proof
end

