-- ==== Sys2Proof/Safety.lean ====
section
/-! DEFINITION. The words in which the statements speak: the invariant of the nonvolatile store, what the end of an event
leaves as it was, a request that has reached its owner, the state with its reply. -/

namespace Sys2Proof.Machine

/-! ### The nonvolatile store -/

/-- The byte memory, the page states and the directory stand in their canonical form. -/
def Nonvolatile.wf (nv : Nonvolatile) : Bool :=
  Memory.wf nv.mem && Sparse.wf .erased nv.pages && Sparse.wf .absent nv.dir

/-! ### The end of an event

An event ends with the reports of exhausted claims (R33), a read started on a free path (R122) and the alert (R182). The
end of an event reaches claims, holders and wait lists, cut pending flags, requests, voices, use counts, the read in
progress, the evacuation request that finds no zones, and the notice queue. -/

/-- A zone less its holder and its wait list. -/
def Zone.fixed (x : Zone) : Zone := { x with holder := none, waiters := [] }

/-- A gain record less its cut pending flag. -/
def Gain.fixed (x : Gain) : Gain := { x with cut := false }

/-- The two counts of a voice, which outlast its release (R101). -/
def Voice.fixed (x : Voice) : Voice := { Voice.initial with stalls := x.stalls, damaged := x.damaged }

/-- The store controller less its read in progress and its use counts. -/
def StoreCtl.fixed (x : StoreCtl) : StoreCtl := { x with read := none, uses := [] }

/-- The message engine less its notice queue and the raised state. -/
def Engine.fixed (x : Engine) : Engine := { x with notices := [], overflow := false, raised := false }

/-- The evacuation controller less its request and the list in force. -/
def Evac.fixed (x : Evac) : Evac := { x with request := none, list := none }

/-- All that the end of an event cannot change. -/
def Vol.fixed (w : Vol) : Vol :=
  { w with
    zones := w.zones.map Zone.fixed
    gains := w.gains.map Gain.fixed
    voices := w.voices.map Voice.fixed
    store := w.store.fixed
    engine := w.engine.fixed
    evac := w.evac.fixed
    claims := Vector.replicate 40 none
    stampCounter := 0
    queue := .initial }

/-- All that the end of an event leaves when no claim is reported exhausted: everything but the read in progress, the
raised state and the notice queue. -/
def Vol.unread (w : Vol) : Vol := { w with store := { w.store with read := none }, engine := w.engine.fixed }

/-- `w'` keeps all that the end of an event cannot change of `w`, and every notice that waits in `w`; its notice queue is
within its capacity when that of `w` is (R178). -/
structure Vol.Within (w w' : Vol) : Prop where
  fixed : w'.fixed = w.fixed
  notices : w.engine.notices <+: w'.engine.notices
  bound : w.engine.notices.length ≤ 24 → w'.engine.notices.length ≤ 24

/-! ### What the events of the timetable, the requests, the live sources, the evacuation and the lines leave -/

/-- The configured fields of a zone (1.1). -/
def Zone.configured (x : Zone) : Zone :=
  { x.fixed with ambient := none, cond := .unknown, normals := 0, silence := 0, extFault := false, history := .empty }

/-- The written fields of a platform (1.5). -/
def Platform.configured (x : Platform) : Platform := { x with occupant := none, trainPresent := none, conflict := false }

/-- The written fields of a contact line (8.1). -/
def Line.configured (x : Line) : Line :=
  { x with raw := false, debounced := none, stand := 0, latch := false, shown := false }

/-- The resident fields of the evacuation controller (9.1). -/
def Evac.configured (x : Evac) : Evac := { x with state := .normal, timer := 0, request := none, list := none }

/-- What no event of the timetable, the request queue, the arbiter, the live sources, the evacuation controller and the
contact lines changes: modes, links, clocks, tables and settings, the store controller's operation. -/
def Vol.outer (w : Vol) : Vol :=
  { w.fixed with
    zones := w.zones.map Zone.configured
    platforms := w.platforms.map Platform.configured
    lines := w.lines.map Line.configured
    evac := w.evac.configured
    engine := { w.engine.fixed with queueLatch := false }
    live := Vector.replicate 32 none
    calls := Vector.replicate 256 none
    due := [] }

/-- `w'` keeps of `w` what those events leave, and every notice that waits; its notice queue is within its capacity when
that of `w` is. -/
structure Vol.Around (w w' : Vol) : Prop where
  outer : w'.outer = w.outer
  notices : w.engine.notices <+: w'.engine.notices
  bound : w.engine.notices.length ≤ 24 → w'.engine.notices.length ≤ 24

/-! ### The state after an event -/

/-- `w'` is `w` after the end of an event. -/
structure Vol.EndsAs (w w' : Vol) : Prop extends Vol.Within w w' where
  quiet : w.exhaustedVoice = none → w'.unread = w.unread
  reading : w.exhaustedVoice = none → w.store.read.isSome = true → w'.store.read = w.store.read

/-- `t` is `s` after the end of an event: power, nonvolatile store and queue of commands stand. -/
structure State.EndsAs (s t : State) : Prop where
  power : t.power = s.power
  nv : t.nv = s.nv
  pending : t.pending = s.pending
  vol : s.vol.EndsAs t.vol
  ended : t = s.finish

/-- `t` keeps of `s` what the end of an event cannot change: power, nonvolatile store, queue of commands, and the rest. -/
structure State.Within (s t : State) : Prop where
  power : t.power = s.power
  nv : t.nv = s.nv
  pending : t.pending = s.pending
  vol : s.vol.Within t.vol

/-- `t` keeps of `s` what the events of the station leave. -/
structure State.Around (s t : State) : Prop where
  power : t.power = s.power
  nv : t.nv = s.nv
  pending : t.pending = s.pending
  vol : s.vol.Around t.vol

/-! ### Requests -/

/-- R175, tests 1 to 3: the request `h` has taken the reply place `place` of the running part. -/
structure State.Serves (s : State) (h : RequestHeader) (place : Nat) : Prop where
  running : s.running = true
  addressed : s.vol.addressed h.destination = true
  place : s.vol.freePlace = some place

/-- R175, tests 1 to 6: the request `i` with header `h` has reached its owner. -/
structure State.Reaches (s : State) (i : Instr) (h : RequestHeader) (place : Nat) : Prop extends State.Serves s h place where
  ready : s.vol.engine.address ≠ 0
  shaped : i.wf = true

/-- R175, R177: the state with the reply to `h` in its place, from the node address as it stands in `s`. -/
def State.replied (s : State) (h : RequestHeader) (kind place : Nat) (code : ResultCode) (body : ReplyBody) : State :=
  { s with
    vol := s.vol.writeReply place
      { destination := h.source, source := s.vol.engine.address, kind := kind, tag := h.tag, code := code, body := body } }

/-- R120, R121: the store can take a request that starts an operation. -/
structure State.StoreFree (s : State) : Prop where
  normal : s.vol.evac.state = .normal
  ready : s.vol.store.op = .ready

/-- A part of the coming block mark that a command can still take (R169; log entry 6). -/
structure State.AtMark (s : State) (m : MarkPart) : Prop where
  running : s.running = true
  mark : s.vol.atMark = true
  left : s.vol.taken m = false

end Sys2Proof.Machine

namespace Sys2Proof

/-- The header and the kind of a command that is a message of class request on UP (R174). -/
def Instr.request : Instr → Option (RequestHeader × Nat)
  | .requestUnknownKind h k => some (h, k)
  | .hello h => some (h, 1)
  | .address h _ => some (h, 2)
  | .status h _ => some (h, 3)
  | .resetAudio h => some (h, 4)
  | .resetFull h => some (h, 4)
  | .alertMask h _ => some (h, 5)
  | .tableWriteZone h _ => some (h, 6)
  | .tableWriteGroup h _ _ => some (h, 6)
  | .tableWritePlatform h _ _ _ => some (h, 6)
  | .tableWriteProfile h _ => some (h, 6)
  | .tableWriteTemplate h _ => some (h, 6)
  | .tableWriteHours h _ _ => some (h, 6)
  | .tableWriteMinutes h _ _ => some (h, 6)
  | .tableWriteNumbers h _ _ => some (h, 6)
  | .tableWritePlatformsPhrase h _ _ => some (h, 6)
  | .tableWriteDestinations h _ _ => some (h, 6)
  | .tableWriteContactLine h _ => some (h, 6)
  | .tableWriteGenerator h _ _ _ _ => some (h, 6)
  | .tableWriteLinkConfig h _ _ => some (h, 6)
  | .tableWriteUnassigned h _ => some (h, 6)
  | .tableRead h _ _ => some (h, 7)
  | .time h _ _ => some (h, 8)
  | .callLoad h _ => some (h, 9)
  | .callUpdate h _ _ _ => some (h, 10)
  | .callMarkArrived h _ => some (h, 11)
  | .callMarkDeparted h _ => some (h, 11)
  | .callCancel h _ => some (h, 12)
  | .callRemove h _ => some (h, 13)
  | .announce h _ => some (h, 14)
  | .announceCancel h _ => some (h, 15)
  | .liveStart h _ => some (h, 16)
  | .liveStartEvac h _ => some (h, 16)
  | .liveStop h _ => some (h, 17)
  | .gainSet h _ => some (h, 18)
  | .monitorSelect h _ => some (h, 19)
  | .evacStart h => some (h, 20)
  | .evacEscalate h => some (h, 21)
  | .evacStop h => some (h, 22)
  | .clipOpen h _ _ _ => some (h, 23)
  | .pageWrite h _ _ _ => some (h, 24)
  | .clipSeal h _ _ _ => some (h, 25)
  | .clipRetire h _ => some (h, 26)
  | .sectorEraseArm h _ _ => some (h, 27)
  | .sectorEraseGo h _ _ => some (h, 28)
  | .storeAbort h => some (h, 29)
  | .guardSet h _ => some (h, 30)
  | .guardClear h _ => some (h, 31)
  | .programWrite h _ => some (h, 32)
  | _ => none

end Sys2Proof
end

