-- ==== Sys2Proof/Certificates/Slice0/Obligations.lean ====
section
/-! DEFINITION. The statements for the provers. -/

namespace Sys2Proof.Statements

open Sys2Proof.Machine

/-- The command `i` answers a next state, which is `s'` after the end of the event. -/
def Happens (i : Instr) (s s' : State) : Prop := ∃ t, exec i s = .next t ∧ s'.EndsAs t

/-- The command `i` answers a next state, which is `s'` with the reply to the request `h` in its place, after the end of the
event. -/
def Answers (i : Instr) (s s' : State) (h : RequestHeader) (kind place : Nat) (code : ResultCode)
    (body : ReplyBody := .none) : Prop := Happens i s (s'.replied h kind place code body)

/-- The request `i` is answered with `code`, and nothing but its reply is new. -/
def Declines (i : Instr) (s : State) (h : RequestHeader) (kind place : Nat) (code : ResultCode) : Prop :=
  Answers i s s h kind place code

/-- The clip store request `i` is answered with `code`; it has cleared the two arms and nothing else (R120). -/
def StoreDeclines (i : Instr) (s : State) (h : RequestHeader) (kind place : Nat) (code : ResultCode) : Prop :=
  Answers i s { s with vol := s.vol.clearArms } h kind place code

/-- The five commands of power and reset. -/
def ofPower : Instr → Bool
  | .powerOn | .powerLoss | .lineReset | .resetRelease _ | .programWriteComplete _ => true
  | _ => false

/-- The commands that can write the byte memory of the clip store. -/
def writesBytes : Instr → Bool
  | .frameClockFrame _ | .programmingComplete | .eraseComplete => true
  | _ => false

/-- The commands that can act on a guard mark: the two requests, and the frame that can carry one. -/
def actsOnGuards : Instr → Bool
  | .guardSet _ _ | .guardClear _ _ | .upstreamFrame _ => true
  | _ => false

/-- Requests that act on calls, announcements, live sources and the evacuation. -/
def actsOnStation : Instr → Bool
  | .callLoad _ _ | .callUpdate _ _ _ _ | .callMarkArrived _ _ | .callMarkDeparted _ _ | .callCancel _ _
  | .callRemove _ _ | .announce _ _ | .announceCancel _ _ | .liveStart _ _ | .liveStartEvac _ _ | .liveStop _ _
  | .evacStart _ | .evacEscalate _ | .evacStop _ => true
  | _ => false

/-- The part of a block mark that a command takes, for the parts that act on the station. -/
def stationPart : Instr → Option MarkPart
  | .contactEdge l => some (.line l)
  | .lineSettle l _ => some (.line l)
  | .voiceStart v => some (.voice v)
  | .voiceResume v => some (.voice v)
  | .voiceEnd v => some (.voice v)
  | .voiceCancelStop v => some (.voice v)
  | .evacListChange => some .list
  | .talkLimit l => some (.talk l)
  | .laneAbsent l => some (.absence l)
  | .alertTimerExpiry => some .alert
  | .zoneSilenceExpiry z => some (.silence z)
  | _ => none

/-- Page number `k` among all pages is one that the operation mark makes DIRTY (R137). -/
def MarkedPage : OpMark → Nat → Prop
  | .none, _ => False
  | .page bank p, k => k = pageIndex bank p
  | .sector bank s, k => pageIndex bank (64 * s) ≤ k ∧ k < pageIndex bank (64 * s) + 64
  | .programme, _ => False

/-- How many pages the operation mark makes DIRTY (R137). -/
def markedPages : OpMark → Nat
  | .none => 0
  | .page _ _ => 1
  | .sector _ _ => 64
  | .programme => 0

/-- The entries `es` stand at the indices from `first` on in a table whose indices start at `lo`; the others stand. -/
def Written {n : Nat} (old new : Vector (Option Nat) n) (lo first : Nat) (es : List (Option Nat)) : Prop :=
  ∀ k, k < n → tget none new k =
    if first ≤ lo + k ∧ lo + k < first + es.length then es.getD (lo + k - first) none else tget none old k

/-- R83: the list, its clips and its indices are in range, in a table of `n` indices from `lo` on. -/
def PhrasePasses (lo n first : Nat) (es : List (Option Nat)) : Prop :=
  1 ≤ es.length ∧ es.length ≤ 64 ∧ (∀ c, some c ∈ es → c < 1024) ∧ lo ≤ first ∧ first + es.length ≤ lo + n

/-- R83 for one phrase class: `make` is its command, `table` and `put` its table, whose `n` indices start at `lo`. -/
def PhraseRule {n : Nat} (make : RequestHeader → Nat → List (Option Nat) → Instr) (table : Vol → Vector (Option Nat) n)
    (put : Vol → Vector (Option Nat) n → Vol) (lo : Nat) : Prop :=
  ∀ (h : RequestHeader) (first : Nat) (es : List (Option Nat)) (s : State) (place : Nat),
    s.Reaches (make h first es) h place →
    (PhrasePasses lo n first es → ∃ new, Written (table s.vol) new lo first es
        ∧ Answers (make h first es) s { s with vol := put s.vol new } h 6 place .ok)
      ∧ (¬ PhrasePasses lo n first es → Declines (make h first es) s h 6 place .badArg)

/-- R3, check 2: in NORMAL mode the record repeats the placement and the evacuation base held. -/
def PassesResident (w : Vol) (r : ZoneRecord) : Prop :=
  w.mode = .maintenance ∨ (r.placement = (w.zone r.zone).placement ∧ r.evacBase = (w.zone r.zone).evacBase)

/-- An item of a template in its range (5.1). -/
def ItemRange (i : Item) : Prop :=
  (∀ c, i = .clip c → c ≤ 1023) ∧ (∀ n, i = .pause n → 1 ≤ n ∧ n ≤ 50) ∧ ∀ t n, i = .tone t n → t ≤ 3 ∧ 1 ≤ n ∧ n ≤ 100

/-- A fragment of the alert or the evacuation list in its range (7.9). -/
def FragmentRange (i : ListItem) : Prop := (∀ c, i = .clip c → c ≤ 1023) ∧ ∀ t n, i = .tone t n → t ≤ 3 ∧ 1 ≤ n ∧ n ≤ 100

/-- The source of an OUTPUT line with its parameter in its range (R139). -/
def SourceRange (src : OutSource) : Prop :=
  (∀ z, src = .zoneHeld z ∨ src = .zoneFaulted z → z ≤ 63)
    ∧ ∀ p, src = .platformOccupied p ∨ src = .platformFinal p → 1 ≤ p ∧ p ≤ 32

/-- R45: the list and its entries are in range, each entry carries a base, no zone is named twice. -/
def GainPasses (es : List GainEntry) : Prop :=
  1 ≤ es.length ∧ es.length ≤ 64 ∧ (es.map (·.zone)).Nodup
    ∧ ∀ e ∈ es, e.zone < 64 ∧ (∀ x, e.fg = some x → x ≤ 191) ∧ (∀ x, e.bg = some x → x ≤ 191)
        ∧ (e.fg.isSome = true ∨ e.bg.isSome = true)

/-- R130: a clip with a page in the sector is VALID or WRITING or has a use count above 0. -/
def SectorWanted (s : State) (bank : ClipBank) (sector : Nat) : Prop :=
  ∃ e ∈ s.nv.dir, e.2.meets bank (64 * sector) 64 = true
    ∧ (e.2.state = .valid ∨ e.2.state = .writing ∨ 0 < Sparse.get 0 s.vol.store.uses e.1)

/-- Every entry of every phrase table is empty. -/
def PhrasesEmpty (w : Vol) : Prop :=
  w.hours = Vector.replicate 24 none ∧ w.minutes = Vector.replicate 60 none ∧ w.numbers = Vector.replicate 100 none
    ∧ w.platPhrases = Vector.replicate 32 none ∧ w.dests = Vector.replicate 256 none

/-- Every phrase table stands as it was. -/
def PhrasesKept (w w' : Vol) : Prop :=
  w'.hours = w.hours ∧ w'.minutes = w.minutes ∧ w'.numbers = w.numbers ∧ w'.platPhrases = w.platPhrases
    ∧ w'.dests = w.dests

/-- R117, R138: the store controller at a soft reset: the arms are clear and the use counts 0, the read of a voice is
discarded, and all else is kept. -/
def softStore (c : StoreCtl) : StoreCtl :=
  { c with
    eraseArm := none, abortArm := false, uses := []
    read := c.read.map fun r =>
      match r.user with
      | .voice _ => { r with user := .discarded }
      | _ => r }

/-- R140: a contact line as the resident programme gives it, unsettled (R143); its raw level stands. -/
def residentLineFrom (l : Option EvacLine) (raw : Bool) : Line :=
  match l with
  | none => { fn := .plain, polarity := .activeHigh, debounce := 10, report := .none, raw := raw, debounced := none, stand := 0,
              latch := false, shown := false }
  | some x => { fn := .evac x.fn, polarity := x.polarity, debounce := x.debounce, report := .both, raw := raw,
                debounced := none, stand := 0, latch := false, shown := false }

/-- The notices of a soft reset: REQUEST END in queue order, then LIVE END in lane order (R35, R100, R183). -/
def resetNotices (w : Vol) : List (Nat × Notice) :=
  (w.queue.requests.map fun r =>
      (w.engine.address, .requestEnd (some r.number) r.origin r.call r.platform r.template r.priority .reset))
    ++ (List.range 32).filterMap fun l => (w.source l).map fun x => (w.engine.address, .liveEnd l x.opener .reset)

end Sys2Proof.Statements

open Sys2Proof Sys2Proof.Machine Sys2Proof.Statements

/-! ### The queue of commands -/

/-- A step takes the command at the front of the queue and runs it on the state with the rest of the queue. -/
def Obligations.FrontCommandRuns : Prop :=
  ∀ (c : Instr) (s : State) (rest : List Instr),
    s.pending = c :: rest → Machine.step s = exec c { s with pending := rest }

/-- On an empty queue the block idles: the model's choice (log entry 7). -/
def Sys2Proof.Statements.EmptyQueueIdles : Prop := ∀ s : State, s.pending = [] → Machine.step s = .next s

/-- Every command answers a next state and leaves the queue of commands as it was. -/
def Obligations.CommandsGoOn : Prop :=
  ∀ (i : Instr) (s : State), ∃ t, exec i s = .next t ∧ t.pending = s.pending

/-- While the part does not run, every command but the five of power and reset leaves it as it was (log entry 4). -/
def Sys2Proof.Statements.PartAtRestStandsStill : Prop :=
  ∀ (i : Instr) (s : State), s.running = false → ofPower i = false → exec i s = .next s

/-- A command for an internal event that is not due leaves the part as it was: the model's choice (log entry 5). -/
def Sys2Proof.Statements.EventsNotDueChangeNothing : Prop :=
  (∀ s : State, s.vol.storeStarting = false → exec .scanComplete s = .next s)
    ∧ (∀ (g : Fin 4) (s : State), (s.vol.gen g).ends = false → exec (.generatorPeriodEnd g) s = .next s)
    ∧ (∀ (l : Fin 16) (s : State), (s.vol.edgeDue l true || s.vol.edgeDue l false) = false →
        exec (.contactEdge l) s = .next s)
    ∧ (∀ (l : Fin 16) (high : Bool) (s : State), s.vol.settleDue l high = false → exec (.lineSettle l high) s = .next s)
    ∧ (∀ s : State, s.vol.secondDue = false → exec .secondAdvance s = .next s)
    ∧ (∀ s : State, s.dueReady = false → exec .dueEntryTaken s = .next s)
    ∧ (∀ (n : Nat) (s : State), s.vol.isReadyNow n = false → exec (.requestReady n) s = .next s)
    ∧ (∀ (n : Nat) (s : State), s.vol.isExpiredNow n = false → exec (.requestExpired n) s = .next s)
    ∧ (∀ (v : ReadVerdict) (s : State), s.vol.readDue = false →
        exec (.pageReadComplete v) s = .next s ∧ exec (.verifyComplete v) s = .next s)
    ∧ (∀ (v : Fin 8) (s : State), s.vol.canStart v = false → exec (.voiceStart v) s = .next s)
    ∧ (∀ (v : Fin 8) (s : State), s.vol.canResume v = false → exec (.voiceResume v) s = .next s)
    ∧ (∀ (v : Fin 8) (s : State), s.vol.atEnd v = false → exec (.voiceEnd v) s = .next s)
    ∧ (∀ (v : Fin 8) (s : State), s.vol.cancelled v = false → exec (.voiceCancelStop v) s = .next s)
    ∧ (∀ s : State, s.vol.listDue = false → exec .evacListChange s = .next s)
    ∧ (∀ (z : Fin 64) (s : State), s.vol.silenceDue z = false → exec (.zoneSilenceExpiry z) s = .next s)
    ∧ (∀ (l : Fin 32) (s : State), s.vol.talkDue l = false → exec (.talkLimit l) s = .next s)
    ∧ (∀ (l : Fin 32) (s : State), s.vol.absenceDue l = false → exec (.laneAbsent l) s = .next s)
    ∧ (∀ s : State, s.vol.alertDue = false → exec .alertTimerExpiry s = .next s)
    ∧ (∀ s : State, s.vol.store.op.programmed = false → exec .programmingComplete s = .next s)
    ∧ (∀ s : State, s.vol.store.op.erased = false → exec .eraseComplete s = .next s)
    ∧ (∀ s : State, s.vol.sendingDone = false → exec .messageSendComplete s = .next s)

/-- The model's own choices on a command that finds nothing to do: an empty queue idles (log entry 7), a part at rest stands
still (log entry 4), an internal event that is not due changes nothing (log entry 5). -/
def Obligations.NothingToDo : Prop := EmptyQueueIdles ∧ PartAtRestStandsStill ∧ EventsNotDueChangeNothing

/-! ### Power and reset -/

/-- The application of power: the part is held in reset, the nonvolatile store stands, and every block takes the values of
its power-on column. The lines, zones and evacuation fields take their resident values at the release (R135). A field
without a reset value in the spec takes the model's choice (log entry 3). -/
def Obligations.PowerOnValues : Prop :=
  ∀ s : State, ∃ t, exec .powerOn s = .next t ∧ t.power = .held ∧ t.nv = s.nv ∧ t.pending = s.pending
    -- zones, groups, platforms (R6 to R8, R10, R11, R16)
    ∧ (∀ z < 64, (t.vol.zone z).cond = .unknown ∧ (t.vol.zone z).normals = 0 ∧ (t.vol.zone z).silence = 0
        ∧ (t.vol.zone z).ambient = none ∧ (t.vol.zone z).extFault = false ∧ (t.vol.zone z).history = .empty
        ∧ (t.vol.zone z).holder = none ∧ (t.vol.zone z).waiters = []
        ∧ (t.vol.zone z).bgLane = none ∧ (t.vol.zone z).duck = 0 ∧ (t.vol.zone z).fgBase = 0 ∧ (t.vol.zone z).bgBase = 0
        ∧ (t.vol.zone z).fallback = none ∧ (t.vol.zone z).compOn = false ∧ (t.vol.zone z).compRef = 60
        ∧ (t.vol.zone z).compLimit = 0)
    ∧ (∀ g < 31, t.vol.group g = [])
    ∧ (∀ p, t.vol.platform p = { group := none, warning := none, occupant := none, trainPresent := none, conflict := false })
    ∧ t.vol.reportDiscards = 0
    -- claims, live sources, gain (R17, R18, R35, R53)
    ∧ (∀ c, t.vol.claim c = none) ∧ t.vol.stampCounter = 0 ∧ (∀ l, t.vol.source l = none)
    ∧ (∀ z, (t.vol.gain z).fgLevel = 192 ∧ (t.vol.gain z).bgLevel = 192 ∧ (t.vol.gain z).stagedFg = none
        ∧ (t.vol.gain z).stagedBg = none ∧ (t.vol.gain z).cut = false)
    ∧ t.vol.rampRate = 2 ∧ t.vol.monitor = none
    -- clock, calls, profiles, queue, templates, phrases (R54, R57, R81, R82, R83, R100)
    ∧ t.vol.clock = { isSet := false, time := 0, dayBase := 0, marks := 0 }
    ∧ (∀ c, t.vol.call c = none) ∧ t.vol.due = []
    ∧ (∀ p, t.vol.profile p = { approachLead := 0, boardingLead := 0, finalLead := 0, clearDelay := 0, delayThreshold := 5,
                                concourse := none, templates := Vector.replicate 7 none })
    ∧ t.vol.queue = { requests := [], nextNumber := 0, nextStamp := 0 } ∧ (∀ n, t.vol.template n = none)
    ∧ PhrasesEmpty t.vol
    -- voices, store, generators, evacuation, lines (R117, R138, R149, R161)
    ∧ (∀ v, (t.vol.voice v).state = .idle ∧ (t.vol.voice v).stalls = 0 ∧ (t.vol.voice v).damaged = 0
        ∧ (t.vol.voice v).request = none ∧ (t.vol.voice v).claim = none ∧ (t.vol.voice v).frags = []
        ∧ (t.vol.voice v).buffer = [] ∧ (t.vol.voice v).demand = none ∧ (t.vol.voice v).newList = none)
    ∧ t.vol.store.uses = [] ∧ t.vol.store.damagedMarks = [] ∧ t.vol.store.read = none
    ∧ t.vol.storeStarting = true ∧ t.vol.store.eraseArm = none ∧ t.vol.store.abortArm = false
    ∧ t.vol.store.checkFail = false ∧ t.vol.store.corrected = 0 ∧ t.vol.store.uncorrectable = 0
    ∧ (∀ g, ((t.vol.gen g).p, (t.vol.gen g).r, (t.vol.gen g).f) = (100, 0, 50) ∧ (t.vol.gen g).phase = 0
        ∧ (t.vol.gen g).staged = none)
    ∧ t.vol.evac.state = .normal ∧ t.vol.evac.timer = 0 ∧ t.vol.evac.request = none ∧ t.vol.evac.list = none
    ∧ (∀ l, (t.vol.line l).debounced = none ∧ (t.vol.line l).stand = 0 ∧ (t.vol.line l).latch = false)
    -- ports, alignment buffer, frame clock, message engine (R169, R173, R184)
    ∧ (∀ p, (t.vol.port p).state = .down ∧ (t.vol.port p).counts = .zero ∧ (t.vol.port p).rx = .ignoring
        ∧ (t.vol.port p).last = none)
    ∧ t.vol.engine.sending = none ∧ t.vol.engine.waiting = []
    ∧ t.vol.align.state = .silent ∧ t.vol.align.frames = [] ∧ t.vol.align.delay = 96
    ∧ t.vol.fclk.count = 0 ∧ t.vol.fclk.fresh = true
    ∧ t.vol.engine.address = 0 ∧ (∀ i < 8, tget none t.vol.engine.places i = none) ∧ t.vol.engine.notices = []
    ∧ t.vol.engine.overflow = false ∧ t.vol.engine.classDiscards = 0 ∧ t.vol.engine.addressDiscards = 0
    ∧ t.vol.engine.placeDiscards = 0 ∧ t.vol.engine.mask = [] ∧ t.vol.engine.raised = false
    ∧ t.vol.engine.queueLatch = false ∧ t.vol.engine.cause = .power
    -- and all the rest
    ∧ t.vol = Vol.powerOn

/-- The loss of power leaves the nonvolatile store and its operation mark as they stand (R118, R120). -/
def Sys2Proof.Statements.PowerLossKeepsTheStore : Prop :=
  ∀ s : State, ∃ t, exec .powerLoss s = .next t ∧ t.power = .off ∧ t.nv = s.nv ∧ t.pending = s.pending

/-- The line reset: the part is held in reset at its power-on values, but for the fault histories (R16), the last reset
cause (R180) and a resident programme write, which runs on (R136). Without power nothing happens (log entry 4). -/
def Sys2Proof.Statements.LineResetValues : Prop :=
  ∀ s : State,
    (s.power = .off → exec .lineReset s = .next s)
    ∧ (s.power ≠ .off → ∃ t, exec .lineReset s = .next t ∧ t.power = .held ∧ t.nv = s.nv ∧ t.pending = s.pending
        ∧ (∀ z < 64, t.vol.zone z = { Zone.initial with history := (s.vol.zone z).history })
        ∧ t.vol.engine = { Engine.initial with cause := .line }
        ∧ (∀ p n, s.vol.store.op = .programWrite p n → t.vol.store = { StoreCtl.initial with op := .programWrite p n })
        ∧ (s.vol.store.op.isProgramWrite = false → t.vol.store = .initial)
        ∧ { t.vol with zones := Vol.powerOn.zones, engine := Vol.powerOn.engine, store := Vol.powerOn.store }
            = Vol.powerOn)

/-- The loss of power and the reset line. -/
def Obligations.PowerLossAndLineReset : Prop := PowerLossKeepsTheStore ∧ LineResetValues

/-- The release of reset: the programme check is computed over the programme's fields and compared with the stored one,
which gives the programme state (R135; log entry 10 for the bytes it covers); NORMAL mode by the strap on CL0 with a VALID
programme, else MAINTENANCE (R134, R145); the resident values are loaded (R135), the scan begins (R137), the first frame carries the first block mark (R169). A
programme write holds the part in reset to its completion (R136). -/
def Obligations.ReleaseOfReset : Prop :=
  ∀ (cl0High : Bool) (s : State), s.power = .held →
    (s.vol.store.op.isProgramWrite = true → exec (.resetRelease cl0High) s = .next { s with power := .releasing })
    ∧ (s.vol.store.op.isProgramWrite = false → ∃ t, exec (.resetRelease cl0High) s = .next t
        ∧ t.power = .running ∧ t.nv = s.nv ∧ t.pending = s.pending
        ∧ t.vol.mode = (if cl0High = true ∧ s.nv.programme.check = s.nv.programmeCheck then .normal else .maintenance)
        ∧ t.vol.store = { s.vol.store with op := .starting 0,
                                           programmeValid := decide (s.nv.programme.check = s.nv.programmeCheck) }
        ∧ t.vol.fclk = s.vol.fclk ∧ t.vol.engine = s.vol.engine
        ∧ (∀ pr, pr = (if s.nv.programme.check = s.nv.programmeCheck then s.nv.programme else .empty) →
            (∀ z < 64, t.vol.zone z =
              { s.vol.zone z with
                placement := tget none pr.placements z, enabled := tget false pr.enabled z,
                evacBase := tget 0 pr.evacBases z })
            ∧ t.vol.group 31 = pr.group ∧ (∀ g < 31, t.vol.group g = s.vol.group g)
            ∧ t.vol.evac = { s.vol.evac with lane := pr.lane, alertList := pr.alertList, evacList := pr.evacList,
                                             duration := pr.duration }
            ∧ (∀ l < 16, t.vol.line l =
                match tget none pr.lines l with
                | none => { fn := .plain, polarity := .activeHigh, debounce := 10, report := .none,
                            raw := (s.vol.line l).raw, debounced := none, stand := 0, latch := false, shown := false }
                | some x => { fn := .evac x.fn, polarity := x.polarity, debounce := x.debounce, report := .both,
                              raw := (s.vol.line l).raw, debounced := none, stand := 0, latch := false, shown := false })))

/-- The start-up scan: the marked page or sector becomes DIRTY, every WRITING clip becomes RETIRED, the fill points are set,
the store is READY and STORE DONE carries the programme state and the two counts (R137); the evacuation controller is told
(R156). That a sector mark counts as 64 pages is the model's reading (log entry 14). -/
def Sys2Proof.Statements.ScanTaken : Prop :=
  ∀ (s : State) (n : Nat), s.running = true → s.vol.store.op = .starting n → s.nv.wf = true →
    ∃ nv : Nonvolatile,
      Happens .scanComplete s
          { s with
            nv := nv
            vol :=
              (({ s.vol with
                  store := { s.vol.store with op := .ready, fillR := nv.fillAfter .r, fillA := nv.fillAfter .a,
                                              fillB := nv.fillAfter .b } }).notify
                (.storeDone (.scan s.vol.store.programmeValid s.nv.writingCount (markedPages s.nv.opMark)))).scanDoneEvac }
        ∧ nv.opMark = .none ∧ nv.mem = s.nv.mem ∧ nv.g1 = s.nv.g1 ∧ nv.g2 = s.nv.g2
        ∧ nv.programme = s.nv.programme ∧ nv.programmeCheck = s.nv.programmeCheck
        ∧ (∀ c, nv.clip c =
            if (s.nv.clip c).state = .writing then { s.nv.clip c with state := .retired } else s.nv.clip c)
        ∧ (∀ bank p, (MarkedPage s.nv.opMark (pageIndex bank p) → nv.page bank p = .dirty)
            ∧ (¬ MarkedPage s.nv.opMark (pageIndex bank p) → nv.page bank p = s.nv.page bank p))

/-- The fill point that the scan sets for a bank: the page after the last one that is not ERASED, or page 0 where that lies beyond
the bank's end or every page is ERASED (R137, step 4). -/
def Sys2Proof.Statements.FillPoints : Prop :=
  ∀ (nv : Nonvolatile) (bank : ClipBank), nv.wf = true →
    ((∀ p < bankPages bank, nv.page bank p = .erased) → nv.fillAfter bank = 0)
    ∧ ∀ p < bankPages bank, nv.page bank p ≠ .erased → (∀ q < bankPages bank, p < q → nv.page bank q = .erased) →
        nv.fillAfter bank = if p + 1 = bankPages bank then 0 else p + 1

/-- `w` with `items` given to voice 7 as a change of list, which is then the list `l` in force; one given at a block mark waits
for the next (R116). -/
def Sys2Proof.Statements.giveList (w : Vol) (l : EvacList) (items : List ListItem) (marked : Bool) : Vol :=
  { w with
    evac := { w.evac with list := some l }
    voices := tset w.voices 7 { w.voice 7 with newList := some items, newListWaits := marked } }

/-- `w'` is `w` with voice 7 given the list of the current stage, or the stand-in while the store is STARTING (R116, R156). -/
def Sys2Proof.Statements.StageListGiven (w : Vol) (marked : Bool) (w' : Vol) : Prop :=
  ((∃ n, w.store.op = .starting n) → w' = giveList w .standIn [.tone 2 100] marked)
    ∧ ((∀ n, w.store.op ≠ .starting n) → w.evac.state = .alert → w' = giveList w .alert w.evac.alertList marked)
    ∧ ((∀ n, w.store.op ≠ .starting n) → w.evac.state = .evacuate → w' = giveList w .evacuate w.evac.evacList marked)

/-- What the end of the scan does to the evacuation: while the stand-in is in force, voice 7 is given the list of the current
stage as a change; with another list in force, or none, nothing (R156). -/
def Sys2Proof.Statements.ScanTold : Prop :=
  ∀ w : Vol, (w.evac.list = some .standIn → StageListGiven w false w.scanDoneEvac)
    ∧ (w.evac.list ≠ some .standIn → w.scanDoneEvac = w)

/-- The start-up scan, the fill points it sets and the list it lets voice 7 go on with (R116, R137, R156). -/
def Obligations.ScanComplete : Prop := ScanTaken ∧ FillPoints ∧ ScanTold

/-! ### Invariants -/

/-- Every step keeps the canonical form of the byte memory, the page states and the directory. -/
def Obligations.StoreFormKept : Prop :=
  ∀ s t : State, s.nv.wf = true → Machine.step s = .next t → t.nv.wf = true

/-- The store has its canonical form at reset, and the notice queue is within its bound. That State.reset holds a store that
was never written is the model's choice (log entry 1). -/
def Obligations.StoreFormAtReset : Prop := State.reset.nv.wf = true ∧ State.reset.vol.engine.notices.length ≤ 24

/-- Every step keeps the notice queue within its 24 notices (R178). -/
def Sys2Proof.Statements.NoticeQueueBounded : Prop :=
  ∀ s t : State, s.vol.engine.notices.length ≤ 24 → Machine.step s = .next t → t.vol.engine.notices.length ≤ 24

/-- Every step keeps the frame count within 0 to 47 (R169). -/
def Sys2Proof.Statements.FrameCountBounded : Prop :=
  ∀ s t : State, s.vol.fclk.count < 48 → Machine.step s = .next t → t.vol.fclk.count < 48

/-- Two bounds that every step keeps: 24 notices (R178), frame count 0 to 47 (R169). -/
def Obligations.CountsBounded : Prop := NoticeQueueBounded ∧ FrameCountBounded

/-- Only a completed programming or erase changes a byte of the clip store: every command but those two and the frame,
which takes a completion that is overdue (log entry 8), keeps every byte (R127, R131). The frame stands in `FrameKeepsStore`. -/
def Sys2Proof.Statements.OnlyCompletionsWriteBytes : Prop :=
  ∀ (i : Instr) (s : State), writesBytes i = false → ∃ t, exec i s = .next t ∧ ∀ a, Memory.read t.nv.mem a = Memory.read s.nv.mem a

/-- Only GUARD SET and GUARD CLEAR, sent alone or within an upstream frame, act on a guard mark (R133). -/
def Sys2Proof.Statements.GuardsStandWithoutRequest : Prop :=
  ∀ (i : Instr) (s : State), actsOnGuards i = false → ∃ t, exec i s = .next t ∧ t.nv.g1 = s.nv.g1 ∧ t.nv.g2 = s.nv.g2

/-- When a read has lasted its 1 ms, and when an operation has had its time: 2 ms of programming, 1,000 ms of erase, 400 ms of
programme write, and the scan its longest, 300 ms. The count in frames is the model's choice (log entry 8). -/
def Sys2Proof.Statements.StoreTimes : Prop :=
  (∀ w : Vol, w.readDue = true ↔ ∃ r, w.store.read = some r ∧ 48 ≤ r.elapsed)
    ∧ ∀ op : StoreOp, op.overdue = true ↔ (∃ c bank p data, ∃ n ≥ 96, op = .programming c bank p data n)
        ∨ (∃ bank k, ∃ n ≥ 48000, op = .erasing bank k n) ∨ (∃ pr, ∃ n ≥ 19200, op = .programWrite pr n)
        ∨ ∃ n ≥ 14400, op = .starting n

/-- What a frame of the frame clock does to the nonvolatile store: nothing while neither a read nor an operation is due; while no
operation is overdue the directory alone can change, by the end of a verify, and so no byte, no page state, no guard and nothing of
the programme; and when an operation is overdue, what the command for its completion does, and no more (R127, R128, R131, R136;
log entry 8). -/
def Sys2Proof.Statements.FrameKeepsStore : Prop :=
  ∀ (x : FrameInput) (s : State), s.running = true → ∃ t, exec (.frameClockFrame x) s = .next t
    ∧ (s.vol.readDue = false → s.vol.store.op.overdue = false → t.nv = s.nv)
    ∧ (s.vol.store.op.overdue = false → { t.nv with dir := s.nv.dir } = s.nv
        ∧ ∀ a, Memory.read t.nv.mem a = Memory.read s.nv.mem a)
    ∧ (s.vol.store.op.overdue = true →
        (∀ c bank p data n, s.vol.store.op = .programming c bank p data n →
          ∃ u, exec .programmingComplete s = .next u ∧ t.nv = u.nv)
        ∧ (∀ bank k n, s.vol.store.op = .erasing bank k n → ∃ u, exec .eraseComplete s = .next u ∧ t.nv = u.nv)
        ∧ (∀ pr n b, s.vol.store.op = .programWrite pr n → ∃ u, exec (.programWriteComplete b) s = .next u ∧ t.nv = u.nv)
        ∧ ∀ n, s.vol.store.op = .starting n → ∃ u, exec .scanComplete s = .next u ∧ t.nv = u.nv)

/-- What the commands that complete no operation leave of the nonvolatile store, and what a frame of the frame clock leaves of it. -/
def Obligations.StoreStandsAlone : Prop :=
  OnlyCompletionsWriteBytes ∧ GuardsStandWithoutRequest ∧ StoreTimes ∧ FrameKeepsStore

/-! ### Taking a request (R175 to R178) -/

/-- A request for another node is discarded and counted; so is one that finds no reply place. The counts stay at 255. -/
def Sys2Proof.Statements.RequestsDiscarded : Prop :=
  ∀ (i : Instr) (h : RequestHeader) (kind : Nat) (s : State), i.request = some (h, kind) → s.running = true →
    (h.destination ≠ 255 → h.destination ≠ s.vol.engine.address →
      exec i s = .next { s with vol := { s.vol with engine :=
        { s.vol.engine with addressDiscards := min 255 (s.vol.engine.addressDiscards + 1) } } })
    ∧ (h.destination = 255 ∨ h.destination = s.vol.engine.address →
        (∀ p < 8, (tget none s.vol.engine.places p).isSome = true) →
      exec i s = .next { s with vol := { s.vol with engine :=
        { s.vol.engine with placeDiscards := min 255 (s.vol.engine.placeDiscards + 1) } } })

/-- While the node address is unset every request but HELLO and ADDRESS is answered NOT_READY. -/
def Sys2Proof.Statements.RequestsNotReady : Prop :=
  ∀ (i : Instr) (h : RequestHeader) (kind : Nat) (s : State) (place : Nat), i.request = some (h, kind) →
    s.Serves h place → s.vol.engine.address = 0 → 3 ≤ kind → kind ≤ 32 → Declines i s h kind place .notReady

/-- A request whose fields do not have the shape of its kind, and one of a kind outside 1 to 32, is answered BAD_ARG. That a
request whose operands fit no coding counts as malformed is the model's choice (log entry 30). HELLO and ADDRESS are tested
for their shape with the address unset too. -/
def Sys2Proof.Statements.RequestsMalformed : Prop :=
  (∀ (i : Instr) (h : RequestHeader) (kind : Nat) (s : State) (place : Nat), i.request = some (h, kind) →
      s.Serves h place → s.vol.engine.address ≠ 0 ∨ kind = 1 ∨ kind = 2 → i.wf = false → Declines i s h kind place .badArg)
    ∧ (∀ (h : RequestHeader) (kind : Nat) (s : State) (place : Nat), s.Serves h place → kind < 1 ∨ 32 < kind →
      Declines (.requestUnknownKind h kind) s h kind place .badArg)

/-- Tests 4 to 6 of R175. -/
def Obligations.RequestsRefused : Prop := RequestsNotReady ∧ RequestsMalformed

/-- A message that tests 1 to 3 of R175 discard adds one to the count of the first test it fails. -/
def Sys2Proof.Statements.UpMessageDiscarded : Prop :=
  ∀ (m : MessageHeader) (s : State), s.running = true →
    (m.cls ≠ 1 → exec (.upMessageDiscarded m) s = .next { s with vol := { s.vol with engine :=
        { s.vol.engine with classDiscards := min 255 (s.vol.engine.classDiscards + 1) } } })
    ∧ (m.cls = 1 → m.destination ≠ 255 → m.destination ≠ s.vol.engine.address →
        exec (.upMessageDiscarded m) s = .next { s with vol := { s.vol with engine :=
          { s.vol.engine with addressDiscards := min 255 (s.vol.engine.addressDiscards + 1) } } })
    ∧ (m.cls = 1 → m.destination = 255 ∨ m.destination = s.vol.engine.address →
        (∀ p < 8, (tget none s.vol.engine.places p).isSome = true) →
        exec (.upMessageDiscarded m) s = .next { s with vol := { s.vol with engine :=
          { s.vol.engine with placeDiscards := min 255 (s.vol.engine.placeDiscards + 1) } } })

/-- Tests 1 to 3 of R175. -/
def Obligations.MessagesDiscarded : Prop := RequestsDiscarded ∧ UpMessageDiscarded

/-- A reply waits in its place after the replies written before it; the outbound arbiter gives UP the earliest reply, or
else the oldest notice, while UP is LOCKED, sends nothing and has sent a frame with its flag clear (R172, R177). -/
def Sys2Proof.Statements.OutboundMessageStart : Prop :=
  ∀ s : State, s.running = true → (s.vol.port 0).state = .locked → s.vol.engine.sending = none →
    s.vol.sent.up.valid = false →
    (∀ place rest r, s.vol.engine.waiting = place :: rest → tget none s.vol.engine.places place = some r →
      Happens .outboundMessageStart s
        { s with vol := { s.vol with engine :=
          { s.vol.engine with waiting := rest, sending := some { rest := r.message, place := some place } } } })
    ∧ (∀ source n rest, s.vol.engine.waiting = [] → s.vol.engine.notices = (source, n) :: rest →
      Happens .outboundMessageStart s
        { s with vol := { s.vol with engine :=
          { s.vol.engine with notices := rest, sending := some { rest := noticeMessage source n, place := none } } } })
    ∧ (s.vol.engine.waiting = [] → s.vol.engine.notices = [] → Happens .outboundMessageStart s s)

/-- When the last byte of a message has been sent, nothing is in sending, and a reply's place is free (R177). -/
def Sys2Proof.Statements.MessageSendComplete : Prop :=
  ∀ (s : State) (place : Option Nat), s.running = true → s.vol.engine.sending = some { rest := [], place := place } →
    Happens .messageSendComplete s
      { s with vol := { s.vol with engine :=
        { s.vol.engine with
          sending := none
          places := match place with
            | some p => tset s.vol.engine.places p none
            | none => s.vol.engine.places } } }

/-- The outbound arbiter (R172, R177). -/
def Obligations.OutboundMessages : Prop := OutboundMessageStart ∧ MessageSendComplete

/-- STORE DONE: the operation, its clip, its bank and sector, its result, the pages written for PAGE and SEAL, and the programme state
and the two counts for SCAN; a field that the operation lacks holds all ones (R120, R137, R174). The fields of the one layout are the
model's reading (log entry 14). -/
def Sys2Proof.Statements.StoreDoneCoded : Prop :=
  (∀ c aborted n, (Notice.storeDone (.page c aborted n)).body = [0, byteOf (c / 256), byteOf c, 0xFF, 0xFF,
      if aborted = true then 2 else 0, byteOf (n / 256), byteOf n, 0xFF, 0xFF, 0xFF, 0xFF])
    ∧ (∀ c aborted failed n, (Notice.storeDone (.seal c aborted failed n)).body = [1, byteOf (c / 256), byteOf c, 0xFF, 0xFF,
        if aborted = true then 2 else if failed = true then 1 else 0, byteOf (n / 256), byteOf n, 0xFF, 0xFF, 0xFF, 0xFF])
    ∧ (∀ bank sector aborted, (Notice.storeDone (.erase bank sector aborted)).body = [2, 0xFF, 0xFF, byteOf (bankCode bank),
        byteOf sector, if aborted = true then 2 else 0, 0xFF, 0xFF, 0xFF, 0xFF, 0xFF, 0xFF])
    ∧ (Notice.storeDone .programme).body = [3, 0xFF, 0xFF, 0xFF, 0xFF, 0, 0xFF, 0xFF, 0xFF, 0xFF, 0xFF, 0xFF]
    ∧ ∀ valid retired dirtied, (Notice.storeDone (.scan valid retired dirtied)).body = [4, 0xFF, 0xFF, 0xFF, 0xFF, 0, 0xFF, 0xFF,
        if valid = true then 0 else 1, byteOf (retired / 256), byteOf retired, byteOf dirtied]

/-- Two notices of one kind have bodies of one length, whatever fields they carry; the list of ALERT RAISED alone varies (R174). -/
def Sys2Proof.Statements.NoticeLengths : Prop :=
  ∀ n m : Notice, n.kind = m.kind → (∀ conds, n ≠ .alertRaised conds) → n.body.length = m.body.length

/-- Every reply and every notice is sent as a run of bytes that passes the tests of R171; the body of STORE DONE, and the lengths of
the notices (R174). -/
def Obligations.SentMessagesPass : Prop :=
  StoreDoneCoded ∧ NoticeLengths
    ∧ (∀ r : Reply, r.body.bytes.length < 4160 → runPasses r.message = true)
    ∧ (∀ (source : Nat) (n : Notice), n.body.length ≤ 4160 → runPasses (noticeMessage source n) = true)

/-! ### Link and administration -/

/-- R180. HELLO is answered with the codes of the part, the node address, the mode, the programme state and the last reset
cause, whatever the node address; power-on, line reset and a RESET that is taken set the cause. -/
def Obligations.HelloAnswer : Prop :=
  (∀ (h : RequestHeader) (s : State) (place : Nat), s.Serves h place → h.wf = true →
      Answers (.hello h) s s h 1 place .ok
        (.hello s.vol.engine.address s.vol.mode s.vol.store.programmeValid s.vol.engine.cause))
    ∧ (∀ (address : Nat) (mode : Mode) (valid : Bool) (cause : ResetCause),
        (ReplyBody.hello address mode valid cause).bytes =
          two 2971 ++ two 740 ++ [byteOf 1, byteOf address, byteOf mode.code, flag (!valid), byteOf cause.code])
    ∧ (∀ s : State, ∃ t, exec .powerOn s = .next t ∧ t.vol.engine.cause = .power)
    ∧ (∀ s : State, s.power ≠ .off → ∃ t, exec .lineReset s = .next t ∧ t.vol.engine.cause = .line)
    ∧ (∀ (h : RequestHeader) (s : State) (place : Nat), s.Reaches (.resetAudio h) h place →
        s.vol.evac.state = .normal → ∃ t, exec (.resetAudio h) s = .next t ∧ t.vol.engine.cause = .soft)
    ∧ (∀ (h : RequestHeader) (s : State) (place : Nat), s.Reaches (.resetFull h) h place →
        s.vol.evac.state = .normal → s.vol.store.op.isProgramWrite = false →
        ∃ t, exec (.resetFull h) s = .next t ∧ t.vol.engine.cause = .soft)

/-- R176. ADDRESS takes 1 to 254, once; the reply already carries the address as its source. That 0 and 255 are answered BAD_ARG
also while the address is set is the model's choice (log entry 45). -/
def Obligations.AddressTaken : Prop :=
  ∀ (h : RequestHeader) (a : Nat) (s : State) (place : Nat), s.Serves h place → (Instr.address h a).wf = true →
    (a = 0 ∨ a = 255 → Declines (.address h a) s h 2 place .badArg)
    ∧ (1 ≤ a → a ≤ 254 → s.vol.engine.address ≠ 0 → Declines (.address h a) s h 2 place .alreadySet)
    ∧ (1 ≤ a → a ≤ 254 → s.vol.engine.address = 0 →
        Answers (.address h a) s { s with vol := { s.vol with engine := { s.vol.engine with address := a } } } h 2 place .ok)

/-- STATUS is answered OK with the report of the state as it stands; clear then clears the resettable items and nothing
else (R181). -/
def Sys2Proof.Statements.StatusTaken : Prop :=
  ∀ (h : RequestHeader) (s : State) (place : Nat),
    (s.Reaches (.status h false) h place →
      Answers (.status h false) s s h 3 place .ok (.status (s.vol.statusReport s.nv)))
    ∧ (s.Reaches (.status h true) h place → ∃ w : Vol,
      Answers (.status h true) s { s with vol := w } h 3 place .ok (.status (s.vol.statusReport s.nv))
        ∧ (∀ p < 5, w.port p = { s.vol.port p with counts := .zero })
        ∧ (∀ p, 1 ≤ p → p ≤ 32 → w.platform p = { s.vol.platform p with conflict := false })
        ∧ (∀ v < 8, w.voice v = { s.vol.voice v with stalls := 0, damaged := 0 })
        ∧ (∀ l < 16, w.line l = { s.vol.line l with latch := false })
        ∧ w.engine = { s.vol.engine with overflow := false, classDiscards := 0, addressDiscards := 0, placeDiscards := 0,
                                         queueLatch := false }
        ∧ w.store = { s.vol.store with checkFail := false, corrected := 0, uncorrectable := 0 }
        ∧ w.reportDiscards = 0
        ∧ { w with ports := s.vol.ports, platforms := s.vol.platforms, voices := s.vol.voices, lines := s.vol.lines,
                   engine := s.vol.engine, store := s.vol.store, reportDiscards := s.vol.reportDiscards } = s.vol)

/-- The place of each named value that the report carries (R174). -/
def Sys2Proof.Statements.StatusCodes : Prop :=
  [RxState.down, .hunt, .verify, .locked].map RxState.code = [0, 1, 2, 3]
    ∧ [AlignState.silent, .filling, .passing].map AlignState.code = [0, 1, 2]
    ∧ [Mode.normal, .maintenance].map Mode.code = [0, 1]
    ∧ [ResetCause.power, .line, .soft].map ResetCause.code = [0, 1, 2]
    ∧ [AlertCond.zoneFault, .link, .store, .queue, .evac, .conflict].map AlertCond.code = [0, 1, 2, 3, 4, 5]
    ∧ [EvacState.normal, .alert, .evacuate].map EvacState.code = [0, 1, 2]
    ∧ [EvacList.standIn, .alert, .evacuate].map EvacList.code = [0, 1, 2]
    ∧ [ClipBank.r, .a, .b].map bankCode = [0, 1, 2]

/-- The controller state and the operation in flight, with its clip or its bank and sector (R120, R181). -/
def Sys2Proof.Statements.StatusOfStore : Prop :=
  (∀ n, controllerCode (.starting n) = 0 ∧ operationBytes (.starting n) = [4, 0xFF, 0xFF, 0xFF, 0xFF])
    ∧ (controllerCode .ready = 1 ∧ operationBytes .ready = [0xFF, 0xFF, 0xFF, 0xFF, 0xFF])
    ∧ (∀ c bank p data n, controllerCode (.programming c bank p data n) = 2
        ∧ operationBytes (.programming c bank p data n) = [0, byteOf (c / 256), byteOf c, 0xFF, 0xFF])
    ∧ (∀ bank sector n, controllerCode (.erasing bank sector n) = 3
        ∧ operationBytes (.erasing bank sector n) = [2, 0xFF, 0xFF, byteOf (bankCode bank), byteOf sector])
    ∧ (∀ c length check next x, controllerCode (.verifying c length check next x) = 4
        ∧ operationBytes (.verifying c length check next x) = [1, byteOf (c / 256), byteOf c, 0xFF, 0xFF])
    ∧ (∀ p n, controllerCode (.programWrite p n) = 5 ∧ operationBytes (.programWrite p n) = [3, 0xFF, 0xFF, 0xFF, 0xFF])
    ∧ (∀ (nv : Nonvolatile) (bank : ClipBank) (written dirty : Nat), nv.wf = true →
        written = (List.range (bankPages bank)).countP (fun p => decide (nv.page bank p = .written)) →
        dirty = (List.range (bankPages bank)).countP (fun p => decide (nv.page bank p = .dirty)) →
        nv.pageCounts bank = two (bankPages bank - written - dirty) ++ two written ++ two dirty)
    ∧ (∀ (w : Vol) (nv : Nonvolatile), w.suspended nv = true ↔
        ∃ bank sector n, w.store.op = .erasing bank sector n ∧ w.suspendedOn nv bank = true)

/-- The report of STATUS, value by value, in the order of the table of R181. The layout is log entry 14, and so are the coding of the
raised state and of SUSPENDED (1 while it holds) and that the reply place the STATUS request itself has taken counts among those
taken. -/
def Sys2Proof.Statements.StatusValues : Prop :=
  ∀ (w : Vol) (nv : Nonvolatile), ∃ ports align engine alert zones claims requests voices clock store lines evac : List Byte,
    w.statusReport nv =
      ports ++ align ++ engine ++ alert ++ zones ++ claims ++ requests ++ voices ++ clock ++ store ++ lines ++ evac
    ∧ ports = (List.range 5).flatMap (fun p =>
        [byteOf (w.port p).state.code, byteOf (w.port p).counts.correctedHeader, byteOf (w.port p).counts.missing,
          byteOf (w.port p).counts.slotCheck, byteOf (w.port p).counts.indexJump, byteOf (w.port p).counts.discard,
          byteOf (w.port p).counts.abandon, byteOf (w.port p).counts.lockLoss]
        ++ if p = 0 then [byteOf (w.port 0).counts.overflowSlip, byteOf (w.port 0).counts.underflowSlip] else [])
    ∧ align = two w.align.delay ++ [byteOf w.align.state.code] ++ two w.align.frames.length
        ++ [if (w.port 0).state = .locked then 0 else 1]
    ∧ engine = [byteOf w.engine.address, byteOf w.mode.code, byteOf w.engine.cause.code,
        byteOf ((List.range 8).countP (fun i => (tget none w.engine.places i).isSome) + 1),
        byteOf w.engine.notices.length, flag w.engine.overflow, byteOf w.engine.classDiscards,
        byteOf w.engine.addressDiscards, byteOf w.engine.placeDiscards]
    ∧ alert = [byteOf w.engine.mask.length] ++ w.engine.mask.map (fun c => byteOf c.code) ++ [flag w.engine.raised]
    ∧ zones = [byteOf w.reportDiscards] ++ (List.range 32).map (fun p => flag (w.platform (p + 1)).conflict)
    ∧ claims = [byteOf ((List.range 40).countP fun c => decide ((w.claim c).map (·.state) = some .waiting)),
        byteOf ((List.range 40).countP fun c => decide ((w.claim c).map (·.state) = some .active)),
        byteOf ((List.range 40).countP fun c => decide ((w.claim c).map (·.state) = some .exhausted)),
        byteOf ((List.range 32).countP fun l => (w.source l).isSome)]
    ∧ requests = [byteOf (w.queue.requests.countP fun r => decide (r.state = .pending)),
        byteOf (w.queue.requests.countP fun r => decide (r.state = .ready)),
        byteOf (w.queue.requests.countP fun r => r.voice?.isSome && !r.isPlaying),
        byteOf (w.queue.requests.countP fun r => r.isPlaying),
        byteOf (w.queue.requests.countP fun r => decide (r.priority < 12)), flag w.engine.queueLatch]
    ∧ voices = [byteOf ((List.range 8).countP fun v => decide ((w.voice v).state = .idle)),
        byteOf ((List.range 8).countP fun v => decide ((w.voice v).state = .cueing)),
        byteOf ((List.range 8).countP fun v => decide ((w.voice v).state = .playing)),
        byteOf ((List.range 8).countP fun v => decide ((w.voice v).state = .stalled))]
        ++ (List.range 8).flatMap (fun v => [byteOf (w.voice v).stalls, byteOf (w.voice v).damaged])
    ∧ clock = [flag w.clock.isSet] ++ four w.clock.time ++ four w.clock.dayBase
        ++ two ((List.range 256).countP fun c => (w.call c).isSome) ++ two w.due.length
    ∧ store = [byteOf (controllerCode w.store.op)] ++ operationBytes w.store.op ++ [flag (w.suspended nv)]
        ++ nv.pageCounts .r ++ nv.pageCounts .a ++ nv.pageCounts .b
        ++ [flag nv.g1, flag nv.g2, flag (!w.store.programmeValid), flag w.store.checkFail, byteOf w.store.corrected,
          byteOf w.store.uncorrectable]
    ∧ lines = (List.range 16).map (fun l => flag (w.line l).latch)
    ∧ evac = [byteOf w.evac.state.code] ++ four w.evac.timer
        ++ [match w.evac.list with
          | some l => byteOf l.code
          | none => 0xFF]
        ++ (match w.evac.request with
          | some n => 2 :: two n
          | none => [1, 0xFF, 0xFF])

/-- STATUS: its reply, what clear clears, and every value of the report (R120, R174, R181). -/
def Obligations.StatusReport : Prop := StatusTaken ∧ StatusValues ∧ StatusOfStore ∧ StatusCodes

/-- RESET of scope AUDIO: refused in an evacuation; else the notice queue is emptied, every request and every open source
ends with its notice, and every block takes the soft AUDIO column of its reset table (R183), the kept rows of R138 and R184
among them; the targets of the mixer stand until the first block mark (log entry 3), and the alert timer at its value (log entry
56). -/
def Obligations.ResetAudio : Prop :=
  ∀ (h : RequestHeader) (s : State) (place : Nat), s.Reaches (.resetAudio h) h place →
    (s.vol.evac.state ≠ .normal → Declines (.resetAudio h) s h 4 place .evacActive)
    ∧ (s.vol.evac.state = .normal → ∃ w : Vol,
      Answers (.resetAudio h) s { s with vol := w } h 4 place .ok
        ∧ w.queue = { s.vol.queue with requests := [], nextStamp := 0 }
        ∧ (∀ c, w.claim c = none) ∧ w.stampCounter = 0 ∧ (∀ l, w.source l = none)
        ∧ (∀ z < 64, w.zone z = { s.vol.zone z with holder := none, waiters := [] })
        ∧ (∀ z < 64, w.gain z = { s.vol.gain z with stagedFg := none, stagedBg := none, fgLevel := 192, bgLevel := 192,
                                                    cut := false })
        ∧ (∀ v < 8, w.voice v =
            { Voice.initial with stalls := (s.vol.voice v).stalls, damaged := (s.vol.voice v).damaged })
        ∧ w.store = softStore s.vol.store
        ∧ w.engine = { s.vol.engine with notices := (resetNotices s.vol).take 24, overflow := w.engine.overflow,
                                         cause := .soft }
        ∧ (w.engine.overflow = true ↔
            s.vol.engine.overflow = true ∨ s.vol.engine.notices ≠ [] ∨ 24 < (resetNotices s.vol).length)
        ∧ { w with queue := s.vol.queue, claims := s.vol.claims, stampCounter := s.vol.stampCounter, live := s.vol.live,
                   zones := s.vol.zones, gains := s.vol.gains, voices := s.vol.voices, store := s.vol.store,
                   engine := s.vol.engine } = s.vol)

/-- RESET of scope FULL: refused in an evacuation and during a programme write; else tables and settings also return to
their start values and the resident programme is loaded, while the clock, the mode, the node address and the nonvolatile
store stand (R183), and so does the alert timer at its value (log entry 56). The supervision of a line that keeps its placement is kept (R6; log entry 27); a line's shown level is
log entry 3. A generator's step that a command has taken ahead of the coming block mark is taken again there, so the four
generators start together (R147; log entry 6). -/
def Obligations.ResetFull : Prop :=
  ∀ (h : RequestHeader) (s : State) (place : Nat), s.Reaches (.resetFull h) h place →
    (s.vol.evac.state ≠ .normal → Declines (.resetFull h) s h 4 place .evacActive)
    ∧ (s.vol.evac.state = .normal → s.vol.store.op.isProgramWrite = true →
        Declines (.resetFull h) s h 4 place .busy)
    ∧ (s.vol.evac.state = .normal → s.vol.store.op.isProgramWrite = false → ∃ w : Vol,
      Answers (.resetFull h) s { s with vol := w } h 4 place .ok
        ∧ w.queue = { s.vol.queue with requests := [], nextStamp := 0 }
        ∧ (∀ c, w.claim c = none) ∧ w.stampCounter = 0 ∧ (∀ l, w.source l = none)
        ∧ (∀ z < 64, (w.zone z).bgLane = none ∧ (w.zone z).bgBase = 0 ∧ (w.zone z).fgBase = 0 ∧ (w.zone z).duck = 0
            ∧ (w.zone z).fallback = none ∧ (w.zone z).compOn = false ∧ (w.zone z).compRef = 60 ∧ (w.zone z).compLimit = 0
            ∧ (w.zone z).extFault = false ∧ (w.zone z).holder = none ∧ (w.zone z).waiters = []
            ∧ (w.zone z).history = (s.vol.zone z).history
            ∧ ((w.zone z).placement = none ∨ (w.zone z).placement = (s.vol.zone z).placement →
                (w.zone z).cond = (s.vol.zone z).cond ∧ (w.zone z).normals = (s.vol.zone z).normals
                  ∧ (w.zone z).silence = (s.vol.zone z).silence ∧ (w.zone z).ambient = (s.vol.zone z).ambient)
            ∧ ((w.zone z).placement ≠ none → (w.zone z).placement ≠ (s.vol.zone z).placement →
                (w.zone z).cond = .unknown ∧ (w.zone z).normals = 0 ∧ (w.zone z).silence = 0 ∧ (w.zone z).ambient = none))
        ∧ (∀ pr, pr = (if s.vol.store.programmeValid = true then s.nv.programme else .empty) →
            (∀ z < 64, (w.zone z).placement = tget none pr.placements z ∧ (w.zone z).enabled = tget false pr.enabled z
              ∧ (w.zone z).evacBase = tget 0 pr.evacBases z)
            ∧ w.group 31 = pr.group
            ∧ w.evac = { s.vol.evac with lane := pr.lane, alertList := pr.alertList, evacList := pr.evacList,
                                         duration := pr.duration }
            ∧ (∀ l < 16, w.line l = residentLineFrom (tget none pr.lines l) (s.vol.line l).raw))
        ∧ (∀ z < 64, (w.gain z).fgLevel = 192 ∧ (w.gain z).bgLevel = 192 ∧ (w.gain z).stagedFg = none
            ∧ (w.gain z).stagedBg = none ∧ (w.gain z).cut = false)
        ∧ (∀ g < 31, w.group g = [])
        ∧ (∀ p, w.platform p = .initial) ∧ (∀ c, w.call c = none) ∧ w.due = [] ∧ (∀ p, w.profile p = .initial)
        ∧ (∀ n, w.template n = none) ∧ PhrasesEmpty w
        ∧ w.rampRate = 2 ∧ w.monitor = none ∧ w.align.delay = 96
        ∧ (s.vol.align.delay = 96 → w.align = s.vol.align)
        ∧ (s.vol.align.delay ≠ 96 → s.vol.align.state = .silent → w.align = { s.vol.align with delay := 96 })
        ∧ (s.vol.align.delay ≠ 96 → s.vol.align.state ≠ .silent →
            w.align = { s.vol.align with delay := 96, state := .filling, frames := [] })
        ∧ (∀ g, w.gen g = .initial)
        ∧ (∀ v < 8, w.voice v =
            { Voice.initial with stalls := (s.vol.voice v).stalls, damaged := (s.vol.voice v).damaged })
        ∧ w.engine = { s.vol.engine with notices := (resetNotices s.vol).take 24, overflow := w.engine.overflow,
                                         cause := .soft, mask := [] }
        ∧ (w.engine.overflow = true ↔
            s.vol.engine.overflow = true ∨ s.vol.engine.notices ≠ [] ∨ 24 < (resetNotices s.vol).length)
        ∧ w.clock = s.vol.clock ∧ w.mode = s.vol.mode ∧ w.ports = s.vol.ports
        ∧ w.fclk.count = s.vol.fclk.count ∧ w.fclk.fresh = s.vol.fclk.fresh
        ∧ (∀ m, m ∈ w.fclk.done ↔ m ∈ s.vol.fclk.done ∧ ∀ g, m ≠ .gen g)
        ∧ w.sent = s.vol.sent ∧ w.reportDiscards = s.vol.reportDiscards ∧ w.store = softStore s.vol.store)

/-- ALERT MASK takes a list of distinct conditions, which replaces the mask (R182). -/
def Sys2Proof.Statements.AlertMaskSet : Prop :=
  ∀ (h : RequestHeader) (cs : List Nat) (s : State) (place : Nat), s.Reaches (.alertMask h cs) h place →
    ((∃ c ∈ cs, 6 ≤ c) ∨ ¬ cs.Nodup → Declines (.alertMask h cs) s h 5 place .badArg)
    ∧ ((∀ c ∈ cs, c < 6) → cs.Nodup → ∃ mask : List AlertCond,
      Answers (.alertMask h cs) s { s with vol := { s.vol with engine := { s.vol.engine with mask := mask } } } h 5 place .ok
        ∧ ∀ c, c ∈ mask ↔ ∃ n ∈ cs, alertCondOf n = some c)

/-- The end of an event raises the alert while a condition of the mask holds and clears it otherwise, with a notice when the
raised state changes (R182). -/
def Sys2Proof.Statements.AlertFollowsItsMask : Prop :=
  ∀ (w : Vol) (nv : Nonvolatile),
    ((w.evalAlert nv).engine.raised = true ↔ ∃ c ∈ w.engine.mask, w.condHolds nv c = true)
    ∧ ((w.evalAlert nv).engine.raised = w.engine.raised → w.evalAlert nv = w)
    ∧ ((w.evalAlert nv).engine.raised ≠ w.engine.raised → w.engine.notices.length < 24 →
        (w.evalAlert nv).engine.notices = w.engine.notices ++
          [(w.engine.address, if w.engine.raised then .alertCleared else .alertRaised (w.heldConds nv))])

/-- The six conditions (R182). -/
def Sys2Proof.Statements.AlertConditions : Prop :=
  ∀ (w : Vol) (nv : Nonvolatile),
    (w.condHolds nv .zoneFault = true ↔ ∃ z < 64, (w.zone z).state = .faulted)
    ∧ (w.condHolds nv .link = true ↔ ∃ p < 5, (w.port p).state ≠ .locked)
    ∧ (w.condHolds nv .store = true ↔ (∃ e ∈ nv.pages, e.2 = .dirty) ∨ w.store.checkFail = true)
    ∧ (w.condHolds nv .queue = true ↔ w.engine.queueLatch = true)
    ∧ (w.condHolds nv .evac = true ↔ w.evac.state ≠ .normal)
    ∧ (w.condHolds nv .conflict = true ↔ ∃ p, 1 ≤ p ∧ p ≤ 32 ∧ (w.platform p).conflict = true)

/-- In a running part the alert is raised exactly while a condition of the mask holds; in reset and without power the mask is
empty and the alert cleared (R182, R184). -/
def Sys2Proof.Statements.AlertExact (s : State) : Prop :=
  (s.running = true → (s.vol.engine.raised = true ↔ ∃ c ∈ s.vol.engine.mask, s.vol.condHolds s.nv c = true))
    ∧ (s.running = false → s.vol.engine.mask = [] ∧ s.vol.engine.raised = false)

/-- Every step, whatever its command, keeps the alert exact, and it is exact at reset (R182). -/
def Sys2Proof.Statements.AlertKept : Prop :=
  AlertExact State.reset ∧ ∀ s t : State, AlertExact s → Machine.step s = .next t → AlertExact t

/-- The alert and its mask (R182). -/
def Obligations.AlertAndMask : Prop := AlertMaskSet ∧ AlertConditions ∧ AlertFollowsItsMask ∧ AlertKept

/-! ### Tables -/

/-- TABLE WRITE of class ZONE: the four checks of R3 in their order. -/
def Sys2Proof.Statements.ZoneWriteRefused : Prop :=
  ∀ (h : RequestHeader) (r : ZoneRecord) (s : State) (place : Nat), s.Reaches (.tableWriteZone h r) h place →
    (r.inRange = false → Declines (.tableWriteZone h r) s h 6 place .badArg)
    ∧ (r.inRange = true → s.vol.mode = .normal →
        r.placement ≠ (s.vol.zone r.zone).placement ∨ r.evacBase ≠ (s.vol.zone r.zone).evacBase →
        Declines (.tableWriteZone h r) s h 6 place .resident)
    ∧ (r.inRange = true → PassesResident s.vol r →
        (∃ z < 64, z ≠ r.zone ∧ r.placement.isSome = true ∧ (s.vol.zone z).placement = r.placement) →
        Declines (.tableWriteZone h r) s h 6 place .conflict)
    ∧ (r.inRange = true → PassesResident s.vol r → s.vol.placementHeld r.zone r.placement = false →
        s.vol.evac.state ≠ .normal → r.zone ∈ s.vol.group 31 → (s.vol.zone r.zone).state ≠ .off →
        r.enabled = false ∨ r.placement = none → Declines (.tableWriteZone h r) s h 6 place .evacActive)

/-- A record of class ZONE that passes sets every writable field together, discards the zone's staged bases, hands a change
of state to the arbiter and sends ZONE STATE; a new line starts its supervision afresh, and a line that stays, or a record
without one, keeps it; a zone that is turned on starts its silence timer from 0 (R2 to R5, R14, R44). -/
def Sys2Proof.Statements.ZoneWritten : Prop :=
  ∀ (h : RequestHeader) (r : ZoneRecord) (s : State) (place : Nat), s.Reaches (.tableWriteZone h r) h place →
    r.inRange = true → PassesResident s.vol r → s.vol.placementHeld r.zone r.placement = false →
    s.vol.leavesOff r = false →
    Answers (.tableWriteZone h r) s
        { s with
          vol := (s.vol.setGain r.zone { s.vol.gain r.zone with stagedFg := none, stagedBg := none }).zoneEvent s.nv r.zone
            fun x => x.written r } h 6 place .ok
      ∧ ∀ x : Zone, (x.written r).placement = r.placement ∧ (x.written r).enabled = r.enabled
          ∧ (x.written r).bgLane = r.bgLane ∧ (x.written r).bgBase = r.bgBase ∧ (x.written r).duck = r.duck
          ∧ (x.written r).fgBase = r.fgBase ∧ (x.written r).evacBase = r.evacBase ∧ (x.written r).fallback = r.fallback
          ∧ (x.written r).compOn = r.compOn ∧ (x.written r).compRef = r.compRef ∧ (x.written r).compLimit = r.compLimit
          ∧ (x.written r).extFault = x.extFault ∧ (x.written r).history = x.history ∧ (x.written r).holder = x.holder
          ∧ (r.placement.isSome = true → r.placement ≠ x.placement →
              (x.written r).cond = .unknown ∧ (x.written r).normals = 0 ∧ (x.written r).silence = 0
                ∧ (x.written r).ambient = none)
          ∧ (r.placement = none ∨ r.placement = x.placement →
              (x.written r).cond = x.cond ∧ (x.written r).normals = x.normals ∧ (x.written r).ambient = x.ambient
                ∧ (x.written r).silence = if x.on = false ∧ (x.written r).on = true then 0 else x.silence)

/-- What the four checks of R3 ask of a record: every field in its range, with port and slot both given or both none; the line of
another zone; and a zone of group 31 that is on and would be OFF. -/
def Sys2Proof.Statements.ZoneRanges : Prop :=
  (∀ r : ZoneRecord, r.inRange = true ↔ r.zone ≤ 63
      ∧ ((r.port = none ∧ r.slot = none) ∨ ∃ p q, r.port = some p ∧ r.slot = some q ∧ p ≤ 3 ∧ q ≤ 15)
      ∧ (∀ l, r.bgLane = some l → l ≤ 31) ∧ r.bgBase ≤ 191 ∧ r.duck ≤ 80 ∧ r.fgBase ≤ 191 ∧ r.evacBase ≤ 191
      ∧ (∀ z, r.fallback = some z → z ≤ 63) ∧ 40 ≤ r.compRef ∧ r.compRef ≤ 90 ∧ r.compLimit ≤ 24)
    ∧ (∀ (r : ZoneRecord) (p q : Nat), r.placement = some (p, q) ↔ r.port = some p ∧ r.slot = some q)
    ∧ (∀ (w : Vol) (z : Nat) (x : Option (Nat × Nat)), w.placementHeld z x = true ↔
        x ≠ none ∧ ∃ y < 64, y ≠ z ∧ (w.zone y).placement = x)
    ∧ ∀ (w : Vol) (r : ZoneRecord), w.leavesOff r = true ↔ w.evac.state ≠ .normal ∧ r.zone ∈ w.group 31
        ∧ (w.zone r.zone).state ≠ .off ∧ (r.enabled = false ∨ r.placement = none)

/-- TABLE WRITE of class ZONE (R2 to R5, R44). -/
def Obligations.ZoneTable : Prop := ZoneWriteRefused ∧ ZoneRanges ∧ ZoneWritten

/-- Groups and platforms: checks in their order; a group's members stand in ascending order, a platform keeps its occupant
and its latch (R7, R8, R10). -/
def Obligations.GroupAndPlatformWritten : Prop :=
  (∀ (h : RequestHeader) (g : Nat) (ms : List Nat) (s : State) (place : Nat),
      s.Reaches (.tableWriteGroup h g ms) h place →
      (32 ≤ g ∨ (∃ z ∈ ms, 64 ≤ z) ∨ ¬ ms.Nodup → Declines (.tableWriteGroup h g ms) s h 6 place .badArg)
      ∧ (g = 31 → (∀ z ∈ ms, z < 64) → ms.Nodup → s.vol.mode = .normal →
          Declines (.tableWriteGroup h g ms) s h 6 place .resident)
      ∧ (g = 31 → (∀ z ∈ ms, z < 64) → ms.Nodup → s.vol.mode = .maintenance → s.vol.evac.state ≠ .normal →
          Declines (.tableWriteGroup h g ms) s h 6 place .evacActive)
      ∧ (g < 32 → (∀ z ∈ ms, z < 64) → ms.Nodup → g = 31 → s.vol.mode = .maintenance ∧ s.vol.evac.state = .normal →
          ∃ l, l.Pairwise (· < ·) ∧ (∀ z, z ∈ l ↔ z ∈ ms)
            ∧ Answers (.tableWriteGroup h g ms) s { s with vol := { s.vol with groups := tset s.vol.groups 31 l } }
                h 6 place .ok)
      ∧ (g < 31 → (∀ z ∈ ms, z < 64) → ms.Nodup →
          ∃ l, l.Pairwise (· < ·) ∧ (∀ z, z ∈ l ↔ z ∈ ms)
            ∧ Answers (.tableWriteGroup h g ms) s { s with vol := { s.vol with groups := tset s.vol.groups g l } }
                h 6 place .ok))
    ∧ (∀ (h : RequestHeader) (p : Nat) (g t : Option Nat) (s : State) (place : Nat),
      s.Reaches (.tableWritePlatform h p g t) h place →
      (1 ≤ p ∧ p ≤ 32 ∧ (∀ x, g = some x → x < 32) ∧ (∀ x, t = some x → x < 128) →
        Answers (.tableWritePlatform h p g t) s
          { s with vol := s.vol.setPlatform p { s.vol.platform p with group := g, warning := t } } h 6 place .ok)
      ∧ (¬ (1 ≤ p ∧ p ≤ 32 ∧ (∀ x, g = some x → x < 32) ∧ (∀ x, t = some x → x < 128)) →
        Declines (.tableWritePlatform h p g t) s h 6 place .badArg))

/-- A profile is written whole, and the due entry of every call that names it is made anew and tested (R57, R59, R79); the order
of these calls is log entry 36. The due entries stand in `CallLoaded`, the walk in `SecondAdvances`. -/
def Sys2Proof.Statements.ProfileWritten : Prop :=
  ∀ (h : RequestHeader) (r : ProfileRecord) (s : State) (place : Nat), s.Reaches (.tableWriteProfile h r) h place →
    (r.inRange = false → Declines (.tableWriteProfile h r) s h 6 place .badArg)
    ∧ (r.inRange = true → ∃ w : Vol,
        w = { s.vol with profiles := tset s.vol.profiles r.profile (Profile.mk r.approachLead r.boardingLead r.finalLead
                r.clearDelay r.delayThreshold r.concourse r.templates) }
        ∧ Answers (.tableWriteProfile h r) s
            { s with vol := (((w.callsOf r.profile).foldl Vol.remakeDue w).walkDue s.nv (w.callsOf r.profile).contains) }
            h 6 place .ok
        ∧ ∀ c, c ∈ w.callsOf r.profile ↔ ∃ x, s.vol.call c = some x ∧ x.profile = r.profile)

/-- A template is written whole; a record without items makes it empty (R82). -/
def Sys2Proof.Statements.TemplateWritten : Prop :=
  ∀ (h : RequestHeader) (r : TemplateRecord) (s : State) (place : Nat), s.Reaches (.tableWriteTemplate h r) h place →
    (r.items = [] → r.template < 128 →
      Answers (.tableWriteTemplate h r) s { s with vol := { s.vol with templates := tset s.vol.templates r.template none } }
        h 6 place .ok)
    ∧ (r.items ≠ [] → r.inRange = true →
      Answers (.tableWriteTemplate h r) s
        { s with vol := { s.vol with templates := tset s.vol.templates r.template (some
            { items := r.items, target := r.target, priority := r.priority, mode := r.mode, resume := r.resume,
              repeats := r.repeats, gap := r.gap, window := r.window }) } } h 6 place .ok)
    ∧ (128 ≤ r.template ∨ (r.items ≠ [] ∧ r.inRange = false) → Declines (.tableWriteTemplate h r) s h 6 place .badArg)

/-- The ranges of a profile record (R57, section 4.2) and of a template record with items (R82, section 5.1), the profile and
template numbers among them. -/
def Sys2Proof.Statements.ProfileAndTemplateRanges : Prop :=
  (∀ r : ProfileRecord, r.inRange = true ↔ r.profile ≤ 15 ∧ r.approachLead ≤ 3600 ∧ r.boardingLead ≤ 3600
      ∧ r.finalLead ≤ 3600 ∧ r.clearDelay ≤ 1800 ∧ 1 ≤ r.delayThreshold ∧ r.delayThreshold ≤ 60
      ∧ (∀ g, r.concourse = some g → g ≤ 31) ∧ ∀ k < 7, ∀ t, tget none r.templates k = some t → t ≤ 127)
    ∧ ∀ r : TemplateRecord, r.inRange = true ↔ r.template ≤ 127 ∧ r.items.length ≤ 16 ∧ (∀ i ∈ r.items, ItemRange i)
      ∧ (∀ g, r.target = .group g → g ≤ 31) ∧ r.priority ≤ 13 ∧ 1 ≤ r.repeats ∧ r.repeats ≤ 8 ∧ 10 ≤ r.gap ∧ r.gap ≤ 600
      ∧ r.window ≤ 3600

/-- TABLE WRITE of classes PROFILE and TEMPLATE, and the ranges of their records (R57, R82). -/
def Obligations.ProfilesAndTemplates : Prop := ProfileWritten ∧ TemplateWritten ∧ ProfileAndTemplateRanges

/-- R83. The entries of a phrase record are written together, or the record is refused and the table stands; the tables are
empty after power-on, line reset and soft FULL reset and kept by soft AUDIO reset; an expansion reads them as they stand. -/
def Obligations.PhrasesWritten : Prop :=
  PhraseRule .tableWriteHours (·.hours) (fun w t => { w with hours := t }) 0
    ∧ PhraseRule .tableWriteMinutes (·.minutes) (fun w t => { w with minutes := t }) 0
    ∧ PhraseRule .tableWriteNumbers (·.numbers) (fun w t => { w with numbers := t }) 1
    ∧ PhraseRule .tableWritePlatformsPhrase (·.platPhrases) (fun w t => { w with platPhrases := t }) 1
    ∧ PhraseRule .tableWriteDestinations (·.dests) (fun w t => { w with dests := t }) 0
    ∧ (∀ s : State, ∃ t, exec .powerOn s = .next t ∧ PhrasesEmpty t.vol)
    ∧ (∀ s : State, s.power ≠ .off → ∃ t, exec .lineReset s = .next t ∧ PhrasesEmpty t.vol)
    ∧ (∀ (h : RequestHeader) (s : State) (place : Nat), s.Reaches (.resetFull h) h place → s.vol.evac.state = .normal →
        s.vol.store.op.isProgramWrite = false → ∃ t, exec (.resetFull h) s = .next t ∧ PhrasesEmpty t.vol)
    ∧ (∀ (h : RequestHeader) (s : State) (place : Nat), s.Reaches (.resetAudio h) h place → s.vol.evac.state = .normal →
        ∃ t, exec (.resetAudio h) s = .next t ∧ PhrasesKept s.vol t.vol)
    ∧ (∀ (w : Vol) (x : Spoken) (p d t n : Nat), x.platform = some p → x.destination = some d → x.scheduled = some t →
        x.delay = some (n + 1) →
        w.fieldPhrases x .platform = ([tget none w.platPhrases (p - 1)], false)
          ∧ w.fieldPhrases x .destination = ([tget none w.dests d], false)
          ∧ w.fieldPhrases x .scheduled =
              ([tget none w.hours (w.timeOfDay t / 3600), tget none w.minutes (w.timeOfDay t % 3600 / 60)], false)
          ∧ w.fieldPhrases x .delay = ([tget none w.numbers (min n 99)], false))

/-- TABLE WRITE of class CONTACT_LINE: the checks of R139; a write that is no rewrite sets the fields and leaves the level,
the stand count and the latch; a rewrite releases the old function and unsettles the line (R143). -/
def Sys2Proof.Statements.LineRecordTaken : Prop :=
  ∀ (h : RequestHeader) (r : LineRecord) (s : State) (place : Nat), s.Reaches (.tableWriteContactLine h r) h place →
    (r.inRange = false → Declines (.tableWriteContactLine h r) s h 6 place .badArg)
    ∧ (r.inRange = true → r.fn.isEvac = true ∨ (s.vol.line r.line).fn.isEvac = true →
        Declines (.tableWriteContactLine h r) s h 6 place .resident)
    ∧ (r.inRange = true → r.fn.isEvac = false → (s.vol.line r.line).fn.isEvac = false →
        (s.vol.line r.line).rewritten r = false →
        Answers (.tableWriteContactLine h r) s
          { s with vol := s.vol.setLine r.line { s.vol.line r.line with fn := r.fn, report := r.report } } h 6 place .ok)
    ∧ (r.inRange = true → r.fn.isEvac = false → (s.vol.line r.line).fn.isEvac = false →
        (s.vol.line r.line).rewritten r = true →
        Answers (.tableWriteContactLine h r) s { s with vol := s.vol.rewriteLine s.nv r } h 6 place .ok
          ∧ ((s.vol.rewriteLine s.nv r).line r.line).fn = r.fn
          ∧ ((s.vol.rewriteLine s.nv r).line r.line).polarity = r.polarity
          ∧ ((s.vol.rewriteLine s.nv r).line r.line).debounce = r.debounce
          ∧ ((s.vol.rewriteLine s.nv r).line r.line).report = r.report
          ∧ ((s.vol.rewriteLine s.nv r).line r.line).debounced = none
          ∧ ((s.vol.rewriteLine s.nv r).line r.line).stand = 0)

/-- A write that changes the function, a parameter, polarity or debounce is a rewrite, but for a change of the parameters of a
line that is and stays OUTPUT (R139). -/
def Sys2Proof.Statements.RewritesTold : Prop :=
  ∀ (x : Line) (r : LineRecord), x.rewritten r = true ↔
    x.polarity ≠ r.polarity ∨ x.debounce ≠ r.debounce
      ∨ (x.fn ≠ r.fn ∧ ¬ ((∃ src g i f, x.fn = .output src g i f) ∧ ∃ src g i f, r.fn = .output src g i f))

/-- The train-present level that the lines of a TRAIN_PRESENT function's platform give (R11). -/
def Sys2Proof.Statements.trainRead (w : Vol) : LineFn → Vol
  | .trainPresent p => w.updateTrain p
  | _ => w

/-- A rewrite: a line whose debounced level was ACTIVE first gives its old function a release, as a FALLING edge would; then the
line takes its new fields, unsettled, an OUTPUT line at its inactive level, and the platforms of the old and of the new function
take the level their lines now give (R11, R143, R146). What a release does stands in `ContactLinesChange`. -/
def Sys2Proof.Statements.LineRewritten : Prop :=
  ∀ (w w1 w2 : Vol) (nv : Nonvolatile) (r : LineRecord) (old : Line), old = w.line r.line →
    (old.debounced = some true →
      w1 = (w.setLine r.line { old with debounced := some false }).fallAct nv r.line old.fn) →
    (old.debounced ≠ some true → w1 = w) →
    w2 = w1.setLine r.line { w1.line r.line with
      fn := r.fn, polarity := r.polarity, debounce := r.debounce, report := r.report, debounced := none, stand := 0
      shown := match r.fn with
        | .output _ _ invert _ => invert
        | _ => false } →
    w.rewriteLine nv r = trainRead (trainRead w2 old.fn) r.fn

/-- Check 1 of R139: line and debounce in range, the parameter in range for the function, an OUTPUT line's parameters with edge
report NONE; and the functions that check 2 keeps from TABLE WRITE. -/
def Sys2Proof.Statements.LineRanges : Prop :=
  (∀ r : LineRecord, r.inRange = true ↔ r.line ≤ 15 ∧ r.debounce ≤ 255
      ∧ (∀ l g p, r.fn = .talk l g p → l ≤ 31 ∧ g ≤ 31 ∧ p ≤ 13)
      ∧ (∀ p, r.fn = .trainPresent p ∨ r.fn = .doorsClosed p ∨ r.fn = .platformWarn p → 1 ≤ p ∧ p ≤ 32)
      ∧ (∀ z, r.fn = .zoneFault z → z ≤ 63)
      ∧ ∀ src g i f, r.fn = .output src g i f → SourceRange src ∧ g ≤ 3 ∧ r.report = .none)
    ∧ ∀ fn : LineFn, fn.isEvac = true ↔ ∃ f, fn = .evac f

/-- TABLE WRITE of class CONTACT_LINE: its checks and their ranges, what is a rewrite, and what a rewrite does (R11, R139, R143,
R146). -/
def Obligations.ContactLineWritten : Prop := LineRecordTaken ∧ LineRanges ∧ RewritesTold ∧ LineRewritten

/-- R148. A generator's written values are staged, and become active together when its period ends, at phase 0; TABLE READ
reports active values, staged values and phase, in the layout of R179 and R174, in which staged present is coded 1 or 0 by the
model's reading of set and clear (log entry 14). -/
def Obligations.GeneratorWritten : Prop :=
  (∀ (h : RequestHeader) (g p r f : Nat) (s : State) (place : Nat), s.Reaches (.tableWriteGenerator h g p r f) h place →
      (g ≤ 3 ∧ 2 ≤ p ∧ p ≤ 1000 ∧ r ≤ p ∧ f ≤ p ∧ r ≤ f →
        Answers (.tableWriteGenerator h g p r f) s
          { s with vol := s.vol.setGen g { s.vol.gen g with staged := some (p, r, f) } } h 6 place .ok)
      ∧ (¬ (g ≤ 3 ∧ 2 ≤ p ∧ p ≤ 1000 ∧ r ≤ p ∧ f ≤ p ∧ r ≤ f) →
        Declines (.tableWriteGenerator h g p r f) s h 6 place .badArg))
    ∧ (∀ (g : Fin 4) (s : State), s.AtMark (.gen g) → (s.vol.gen g).started = true →
        10 * (s.vol.gen g).p ≤ (s.vol.gen g).phase + 1 →
        (∀ p r f, (s.vol.gen g).staged = some (p, r, f) →
          Happens (.generatorPeriodEnd g) s
            { s with vol := (s.vol.setGen g
                { started := true, p := p, r := r, f := f, phase := 0, staged := none }).markTaken (.gen g) })
        ∧ ((s.vol.gen g).staged = none →
          Happens (.generatorPeriodEnd g) s
            { s with vol := (s.vol.setGen g { s.vol.gen g with phase := 0 }).markTaken (.gen g) }))
    ∧ (∀ (h : RequestHeader) (g : Nat) (s : State) (place : Nat), s.Reaches (.tableRead h 11 (.one g)) h place → g < 4 →
        Answers (.tableRead h 11 (.one g)) s s h 7 place .ok (.record
          ([byteOf g] ++ two (s.vol.gen g).p ++ two (s.vol.gen g).r ++ two (s.vol.gen g).f
            ++ [flag (s.vol.gen g).staged.isSome] ++ twoOr ((s.vol.gen g).staged.map (·.1))
            ++ twoOr ((s.vol.gen g).staged.map (·.2.1)) ++ twoOr ((s.vol.gen g).staged.map (·.2.2))
            ++ two (s.vol.gen g).phase)))

/-- LINK_CONFIG sets the alignment delay and the ramp rate, or is refused whole; the alignment buffer passes to FILLING,
empty, when its delay changes while it is not SILENT (R51, R168, R179). -/
def Sys2Proof.Statements.LinkConfigWritten : Prop :=
  ∀ (h : RequestHeader) (d rate : Nat) (s : State) (place : Nat), s.Reaches (.tableWriteLinkConfig h d rate) h place →
    (8 ≤ d ∧ d ≤ 480 ∧ 1 ≤ rate ∧ rate ≤ 16 → ∃ a : AlignBuffer,
      Answers (.tableWriteLinkConfig h d rate) s { s with vol := { s.vol with align := a, rampRate := rate } } h 6 place .ok
        ∧ a.delay = d ∧ a.out = s.vol.align.out ∧ (s.vol.align.delay = d → a = s.vol.align)
        ∧ (s.vol.align.delay ≠ d → s.vol.align.state = .silent → a = { s.vol.align with delay := d })
        ∧ (s.vol.align.delay ≠ d → s.vol.align.state ≠ .silent →
            a = { s.vol.align with delay := d, state := .filling, frames := [] }))
    ∧ (¬ (8 ≤ d ∧ d ≤ 480 ∧ 1 ≤ rate ∧ rate ≤ 16) → Declines (.tableWriteLinkConfig h d rate) s h 6 place .badArg)

/-- Classes 13 to 15: a write is answered OK and changes nothing, a read gives 16 bytes of ones; a class above 15 is
BAD_ARG; TABLE READ answers with the record as it stands and changes nothing (R179). That a message of classes 13 to 15 may carry
any number of bytes after the class is the model's choice (log entry 46). -/
def Sys2Proof.Statements.TableReadAndFiller : Prop :=
  (∀ (h : RequestHeader) (cls : Nat) (s : State) (place : Nat), s.Reaches (.tableWriteUnassigned h cls) h place →
      Answers (.tableWriteUnassigned h cls) s s h 6 place .ok)
    ∧ (∀ (h : RequestHeader) (cls : Nat) (i : ReadIndex) (s : State) (place : Nat), s.Reaches (.tableRead h cls i) h place →
      (13 ≤ cls → cls ≤ 15 → Answers (.tableRead h cls i) s s h 7 place .ok (.record (List.replicate 16 0xFF)))
      ∧ (16 ≤ cls → Declines (.tableRead h cls i) s h 7 place .badArg)
      ∧ (∀ bs, readRecord s.vol cls i = some bs → Answers (.tableRead h cls i) s s h 7 place .ok (.record bs))
      ∧ (readRecord s.vol cls i = none → Declines (.tableRead h cls i) s h 7 place .badArg))
    ∧ (∀ (w : Vol) (g : Nat), g < 32 →
        readRecord w 1 (.one g) = some (byteOf g :: byteOf (w.group g).length :: (w.group g).map byteOf))
    ∧ (∀ w : Vol, readRecord w 12 .none = some (two w.align.delay ++ [byteOf w.rampRate]))

/-- The record that TABLE READ gives of a zone, a platform, a profile and a template (R82, R179). The coding of set and clear, and a
platform's occupant behind a presence byte, are the model's reading (log entry 14). -/
def Sys2Proof.Statements.TablesRead : Prop :=
  ∀ w : Vol,
    (∀ z x g, z < 64 → x = w.zone z → g = w.gain z → readRecord w 0 (.one z) = some
      ([byteOf z, oneOr (x.placement.map (·.1)), oneOr (x.placement.map (·.2)), flag x.enabled, oneOr x.bgLane, byteOf x.bgBase,
          byteOf x.duck, byteOf x.fgBase, byteOf x.evacBase, oneOr x.fallback, flag x.compOn, byteOf x.compRef,
          byteOf x.compLimit, oneOr x.ambient, byteOf x.cond.code, byteOf x.normals, byteOf (x.silence / 256),
          byteOf x.silence, flag x.extFault,
          byteOf ((if x.history.hot then 1 else 0) + (if x.history.opened then 2 else 0) + (if x.history.short then 4 else 0)
            + (if x.history.silent then 8 else 0) + if x.history.external then 16 else 0),
          byteOf x.health.code, byteOf x.state.code, oneOr x.holder, byteOf g.fgLevel, byteOf g.bgLevel,
          byteOf x.waiters.length] ++ x.waiters.map byteOf))
    ∧ (∀ p x, 1 ≤ p → p ≤ 32 → x = w.platform p → readRecord w 2 (.one p) = some
      ([byteOf p, oneOr x.group, oneOr x.warning]
        ++ (match x.occupant with
          | some c => [2, byteOf c]
          | none => [1, 0xFF])
        ++ [(match x.trainPresent with
          | some true => 0
          | some false => 1
          | none => 0xFF), flag x.conflict]))
    ∧ (∀ p x, p < 16 → x = w.profile p → readRecord w 3 (.one p) = some
      ([byteOf p] ++ two x.approachLead ++ two x.boardingLead ++ two x.finalLead ++ two x.clearDelay
        ++ [byteOf x.delayThreshold, oneOr x.concourse] ++ (List.range 7).map (fun k => oneOr (tget none x.templates k))))
    ∧ (∀ k x, k < 128 → w.template k = some x → readRecord w 4 (.one k) = some
      ([byteOf k]
        ++ (match x.target with
          | .group g => [0, byteOf g]
          | .callPlatform => [1, 0xFF]
          | .profile => [2, 0xFF])
        ++ [byteOf x.priority, byteOf (modeCode x.mode), byteOf (resumeCode x.resume), byteOf x.repeats] ++ two x.gap
        ++ two x.window ++ [byteOf x.items.length]
        ++ x.items.flatMap (fun i => match i with
          | .clip c => [0, byteOf (c / 256), byteOf c, 0xFF]
          | .field f => [1, 0, byteOf (fieldCode f), 0xFF]
          | .pause n => [2, byteOf (n / 256), byteOf n, 0xFF]
          | .tone tone n => [3, byteOf (n / 256), byteOf n, byteOf tone])))
    ∧ (∀ k, k < 128 → w.template k = none →
        readRecord w 4 (.one k) = some [byteOf k, 0, 0, 0, 0, 0, 1, 0, 10, 0, 0, 0])
    ∧ (∀ k, (64 ≤ k → readRecord w 0 (.one k) = none) ∧ (32 ≤ k → readRecord w 1 (.one k) = none)
        ∧ (k = 0 ∨ 33 ≤ k → readRecord w 2 (.one k) = none) ∧ (16 ≤ k → readRecord w 3 (.one k) = none)
        ∧ (128 ≤ k → readRecord w 4 (.one k) = none) ∧ (16 ≤ k → readRecord w 10 (.one k) = none)
        ∧ (4 ≤ k → readRecord w 11 (.one k) = none))

/-- The record that TABLE READ gives of a phrase table, whose `n` indices start at `lo`: the entries asked for (R83, R179). BAD_ARG
for a range that runs past the table's end is the model's choice (log entry 53). -/
def Sys2Proof.Statements.PhrasesRead {n : Nat} (cls lo : Nat) (table : Vol → Vector (Option Nat) n) : Prop :=
  ∀ (w : Vol) (first count : Nat),
    (1 ≤ count → count ≤ 64 → lo ≤ first → first + count ≤ lo + n →
      readRecord w cls (.range first count) = some
        (two first ++ [byteOf count] ++ (List.range count).flatMap fun k => twoOr (tget none (table w) (first + k - lo))))
    ∧ (count = 0 ∨ 64 < count ∨ first < lo ∨ lo + n < first + count → readRecord w cls (.range first count) = none)

/-- The record that TABLE READ gives of a contact line: its parameter bytes by its function, ACTIVE and HIGH 0, INACTIVE and LOW
1 (R179). The codings are the model's reading (log entry 14), and so is the raw level of an OUTPUT line (log entry 40). -/
def Sys2Proof.Statements.LinesAsRead : Prop :=
  (∀ (w : Vol) (l : Nat) (x : Line), l < 16 → x = w.line l → readRecord w 10 (.one l) = some
      ([byteOf l, byteOf (fnCode x.fn), byteOf (polarityCode x.polarity), byteOf x.debounce, byteOf (reportCode x.report)]
        ++ fnParams x.fn
        ++ ([if x.raw then 0 else 1,
          (match x.debounced with
          | some true => 0
          | some false => 1
          | none => 0xFF),
          if x.latch then 1 else 0,
          if x.fn.isOutput = true then (if x.shown then 0 else 1) else 0xFF] : List Byte)))
    ∧ (fnCode .plain = 0 ∧ fnParams .plain = [0xFF, 0xFF, 0xFF, 0xFF, 0xFF])
    ∧ (∀ l g p, fnCode (.talk l g p) = 1 ∧ fnParams (.talk l g p) = [byteOf l, byteOf g, byteOf p, 0xFF, 0xFF])
    ∧ (∀ p, fnCode (.trainPresent p) = 2 ∧ fnParams (.trainPresent p) = [byteOf p, 0xFF, 0xFF, 0xFF, 0xFF])
    ∧ (∀ p, fnCode (.doorsClosed p) = 3 ∧ fnParams (.doorsClosed p) = [byteOf p, 0xFF, 0xFF, 0xFF, 0xFF])
    ∧ (∀ p, fnCode (.platformWarn p) = 4 ∧ fnParams (.platformWarn p) = [byteOf p, 0xFF, 0xFF, 0xFF, 0xFF])
    ∧ (∀ z, fnCode (.zoneFault z) = 5 ∧ fnParams (.zoneFault z) = [byteOf z, 0xFF, 0xFF, 0xFF, 0xFF])
    ∧ (∀ src g invert force, fnCode (.output src g invert force) = 6 ∧ fnParams (.output src g invert force) =
        ((match src with
          | .zoneHeld z => [0, byteOf z]
          | .zoneFaulted z => [1, byteOf z]
          | .platformOccupied p => [2, byteOf p]
          | .platformFinal p => [3, byteOf p]
          | .evacNotNormal => [4, 0xFF]
          | .alertRaised => [5, 0xFF]) : List Byte)
        ++ [byteOf g, if invert then 1 else 0, byteOf (forceCode force)])
    ∧ (fnCode (.evac .alert) = 7 ∧ fnCode (.evac .full) = 8 ∧ fnCode (.evac .talk) = 9 ∧ fnCode (.evac .reset) = 10
        ∧ ∀ f, fnParams (.evac f) = [0xFF, 0xFF, 0xFF, 0xFF, 0xFF])

/-- The place of each named value that the records carry (R174). -/
def Sys2Proof.Statements.TableCodes : Prop :=
  [LineCond.unknown, .normal, .hot, .opened, .short, .silent].map LineCond.code = [0, 1, 2, 3, 4, 5]
    ∧ [Health.good, .derated, .faulted].map Health.code = [0, 1, 2]
    ∧ [ZoneState.off, .quiet, .held, .faulted].map ZoneState.code = [0, 1, 2, 3]
    ∧ [ClaimMode.whole, .part, .join].map modeCode = [0, 1, 2]
    ∧ [ResumePolicy.restart, .abandon].map resumeCode = [0, 1]
    ∧ [SpokenField.platform, .destination, .scheduled, .expected, .delay].map fieldCode = [0, 1, 2, 3, 4]
    ∧ [Polarity.activeHigh, .activeLow].map polarityCode = [0, 1]
    ∧ [EdgeReport.none, .rising, .falling, .both].map reportCode = [0, 1, 2, 3]
    ∧ [Force.none, .on, .off].map forceCode = [0, 1, 2]

/-- The records that TABLE READ gives of classes 0 and 2 to 10; those of classes 1 and 12 stand in `TableReadAndFiller`, that of
class 11 in `GeneratorWritten`. -/
def Sys2Proof.Statements.RecordsRead : Prop :=
  TablesRead ∧ PhrasesRead 5 0 (·.hours) ∧ PhrasesRead 6 0 (·.minutes) ∧ PhrasesRead 7 1 (·.numbers)
    ∧ PhrasesRead 8 1 (·.platPhrases) ∧ PhrasesRead 9 0 (·.dests) ∧ LinesAsRead ∧ TableCodes

/-- LINK_CONFIG, the unassigned classes and TABLE READ with the records of its classes (R51, R82, R83, R168, R174, R179). -/
def Obligations.LinkConfigAndTableRead : Prop := LinkConfigWritten ∧ TableReadAndFiller ∧ RecordsRead

/-! ### What the events of the station leave -/

/-- The frame of the commands that act on the station: modes, links, clocks, tables, settings and the store's operation stand
(`Vol.outer`), whatever calls, claims, requests, voices, live sources and zone states the event reaches. -/
def Obligations.StationEventsFrame : Prop :=
  (∀ (i : Instr) (h : RequestHeader) (kind place : Nat) (s : State), actsOnStation i = true →
      i.request = some (h, kind) → s.Reaches i h place →
      ∃ t code body, exec i s = .next t ∧ (s.replied h kind place code body).Around t)
    ∧ (∀ (h : RequestHeader) (time dayBase place : Nat) (s : State), s.Reaches (.time h time dayBase) h place →
      ∃ t code, exec (.time h time dayBase) s = .next t
        ∧ (({ s with vol := { s.vol with clock := t.vol.clock } } : State).replied h 8 place code .none).Around t)
    ∧ (∀ (i : Instr) (m : MarkPart) (s : State), stationPart i = some m →
      ∃ t, exec i s = .next t ∧ (s.Around t ∨ ({ s with vol := s.vol.markTaken m } : State).Around t))
    ∧ (∀ s : State, (∃ t, exec .dueEntryTaken s = .next t ∧ s.Around t)
      ∧ (∀ n, ∃ t, exec (.requestReady n) s = .next t ∧ s.Around t)
      ∧ (∀ n, ∃ t, exec (.requestExpired n) s = .next t ∧ s.Around t))
    ∧ (∀ (w : Vol) (nv : Nonvolatile) (z : Nat) (f : Zone → Zone), (w.modZone z f).Within (w.zoneEvent nv z f))
    ∧ (∀ (w : Vol) (nv : Nonvolatile) (p : Nat → Bool), w.Around (w.walkDue nv p))
    ∧ (∀ (w : Vol) (nv : Nonvolatile), w.Within (w.queueTime nv))

/-! ### Clock and calls -/

/-- R55. TIME sets the clock; a jump of a SET clock sends TIME JUMP; the timetable walks the due list when the clock was
UNSET or time moved forward; the queue's tests of the new time follow (R90), after the walk: R55 is silent on them and their order is the model's
reading (log entry 12). The walk stands in `SecondAdvances`, the queue's tests in `QueueEvents`. -/
def Obligations.TimeSet : Prop :=
  ∀ (h : RequestHeader) (t b : Nat) (s : State) (place : Nat), s.Reaches (.time h t b) h place →
    (t < b ∨ 86400 ≤ t - b → Declines (.time h t b) s h 8 place .badArg)
    ∧ (b ≤ t → t - b < 86400 → ∃ w1 w2 : Vol,
        Answers (.time h t b) s { s with vol := w2.queueTime s.nv } h 8 place .ok
          ∧ (s.vol.clock.isSet = true ∧ (s.vol.clock.time + 2 < t ∨ t + 2 < s.vol.clock.time) →
              w1 = { s.vol with clock := { isSet := true, time := t, dayBase := b, marks := 0 } }.notify
                (.timeJump s.vol.clock.time t))
          ∧ (¬ (s.vol.clock.isSet = true ∧ (s.vol.clock.time + 2 < t ∨ t + 2 < s.vol.clock.time)) →
              w1 = { s.vol with clock := { isSet := true, time := t, dayBase := b, marks := 0 } })
          ∧ (s.vol.clock.isSet = false ∨ s.vol.clock.time < t → w2 = w1.walkAll s.nv)
          ∧ (s.vol.clock.isSet = true → t ≤ s.vol.clock.time → w2 = w1))

/-- CALL LOAD puts a PLANNED call into a free slot, makes its due entry and tests it (R58, R59, R79). -/
def Sys2Proof.Statements.CallLoadTaken : Prop :=
  ∀ (h : RequestHeader) (c : CallLoad) (s : State) (place : Nat), s.Reaches (.callLoad h c) h place →
    (¬ ((∀ p, c.platform = some p → 1 ≤ p ∧ p ≤ 32) ∧ c.profile < 16) → Declines (.callLoad h c) s h 9 place .badArg)
    ∧ ((∀ p, c.platform = some p → 1 ≤ p ∧ p ≤ 32) → c.profile < 16 → (s.vol.call c.slot).isSome = true →
        Declines (.callLoad h c) s h 9 place .inUse)
    ∧ ((∀ p, c.platform = some p → 1 ≤ p ∧ p ≤ 32) → c.profile < 16 → s.vol.call c.slot = none →
        ∃ (w : Vol) (x : Call),
        Answers (.callLoad h c) s { s with vol := w.walkOne s.nv c.slot } h 9 place .ok
          ∧ x = { kind := c.kind, service := c.service, destination := c.destination, platform := c.platform,
                  scheduled := c.scheduled, expected := c.expected, profile := c.profile, state := .planned, held := none,
                  announced := false, delayRef := delayMinutes c.scheduled c.expected, arrival := none, gone := none }
          ∧ w = (s.vol.setCall c.slot (some x)).remakeDue c.slot
          ∧ (s.vol.clock.isSet = false ∨ s.vol.mode = .maintenance → w.walkOne s.nv c.slot = w))

/-- The due time of a call by its kind, state and profile, kept within 0 to the largest station time; none where the state has no
timed event (R59). -/
def Sys2Proof.Statements.DueTimes : Prop :=
  ∀ (c : Call) (p : Profile) (expected : Nat), expected = c.expected.getD c.scheduled →
    (c.kind = .depart → c.state = .planned →
      (c.platform ≠ none → c.held = none → c.dueTime p = some (min (expected - p.boardingLead) 4294967295))
      ∧ (c.platform = none ∨ c.held ≠ none → c.dueTime p = none))
    ∧ (c.kind = .depart → c.state = .boarding → c.dueTime p = some (min (expected - p.finalLead) 4294967295))
    ∧ (c.kind = .depart → c.state = .final → c.dueTime p = some (min (expected + 600) 4294967295))
    ∧ (c.kind = .arrive → c.state = .planned → c.dueTime p = some (min (expected - p.approachLead) 4294967295))
    ∧ (c.kind = .arrive → c.state = .approaching → c.dueTime p = none)
    ∧ (∀ a, c.kind = .arrive → c.state = .atPlatform → c.arrival = some a →
        c.dueTime p = some (min (a + p.clearDelay) 4294967295))
    ∧ (∀ g, c.state = .gone ∨ c.state = .cancelled → c.gone = some g → c.dueTime p = some (min (g + 1800) 4294967295))

/-- The order of the due list: due time, and among equal due times slot (R79). -/
def Sys2Proof.Statements.DueBefore (a b : DueEntry) : Prop := a.time < b.time ∨ (a.time = b.time ∧ a.slot < b.slot)

/-- A new computation replaces the call's entry in the due list, or removes it, touches no other entry and nothing else, and
keeps the list in order (R59, R79). -/
def Sys2Proof.Statements.DueListKept : Prop :=
  ∀ (w : Vol) (slot : Nat),
    (∀ e, e ∈ (w.remakeDue slot).due ↔ (e ∈ w.due ∧ e.slot ≠ slot)
      ∨ (e.slot = slot ∧ ∃ c, w.call slot = some c ∧ c.dueTime (w.profile c.profile) = some e.time))
    ∧ { (w.remakeDue slot) with due := w.due } = w
    ∧ (w.due.Pairwise DueBefore → (w.remakeDue slot).due.Pairwise DueBefore)

/-- CALL LOAD, the due time of every kind and state, and the due list (R58, R59, R79). -/
def Obligations.CallLoaded : Prop := CallLoadTaken ∧ DueTimes ∧ DueListKept

/-- CALL UPDATE: the checks of R71 in their order; a CONFLICT sets the latch of the platform asked for; else a platform is
applied first and then an expected time (R72 to R74). A call in BOARDING or FINAL takes an expected time, its own platform
repeated, and another platform that is free. -/
def Sys2Proof.Statements.CallUpdateTaken : Prop :=
  ∀ (h : RequestHeader) (slot : Nat) (e p : Carried Nat) (s : State) (place : Nat),
    s.Reaches (.callUpdate h slot e p) h place →
    (updateInRange slot e p = false → Declines (.callUpdate h slot e p) s h 10 place .badArg)
    ∧ (updateInRange slot e p = true → s.vol.call slot = none → Declines (.callUpdate h slot e p) s h 10 place .notFound)
    ∧ (∀ c, updateInRange slot e p = true → s.vol.call slot = some c →
        (c.state = .atPlatform ∨ c.state = .gone ∨ c.state = .cancelled
          ∨ (p = .cleared ∧ (c.state = .boarding ∨ c.state = .final)) →
          Declines (.callUpdate h slot e p) s h 10 place .wrongState)
        ∧ (∀ q, c.state = .boarding ∨ c.state = .final → p = .value q → c.platform ≠ some q →
          (s.vol.platform q).occupant.isSome = true →
          Answers (.callUpdate h slot e p) s
            { s with vol := s.vol.setPlatform q { s.vol.platform q with conflict := true } } h 10 place .conflict)
        ∧ (c.state = .planned ∨ c.state = .approaching
            ∨ ((c.state = .boarding ∨ c.state = .final) ∧ p ≠ .cleared
              ∧ ∀ q, p = .value q → c.platform = some q ∨ (s.vol.platform q).occupant = none) →
          Answers (.callUpdate h slot e p) s
            { s with vol :=
              match p, e with
              | .left, .left => s.vol
              | .left, .cleared => s.vol.updateExpected s.nv slot none
              | .left, .value t => s.vol.updateExpected s.nv slot (some t)
              | .cleared, .left => s.vol.updatePlatform s.nv slot none
              | .cleared, .cleared => (s.vol.updatePlatform s.nv slot none).updateExpected s.nv slot none
              | .cleared, .value t => (s.vol.updatePlatform s.nv slot none).updateExpected s.nv slot (some t)
              | .value q, .left => s.vol.updatePlatform s.nv slot (some q)
              | .value q, .cleared => (s.vol.updatePlatform s.nv slot (some q)).updateExpected s.nv slot none
              | .value q, .value t => (s.vol.updatePlatform s.nv slot (some q)).updateExpected s.nv slot (some t) }
            h 10 place .ok)
        ∧ (∀ q, c.state = .boarding ∨ c.state = .final → p = .value q → e = .left → (s.vol.platform q).occupant = none →
          c.platform ≠ some q → (∀ o, c.platform = some o → 1 ≤ o ∧ o ≤ 32) → ∃ w : Vol,
          Answers (.callUpdate h slot e p) s { s with vol := w } h 10 place .ok
            ∧ (w.call slot).bind (·.platform) = some q ∧ (w.platform q).occupant = some slot))

/-- A trigger that leaves the call's state as it was hands over its request and sends its own CALL STATE notice (R66, R70), with the
announced flag as it then stands (log entry 50). -/
def Sys2Proof.Statements.OwnTrigger : Prop :=
  ∀ (w w1 : Vol) (nv : Nonvolatile) (slot : Nat) (k : Trigger) (made : Bool), w.fireTrigger nv slot k false = (made, w1) →
    w.fireAndNotify nv slot k = w1.callNotice slot (some k) false made

/-- A platform update, step by step: in BOARDING and FINAL the occupancy moves, the VOICED requests return to READY,
PLATFORM_CHANGE fires, and the old platform is offered; in PLANNED and APPROACHING the hold is dropped and the held arrival, or the
due entry, is tried on the new platform, and a change from one platform to another fires PLATFORM_CHANGE (R72, R73; log entries 17
and 37). -/
def Sys2Proof.Statements.PlatformUpdates : Prop :=
  ∀ (w : Vol) (nv : Nonvolatile) (slot : Nat) (c : Call) (p : Option Nat), w.call slot = some c →
    (c.platform = p → w.updatePlatform nv slot p = w)
    ∧ (∀ o q, c.state = .boarding ∨ c.state = .final → c.platform = some o → p = some q → o ≠ q → 1 ≤ o → 1 ≤ q → ∃ w1 : Vol,
        w1 = ((((w.setPlatform o { w.platform o with occupant := none }).setPlatform q
          { w.platform q with occupant := some slot }).setCall slot (some { c with platform := some q })).remakeDue slot).revoice
            nv slot
        ∧ w.updatePlatform nv slot p = (w1.fireAndNotify nv slot .platformChange).offerPlatform nv o)
    ∧ (c.state = .planned ∨ c.state = .approaching → c.platform ≠ p → ∃ w1 w2 : Vol,
        w1 = ((w.setCall slot (some { c with platform := p, held := none })).remakeDue slot).revoice nv slot
        ∧ (∀ since, c.held = some (.atPlatform, since) → w2 = w1.tryPlatform nv slot .atPlatform false)
        ∧ (c.held = none ∨ (∃ since, c.held = some (.boarding, since)) → w2 = w1.walkOne nv slot)
        ∧ (c.platform ≠ none → p ≠ none → w.updatePlatform nv slot p = w2.fireAndNotify nv slot .platformChange)
        ∧ (c.platform = none ∨ p = none → w.updatePlatform nv slot p = w2))

/-- The VOICED requests of a call whose template target is CALL_PLATFORM return to READY with their voices released, and the
hand-out runs (R73, R93, first case); their order, that of the queue, is the model's choice (log entry 42), and so is one
hand-out after all of them (log entry 12). -/
def Sys2Proof.Statements.VoicedRequestsReturn : Prop :=
  ∀ (w : Vol) (nv : Nonvolatile) (slot : Nat),
    w.revoice nv slot =
      ((w.queue.requests.filter fun r => decide (r.call.map (·.1) = some slot) && (r.voice?.isSome && !r.isPlaying)
          && r.override.isNone && decide ((r.template.bind w.template).map (·.target) = some .callPlatform)).foldl
        (fun v r => v.returnToReady r.number) w).handOut nv
    ∧ ∀ n r v, w.request n = some r → r.state = .voiced v →
        w.returnToReady n = (w.modRequest n fun x => { x with state := .ready }).releaseVoice v

/-- An expected-time update: the new due entry is tested at once; then a delay that differs from its reference by the
profile's threshold or more, either way, fires DELAY and becomes the reference (R74). -/
def Sys2Proof.Statements.ExpectedUpdates : Prop :=
  (∀ (w w1 : Vol) (nv : Nonvolatile) (slot : Nat) (c : Call) (e : Option Nat), w.call slot = some c →
      w1 = ((w.setCall slot (some { c with expected := e })).remakeDue slot).walkOne nv slot →
      (∀ x n, w1.call slot = some x → n = (w1.profile x.profile).delayThreshold →
        (x.delayRef + n ≤ x.delay ∨ x.delay + n ≤ x.delayRef → w.updateExpected nv slot e =
          (w1.setCall slot (some { x with delayRef := x.delay })).fireAndNotify nv slot .delay)
        ∧ (x.delay < x.delayRef + n → x.delayRef < x.delay + n → w.updateExpected nv slot e = w1))
      ∧ (w1.call slot = none → w.updateExpected nv slot e = w1))
    ∧ (∀ c : Call, (c.expected = none → c.delay = 0) ∧ ∀ e, c.expected = some e → c.delay = (e - c.scheduled) / 60)

/-- Check 1 of R71: a slot of the call table, at least one of the two fields, and a platform that is 1 to 32 or none. -/
def Sys2Proof.Statements.UpdateRanges : Prop :=
  ∀ (slot : Nat) (e p : Carried Nat), updateInRange slot e p = true ↔
    slot ≤ 255 ∧ (e ≠ .left ∨ p ≠ .left) ∧ ∀ q, p = .value q → 1 ≤ q ∧ q ≤ 32

/-- CALL UPDATE and the ranges of its fields, and what a new platform and a new expected time do (R66, R70 to R74, R93). -/
def Obligations.CallUpdated : Prop :=
  CallUpdateTaken ∧ UpdateRanges ∧ PlatformUpdates ∧ OwnTrigger ∧ VoicedRequestsReturn ∧ ExpectedUpdates

/-- CALL MARK ARRIVED takes a fitting call to its platform, by the steps that `TransitionsRun` gives, or holds it there with
ACCEPTED (R61, R63, R66, R69, R70, R75). -/
def Sys2Proof.Statements.CallMarkedArrived : Prop :=
  ∀ (h : RequestHeader) (slot : Nat) (s : State) (place : Nat), s.Reaches (.callMarkArrived h slot) h place →
    (s.vol.call slot = none → Declines (.callMarkArrived h slot) s h 11 place .notFound)
    ∧ (∀ c, s.vol.call slot = some c →
        (c.kind ≠ .arrive ∨ c.state ≠ .approaching ∨ c.held ≠ none ∨ c.platform = none →
          Declines (.callMarkArrived h slot) s h 11 place .wrongState)
        ∧ (∀ p, c.kind = .arrive → c.state = .approaching → c.held = none → c.platform = some p → 1 ≤ p → p ≤ 32 →
          (∀ o, (s.vol.platform p).occupant = some o →
            Answers (.callMarkArrived h slot) s { s with vol := s.vol.holdCall slot p o .atPlatform } h 11 place .accepted
              ∧ ((s.vol.holdCall slot p o .atPlatform).call slot).bind (·.held) = some (.atPlatform, s.vol.clock.time)
              ∧ ((s.vol.holdCall slot p o .atPlatform).platform p).conflict = true)
          ∧ ((s.vol.platform p).occupant = none → ∃ w : Vol,
            w = s.vol.enterPlatform s.nv slot p .atPlatform false
              ∧ Answers (.callMarkArrived h slot) s { s with vol := w } h 11 place .ok
              ∧ (w.platform p).occupant = some slot ∧ s.vol.Around w
              ∧ ∃ x, w.call slot = some x ∧ x.state = .atPlatform ∧ x.arrival = some s.vol.clock.time ∧ x.held = none)))

/-- CALL MARK DEPARTED takes a fitting call to GONE (R62, R75). -/
def Sys2Proof.Statements.CallMarkedDeparted : Prop :=
  ∀ (h : RequestHeader) (slot : Nat) (s : State) (place : Nat), s.Reaches (.callMarkDeparted h slot) h place →
    (s.vol.call slot = none → Declines (.callMarkDeparted h slot) s h 11 place .notFound)
    ∧ (∀ c, s.vol.call slot = some c →
        (¬ ((c.kind = .depart ∧ c.state = .final) ∨ (c.kind = .arrive ∧ c.state = .atPlatform)) →
          Declines (.callMarkDeparted h slot) s h 11 place .wrongState)
        ∧ ((c.kind = .depart ∧ c.state = .final) ∨ (c.kind = .arrive ∧ c.state = .atPlatform) → c.held = none → ∃ w : Vol,
          w = s.vol.enterGone s.nv slot false ∧ Answers (.callMarkDeparted h slot) s { s with vol := w } h 11 place .ok
            ∧ s.vol.Around w
            ∧ ∃ x, w.call slot = some x ∧ x.state = .gone ∧ x.gone = some s.vol.clock.time))

/-- Call `s` is held on platform `p` for the transition `k`, since `since`. -/
def Sys2Proof.Statements.HeldOn (w : Vol) (p s : Nat) (k : HeldTransition) (since : Nat) : Prop :=
  ∃ c, w.call s = some c ∧ c.platform = some p ∧ c.held = some (k, since)

/-- A freed platform is offered to the calls held on it: the earliest held, among equals the lowest slot, completes its held
transition there without a stale test; the others stay held, and the conflict latch is set again, without a notice (R64). That no
boarding time is tested there is the model's reading of R64 beside R60 (log entry 55). -/
def Sys2Proof.Statements.PlatformOffered : Prop :=
  ∀ (w : Vol) (nv : Nonvolatile) (p : Nat),
    ((∀ s k since, ¬ HeldOn w p s k since) → w.offerPlatform nv p = w)
    ∧ ∀ s k since, HeldOn w p s k since →
        (∀ s' k' since', HeldOn w p s' k' since' → since < since' ∨ (since = since' ∧ s ≤ s')) → ∃ w1 : Vol,
        w1 = w.enterPlatform nv s p k false
          ∧ ((∀ s' k' since', HeldOn w p s' k' since' → s' = s) → w.offerPlatform nv p = w1)
          ∧ ((∃ s' k' since', HeldOn w p s' k' since' ∧ s' ≠ s) →
            w.offerPlatform nv p = w1.setPlatform p { w1.platform p with conflict := true })

/-- A transition that finds its platform occupied is held: the call is marked with the transition and the time, the platform's
conflict latch is set, PLATFORM CONFLICT names the platform, the held call and the occupant with their services, and the call's
due entry is made anew (R63). -/
def Sys2Proof.Statements.CallHeld : Prop :=
  ∀ (w : Vol) (slot p o : Nat) (h : HeldTransition) (c d : Call), w.call slot = some c → w.call o = some d →
    w.holdCall slot p o h =
      (((w.setCall slot (some { c with held := some (h, w.clock.time) })).setPlatform p
        { w.platform p with conflict := true }).notify (.platformConflict p slot c.service o d.service)).remakeDue slot

/-- CALL MARK, the hold behind an occupant, and the offer of the platform that a departure frees (R62 to R64, R75). -/
def Obligations.CallMarks : Prop := CallMarkedArrived ∧ CallMarkedDeparted ∧ CallHeld ∧ PlatformOffered

/-- CALL CANCEL takes a call that is not AT_PLATFORM, GONE or CANCELLED to CANCELLED (R77). -/
def Sys2Proof.Statements.CallCancelled : Prop :=
  ∀ (h : RequestHeader) (slot : Nat) (s : State) (place : Nat), s.Reaches (.callCancel h slot) h place →
    (s.vol.call slot = none → Declines (.callCancel h slot) s h 12 place .notFound)
    ∧ (∀ c, s.vol.call slot = some c →
        (c.state = .atPlatform ∨ c.state = .gone ∨ c.state = .cancelled →
          Declines (.callCancel h slot) s h 12 place .wrongState)
        ∧ (c.state ≠ .atPlatform → c.state ≠ .gone → c.state ≠ .cancelled → ∃ w : Vol,
          w = s.vol.cancelCall s.nv slot ∧ Answers (.callCancel h slot) s { s with vol := w } h 12 place .ok ∧ s.vol.Around w
            ∧ ∃ x, w.call slot = some x ∧ x.state = .cancelled ∧ x.gone = some s.vol.clock.time ∧ x.held = none))

/-- CALL REMOVE frees the slot and answers the call's announced flag; its due entry is gone (R78). -/
def Sys2Proof.Statements.CallRemoved : Prop :=
  ∀ (h : RequestHeader) (slot : Nat) (s : State) (place : Nat), s.Reaches (.callRemove h slot) h place →
    (s.vol.call slot = none → Declines (.callRemove h slot) s h 13 place .notFound)
    ∧ (∀ c, s.vol.call slot = some c → ∃ w : Vol,
        w = s.vol.removeCall s.nv slot
          ∧ Answers (.callRemove h slot) s { s with vol := w } h 13 place .ok (.announced c.announced)
          ∧ w.call slot = none ∧ (∀ e ∈ w.due, e.slot ≠ slot) ∧ s.vol.Around w)

/-- In `w1` platform `p` is free; every other platform and every call but `slot` is as in `w`. -/
def Sys2Proof.Statements.Freed (w w1 : Vol) (slot p : Nat) : Prop :=
  (w1.platform p).occupant = none ∧ (∀ q, 1 ≤ q → q ≤ 32 → q ≠ p → w1.platform q = w.platform q)
    ∧ ∀ s, s ≠ slot → w1.call s = w.call s

/-- A call that becomes GONE or CANCELLED, or is removed, frees its platform, if it is the occupant, and the platform is then
offered; else every platform stands (R62, R77, R78). What an offer does stands in `PlatformOffered`. That the offer comes last in
a transition to GONE is the model's choice (log entry 18). -/
def Sys2Proof.Statements.PlatformFreed : Prop :=
  ∀ (w : Vol) (nv : Nonvolatile) (slot : Nat) (c : Call), w.call slot = some c →
    (∀ p, c.platform = some p → 1 ≤ p → p ≤ 32 → (w.platform p).occupant = some slot → c.held = none →
      (∀ stale, ∃ w1, w.enterGone nv slot stale = w1.offerPlatform nv p ∧ Freed w w1 slot p
        ∧ ∃ x, w1.call slot = some x ∧ x.state = .gone)
      ∧ (∃ w1, w.cancelCall nv slot = w1.offerPlatform nv p ∧ Freed w w1 slot p
        ∧ ∃ x, w1.call slot = some x ∧ x.state = .cancelled)
      ∧ (∃ w1, w.removeCall nv slot = ((w1.offerPlatform nv p).setCall slot none).notify (.callRemoved slot c.service)
        ∧ Freed w w1 slot p))
    ∧ ((∀ p, c.platform = some p → (w.platform p).occupant ≠ some slot) →
      (∀ stale, (w.enterGone nv slot stale).platforms = w.platforms) ∧ (w.cancelCall nv slot).platforms = w.platforms
        ∧ (w.removeCall nv slot).platforms = w.platforms)

/-- A cancellation in its five steps: every request of the call is withdrawn with WITHDRAWN; the call is CANCELLED at the station
time, not held; the CANCELLED trigger, its CALL STATE notice and the removal entry follow; and a platform the call occupied is freed
and offered (R77), after the CANCELLED request, so before the withdrawals of a held call's transition (log entry 54). What a
withdrawal, an end of a transition and an offer do stands in `CallRequestsWithdrawn`, `TransitionsRun` and `PlatformOffered`. -/
def Sys2Proof.Statements.CancelRuns : Prop :=
  ∀ (w w1 w2 : Vol) (nv : Nonvolatile) (slot : Nat) (c : Call), w.call slot = some c →
    w1 = w.supersede nv slot none .withdrawn →
    w2 = (w1.setCall slot (some { c with state := .cancelled, gone := some w.clock.time, held := none })).endTransition nv slot
      (some .cancelled) false →
    (∀ p, c.platform = some p → (w.platform p).occupant = some slot →
      w.cancelCall nv slot = (w2.setPlatform p { w2.platform p with occupant := none }).offerPlatform nv p)
    ∧ ((∀ p, c.platform = some p → (w.platform p).occupant ≠ some slot) → w.cancelCall nv slot = w2)

/-- A removal step by step: every request of the call that is not PLAYING is removed with WITHDRAWN and every PLAYING one is marked,
and they name no call any more; the due entry leaves the list; a platform the call occupied is freed; the hold is dropped; the
platform is offered; the slot is free and the notice REMOVED is sent (R78, R96, R99). -/
def Sys2Proof.Statements.RemovalRuns : Prop :=
  ∀ (w w1 w2 : Vol) (nv : Nonvolatile) (slot : Nat) (c : Call), w.call slot = some c →
    w1 = w.supersede nv slot none .withdrawn →
    w2 = { w1 with
      queue := { w1.queue with
        requests := w1.queue.requests.map fun r => if r.call.map (·.1) = some slot then { r with call := none } else r }
      due := w1.due.filter fun e => decide (e.slot ≠ slot) } →
    (∀ p, c.platform = some p → (w.platform p).occupant = some slot →
      w.removeCall nv slot = ((((w2.setPlatform p { w2.platform p with occupant := none }).setCall slot
        (some { c with held := none })).offerPlatform nv p).setCall slot none).notify (.callRemoved slot c.service))
    ∧ ((∀ p, c.platform = some p → (w.platform p).occupant ≠ some slot) →
      w.removeCall nv slot = (w2.setCall slot none).notify (.callRemoved slot c.service))

/-- CALL CANCEL and CALL REMOVE, their steps, and the platform that an ending call frees (R62, R77, R78). -/
def Obligations.CallEnds : Prop := CallCancelled ∧ CancelRuns ∧ CallRemoved ∧ RemovalRuns ∧ PlatformFreed

/-- The state that each transition leaves its call in, and what becomes of its platform (R60 to R63, R78): BOARDING or
AT_PLATFORM on a free platform, held behind an occupant (`CallHeld`), FINAL, APPROACHING, GONE, or no call. -/
def Sys2Proof.Statements.TransitionsEnd : Prop :=
  ∀ (w : Vol) (nv : Nonvolatile) (slot : Nat) (c : Call) (stale : Bool), w.call slot = some c →
    (∃ x, (w.enterFinal nv slot stale).call slot = some x ∧ x.state = .final ∧ x.platform = c.platform)
    ∧ (∃ x, (w.enterApproaching nv slot stale).call slot = some x ∧ x.state = .approaching ∧ x.platform = c.platform)
    ∧ (c.held = none → ∃ x, (w.enterGone nv slot stale).call slot = some x ∧ x.state = .gone
        ∧ x.gone = some w.clock.time ∧ x.platform = c.platform)
    ∧ ((w.removeCall nv slot).call slot = none)
    ∧ (∀ h, c.platform = none →
        (w.tryPlatform nv slot h stale).call slot = some c ∧ (w.tryPlatform nv slot h stale).platforms = w.platforms)
    ∧ (∀ h p, c.platform = some p → 1 ≤ p → p ≤ 32 → (w.platform p).occupant = none →
        ((w.tryPlatform nv slot h stale).platform p).occupant = some slot
        ∧ ∃ x, (w.tryPlatform nv slot h stale).call slot = some x ∧ x.state = h.target ∧ x.held = none
          ∧ x.platform = some p ∧ (h = .atPlatform → x.arrival = some w.clock.time))
    ∧ (∀ h p o, c.platform = some p → 1 ≤ p → p ≤ 32 → (w.platform p).occupant = some o →
        w.tryPlatform nv slot h stale = w.holdCall slot p o h
        ∧ (w.tryPlatform nv slot h stale).call slot = some { c with held := some (h, w.clock.time) }
        ∧ (w.tryPlatform nv slot h stale).platform p = { w.platform p with conflict := true })

/-- The marks of a CALL STATE notice: a trigger that fires in EVACUATE is suppressed, and a transition that is stale in
EVACUATE carries both marks (R68, R70). -/
def Sys2Proof.Statements.CallStateMarks : Prop :=
  ∀ (w : Vol) (slot : Nat) (c : Call) (t : Option Trigger) (stale made : Bool), w.call slot = some c →
    ∃ suppressed : Bool,
      w.callNotice slot t stale made = w.notify
          (.callState slot c.kind c.service c.state c.platform t c.announced stale suppressed made)
        ∧ (suppressed = true ↔ w.evac.state = .evacuate ∧ (t ≠ none ∨ stale = true))

/-- A due entry that has come is taken: it leaves the list, and its call makes its transition or removal, stale when the
entry lies more than 120 s back (R67, R79, R80). -/
def Sys2Proof.Statements.DueEntryActs : Prop :=
  ∀ (s : State) (e : DueEntry) (rest : List DueEntry) (c : Call) (stale : Bool), s.running = true →
    s.vol.clock.isSet = true → s.vol.mode = .normal → s.vol.due = e :: rest → e.time ≤ s.vol.clock.time →
    s.vol.call e.slot = some c → stale = decide (e.time + 120 < s.vol.clock.time) →
    (c.kind = .depart → c.state = .planned →
      Happens .dueEntryTaken s { s with vol := (s.vol.dropDue e.slot).tryPlatform s.nv e.slot .boarding stale })
    ∧ (c.kind = .depart → c.state = .boarding →
      Happens .dueEntryTaken s { s with vol := (s.vol.dropDue e.slot).enterFinal s.nv e.slot stale })
    ∧ (c.kind = .arrive → c.state = .planned →
      Happens .dueEntryTaken s { s with vol := (s.vol.dropDue e.slot).enterApproaching s.nv e.slot stale })
    ∧ ((c.kind = .depart ∧ c.state = .final) ∨ (c.kind = .arrive ∧ c.state = .atPlatform) →
      Happens .dueEntryTaken s { s with vol := (s.vol.dropDue e.slot).enterGone s.nv e.slot stale })
    ∧ (c.state = .gone ∨ c.state = .cancelled →
      Happens .dueEntryTaken s { s with vol := (s.vol.dropDue e.slot).removeCall s.nv e.slot })

/-- A trigger hands the request queue a new TIMETABLE request of the profile's template for its kind, and the call is announced
when the request enters; none is made without a template, for a stale transition, or in EVACUATE; an empty template ends in FAILED
without a request number (R66 to R68, R85), its priority 0, the model's choice (log entry 51). -/
def Sys2Proof.Statements.TriggerFires : Prop :=
  (∀ (w : Vol) (nv : Nonvolatile) (slot : Nat) (c : Call) (k : Trigger) (stale : Bool), w.call slot = some c →
      ((w.profile c.profile).templateFor k = none ∨ stale = true ∨ w.evac.state = .evacuate →
        w.fireTrigger nv slot k stale = (false, w))
      ∧ ∀ n, (w.profile c.profile).templateFor k = some n → stale = false → w.evac.state ≠ .evacuate →
        (w.template n = none → w.fireTrigger nv slot k stale =
          (true, w.notify (.requestEnd none .timetable (some (slot, k)) none (some n) 0 .failed)))
        ∧ ∀ x r made w1, w.template n = some x →
          r = { number := 0, origin := .timetable, call := some (slot, k), platform := none, template := some n,
                override := none, values := none, priority := x.priority, mode := x.mode, resume := x.resume,
                gap := some x.gap, window := some x.window, repeatsLeft := some (x.repeats - 1),
                notBefore := w.clock.time, expiry := expiryFrom w.clock.time (some x.window), state := .pending,
                stamp := 0, incomplete := false, finish := none, cancelPending := false } →
          w.createRequest nv r = (made, w1) →
          (made ≠ none → w.fireTrigger nv slot k stale = (true, w1.modCall slot fun y => { y with announced := true }))
          ∧ (made = none → w.fireTrigger nv slot k stale = (true, w1)))
    ∧ (∀ (p : Profile) (k : Trigger), p.templateFor k = tget none p.templates k.place)
    ∧ [Trigger.approach, .arrived, .boarding, .final, .delay, .platformChange, .cancelled].map Trigger.place
      = [0, 1, 2, 3, 4, 5, 6]

/-- The call table withdraws the requests of a call, of one trigger kind or of all, in queue order, and the hand-out runs (R69,
R96), once after them all: the model's choice (log entry 12). What the withdrawal of one request does stands in `QueueEvents`. -/
def Sys2Proof.Statements.CallRequestsWithdrawn : Prop :=
  ∀ (w : Vol) (nv : Nonvolatile) (slot : Nat) (k : Option Trigger) (m : FinishMark),
    w.supersede nv slot k m =
      ((w.queue.requests.filter fun r => decide (r.call.map (·.1) = some slot) && (k.isNone || decide (r.call.map (·.2) = k))).foldl
        (fun v r => v.withdrawRequest r m) w).handOut nv

/-- The transitions step by step: the new state, then the supersession of what no longer holds (BOARDING at FINAL, APPROACH at
AT_PLATFORM, all at GONE), then the trigger's request, the notice and the new due entry (R60 to R62, R66, R69, R70). The order of
the steps at GONE is the model's choice (log entry 18); that the notice shows the announced flag as it stands after its own
trigger, whatever follows in the event, is its reading of R70 (log entry 50). -/
def Sys2Proof.Statements.TransitionsRun : Prop :=
  ∀ (w : Vol) (nv : Nonvolatile) (slot : Nat) (c : Call) (stale : Bool), w.call slot = some c →
    w.enterApproaching nv slot stale =
        (w.setCall slot (some { c with state := .approaching })).endTransition nv slot (some .approach) stale
    ∧ w.enterFinal nv slot stale =
        ((w.setCall slot (some { c with state := .final })).supersede nv slot (some .boarding) .superseded).endTransition nv slot
          (some .final) stale
    ∧ (∀ p, w.enterPlatform nv slot p .boarding stale =
        ((w.setPlatform p { w.platform p with occupant := some slot }).setCall slot
          (some { c with state := .boarding, held := none })).endTransition nv slot (some .boarding) stale)
    ∧ (∀ p, w.enterPlatform nv slot p .atPlatform stale =
        (((w.setPlatform p { w.platform p with occupant := some slot }).setCall slot
          (some { c with state := .atPlatform, held := none, arrival := some w.clock.time })).supersede nv slot (some .approach)
            .superseded).endTransition nv slot (some .arrived) stale)
    ∧ (∀ w1, w1 = w.setCall slot (some { c with state := .gone, gone := some w.clock.time }) →
        (∀ p, c.platform = some p → (w.platform p).occupant = some slot → w.enterGone nv slot stale =
          (((w1.setPlatform p { w.platform p with occupant := none }).supersede nv slot none .superseded).endTransition nv slot
            none stale).offerPlatform nv p)
        ∧ ((∀ p, c.platform = some p → (w.platform p).occupant ≠ some slot) → w.enterGone nv slot stale =
          (w1.supersede nv slot none .superseded).endTransition nv slot none stale))
    ∧ (∀ k made w1, w.fireTrigger nv slot k stale = (made, w1) →
        w.endTransition nv slot (some k) stale = (w1.callNotice slot (some k) stale made).remakeDue slot)
    ∧ w.endTransition nv slot none stale = (w.callNotice slot none stale false).remakeDue slot

/-- A due entry is taken and its call makes its transition, in the state and on the platform the rules give, with the supersession,
the trigger's request and the notice of it (R60 to R63, R66 to R70, R79, R80, R96). -/
def Obligations.DueEntryTaken : Prop :=
  DueEntryActs ∧ TransitionsEnd ∧ TransitionsRun ∧ TriggerFires ∧ CallRequestsWithdrawn ∧ CallStateMarks

/-! ### Announcements -/

/-- The DIRECT request of an ANNOUNCE, field by field: no call and no platform, the fields asked for, the template's mode, policy,
gap and window, its repeats less one, not-before no earlier than now, expiry the window after it, PENDING, with no flag or mark set
(R85, R94); `Numbered` gives it its number and stamp. What `expiryFrom` gives stands in `PlaysSettled`. -/
def Sys2Proof.Statements.DirectRequestMade : Prop :=
  ∀ (w : Vol) (a : Announcement) (t : Template) (nb : Nat), nb = max w.clock.time (a.notBefore.getD w.clock.time) →
    w.directRequest a t =
      { number := 0, origin := .direct, call := none, platform := none, template := some a.template, override := a.group
        values := some a.values, priority := a.priority.getD t.priority, mode := t.mode, resume := t.resume
        gap := some t.gap, window := some t.window, repeatsLeft := some (t.repeats - 1), notBefore := nb
        expiry := expiryFrom nb (some t.window), state := .pending, stamp := 0, incomplete := false, finish := none
        cancelPending := false }

/-- ANNOUNCE: the checks of R94 in their order; a refusal for want of room sets the QUEUE latch (R88); a request that
passes is numbered and enters the queue, and the reply carries its number (R85, R87, R91). That the number is searched in the
queue without the request that R88 evicts for it is the model's choice (log entry 57). -/
def Sys2Proof.Statements.AnnounceTaken : Prop :=
  ∀ (h : RequestHeader) (a : Announcement) (s : State) (place : Nat), s.Reaches (.announce h a) h place →
    (a.inRange = false → Declines (.announce h a) s h 14 place .badArg)
    ∧ (a.inRange = true → s.vol.template a.template = none → Declines (.announce h a) s h 14 place .notFound)
    ∧ (∀ t, a.inRange = true → s.vol.template a.template = some t →
        (s.vol.evac.state = .evacuate → a.priority.getD t.priority < 12 →
          Declines (.announce h a) s h 14 place .evacActive)
        ∧ (s.vol.evac.state ≠ .evacuate ∨ 12 ≤ a.priority.getD t.priority →
          (s.vol.makeRoom (a.priority.getD t.priority) = none →
            Answers (.announce h a) s { s with vol := { s.vol with engine := { s.vol.engine with queueLatch := true } } }
              h 14 place .noRoom)
          ∧ (∀ w, s.vol.makeRoom (a.priority.getD t.priority) = some w → ∃ r w',
            w.numberRequest (s.vol.directRequest a t) = (r, w')
              ∧ Answers (.announce h a) s { s with vol := w'.enterQueue s.nv r } h 14 place .accepted (.number r.number)
              ∧ r.origin = .direct ∧ r.template = some a.template ∧ r.override = a.group ∧ r.values = some a.values
              ∧ r.priority = a.priority.getD t.priority ∧ r.mode = t.mode ∧ r.resume = t.resume
              ∧ r.repeatsLeft = some (t.repeats - 1)
              ∧ r.notBefore = max s.vol.clock.time (a.notBefore.getD s.vol.clock.time))))

/-- Check 1 of R94: the template, the priority, the group and the field values that the request carries lie in their ranges; a time is
a station time of 32 bits. -/
def Sys2Proof.Statements.AnnouncementRanges : Prop :=
  ∀ a : Announcement, a.inRange = true ↔ a.template ≤ 127 ∧ (∀ p, a.priority = some p → p ≤ 13)
    ∧ (∀ g, a.group = some g → g ≤ 31) ∧ (∀ p, a.values.platform = some p → 1 ≤ p ∧ p ≤ 32)
    ∧ (∀ d, a.values.destination = some d → d ≤ 255) ∧ (∀ t, a.values.scheduled = some t → t ≤ 4294967295)
    ∧ (∀ t, a.values.expected = some t → t ≤ 4294967295) ∧ ∀ n, a.values.delay = some n → n ≤ 65535

/-- There is room for a request of priority `p` (R88). -/
def Sys2Proof.Statements.HasRoom (w : Vol) (p : Nat) : Prop :=
  w.queue.requests.length < 64 ∧ (12 ≤ p ∨ (w.queue.requests.filter fun r => decide (r.priority < 12)).length < 60)

/-- The request is PENDING or READY and of lower priority than `p` (R88). -/
def Sys2Proof.Statements.CanYield (w : Vol) (p : Nat) (r : Request) : Prop :=
  r ∈ w.queue.requests ∧ (r.state = .pending ∨ r.state = .ready) ∧ r.priority < p

/-- Room for a new request: as it is, by the eviction of the waiting request of lowest priority and, among equals, the newest, or
none (R88). -/
def Sys2Proof.Statements.RoomMade : Prop :=
  ∀ (w : Vol) (p : Nat),
    (HasRoom w p → w.makeRoom p = some w)
    ∧ (¬ HasRoom w p → (∀ r, ¬ CanYield w p r) → w.makeRoom p = none)
    ∧ (∀ r, ¬ HasRoom w p → CanYield w p r →
        (∀ x, CanYield w p x → x ≠ r → r.priority < x.priority ∨ (r.priority = x.priority ∧ x.stamp < r.stamp)) →
        w.makeRoom p = some (w.removeRequest r.number .evicted))

/-- No two requests share a number or a stamp, every stamp lies below the stamp counter, and the number counter is in range. -/
def Sys2Proof.Statements.QueueDistinct (w : Vol) : Prop :=
  (w.queue.requests.map (·.number)).Nodup ∧ (w.queue.requests.map (·.stamp)).Nodup
    ∧ (∀ r ∈ w.queue.requests, r.stamp < w.queue.nextStamp) ∧ w.queue.nextNumber < 65536

/-- A new request takes the number counter, or the next number that no request holds, and the stamp counter; a stamp counter at
its largest value first gives new stamps in the existing order; numbers and stamps stay distinct (R85). -/
def Sys2Proof.Statements.Numbered : Prop :=
  ∀ (w : Vol) (r : Request), ∃ r' w', w.numberRequest r = (r', w')
    ∧ r' = { r with number := r'.number, stamp := r'.stamp, state := if r.notBefore ≤ w.clock.time then .ready else .pending }
    ∧ { w' with queue := w.queue } = w ∧ w'.queue.nextNumber = (r'.number + 1) % 65536
    ∧ (w.queue.nextStamp ≠ 4294967295 →
        r'.stamp = w.queue.nextStamp ∧ w'.queue.nextStamp = w.queue.nextStamp + 1 ∧ w'.queue.requests = w.queue.requests)
    ∧ (w.queue.nextStamp = 4294967295 →
        r'.stamp = w.queue.requests.length ∧ w'.queue.nextStamp = w.queue.requests.length + 1
        ∧ (QueueDistinct w → w'.queue.requests = w.queue.requests.map fun x =>
            { x with stamp := (w.queue.requests.filter fun y => decide (y.stamp < x.stamp)).length }))
    ∧ (∀ k ≤ 64, w.queue.nextNumber < 65536 →
        (∀ j < k, ∃ x ∈ w.queue.requests, x.number = (w.queue.nextNumber + j) % 65536) →
        (∀ x ∈ w.queue.requests, x.number ≠ (w.queue.nextNumber + k) % 65536) →
        r'.number = (w.queue.nextNumber + k) % 65536)
    ∧ (QueueDistinct w → w.queue.requests.length ≤ 64 → ∀ a b, w'.queue.requests = a ++ b →
        QueueDistinct { w' with queue := { w'.queue with requests := a ++ r' :: b } })

/-- Two requests announce the same moment: the same call and trigger kind, or for CONTACT the same platform (R89). -/
def Sys2Proof.Statements.SameMoment (a b : Request) : Prop :=
  (a.origin = .timetable ∧ b.origin = .timetable ∧ ∃ c, a.call = some c ∧ b.call = some c)
    ∨ (a.origin = .contact ∧ b.origin = .contact ∧ a.platform = b.platform)

/-- A request is created: it replaces the one of its moment that is not PLAYING, finds or makes room, takes its number and stamp
and enters the queue; one without room ends DROPPED, sets the QUEUE latch, and leaves the queue as it was (R88, R89). That a
DROPPED request uses up a stamp is the model's choice (log entry 38), and so is one hand-out after all of this, to a voice that
the replaced request frees too (log entry 12), and so is that number and stamp are taken after the replaced or evicted request has
left the queue (log entry 57). -/
def Sys2Proof.Statements.RequestCreated : Prop :=
  ∀ (w : Vol) (nv : Nonvolatile) (r : Request),
    ((∀ x ∈ w.queue.requests, SameMoment r x → x.isPlaying = true) → w.replaceMoment r = w)
    ∧ (∀ a x b, w.queue.requests = a ++ x :: b → (∀ y ∈ a, SameMoment r y → y.isPlaying = true) → SameMoment r x →
        x.isPlaying = false → w.replaceMoment r = w.removeRequest x.number .superseded)
    ∧ (∀ w1 w2 r', (w.replaceMoment r).makeRoom r.priority = some w1 → w1.numberRequest r = (r', w2) →
        w.createRequest nv r = (some r'.number, w2.enterQueue nv r'))
    ∧ (∀ w1 w2 r', (w.replaceMoment r).makeRoom r.priority = none → (w.replaceMoment r).numberRequest r = (r', w1) →
        w2 = w1.notify (.requestEnd (some r'.number) r'.origin r'.call r'.platform r'.template r'.priority .dropped) →
        w.createRequest nv r = (none, ({ w2 with engine := { w2.engine with queueLatch := true } }).handOut nv))

/-- A numbered request takes its place by priority, highest first, and stamp, oldest first, and the hand-out runs (R87, R91). -/
def Sys2Proof.Statements.QueueEntered : Prop :=
  (∀ (w : Vol) (nv : Nonvolatile) (r : Request) (a b : List Request), w.queue.requests = a ++ b →
      (∀ x ∈ a, r.before x = false) → (∀ x, b.head? = some x → r.before x = true) →
      w.enterQueue nv r = ({ w with queue := { w.queue with requests := a ++ r :: b } }).handOut nv)
    ∧ ∀ a b : Request, a.before b = true ↔ b.priority < a.priority ∨ (a.priority = b.priority ∧ a.stamp < b.stamp)

/-- A removal frees the request's entry, sends REQUEST END and releases its voice, if it has one (R87, R99). -/
def Sys2Proof.Statements.RequestRemoved : Prop :=
  ∀ (w : Vol) (n : Nat) (o : ReqOutcome), (w.request n = none → w.removeRequest n o = w)
    ∧ ∀ r w1, w.request n = some r →
        w1 = ({ w with
            queue := { w.queue with requests := w.queue.requests.filter fun x => decide (x.number ≠ n) } }).notify
          (.requestEnd (some n) r.origin r.call r.platform r.template r.priority o) →
        (r.state = .pending ∨ r.state = .ready → w.removeRequest n o = w1)
        ∧ ∀ v, r.state = .voiced v ∨ r.state = .playing v → w.removeRequest n o = w1.releaseVoice v

/-- ANNOUNCE and the ranges of its fields, and how any request is created, finds room, is numbered, enters the queue and leaves it (R85, R87 to R89, R94, R99).
The hand-out stands in `QueueEvents`. -/
def Obligations.Announced : Prop :=
  AnnounceTaken ∧ AnnouncementRanges ∧ DirectRequestMade ∧ RoomMade ∧ Numbered ∧ RequestCreated ∧ QueueEntered ∧ RequestRemoved

/-- ANNOUNCE CANCEL: a PLAYING request is marked cancel pending, another is removed with CANCELLED (R95). -/
def Sys2Proof.Statements.AnnounceCancelled : Prop :=
  ∀ (h : RequestHeader) (n : Nat) (s : State) (place : Nat), s.Reaches (.announceCancel h n) h place →
    (s.vol.request n = none → Declines (.announceCancel h n) s h 15 place .notFound)
    ∧ (∀ r, s.vol.request n = some r → r.origin = .evac → Declines (.announceCancel h n) s h 15 place .wrongState)
    ∧ (∀ r v, s.vol.request n = some r → r.origin ≠ .evac → r.state = .playing v →
        Answers (.announceCancel h n) s { s with vol := s.vol.modRequest n fun x => { x with cancelPending := true } }
          h 15 place .ok)
    ∧ (∀ r, s.vol.request n = some r → r.origin ≠ .evac → r.isPlaying = false →
        Answers (.announceCancel h n) s { s with vol := (s.vol.removeRequest n .cancelled).handOut s.nv } h 15 place .ok
          ∧ (s.vol.removeRequest n .cancelled).request n = none)

/-- A PENDING request whose not-before is reached becomes READY; one not PLAYING whose expiry has passed is removed with
EXPIRED; the hand-out runs (R90, R91). -/
def Sys2Proof.Statements.QueueTimes : Prop :=
  ∀ (n : Nat) (r : Request) (s : State), s.running = true → s.vol.request n = some r →
    (r.state = .pending → r.notBefore ≤ s.vol.clock.time → (∀ e, r.expiry = some e → s.vol.clock.time ≤ e) →
      Happens (.requestReady n) s
        { s with vol := (s.vol.modRequest n fun x => { x with state := .ready }).handOut s.nv })
    ∧ (∀ e, r.isPlaying = false → r.expiry = some e → e < s.vol.clock.time →
      Happens (.requestExpired n) s { s with vol := (s.vol.removeRequest n .expired).handOut s.nv })

/-- What a withdrawal does to a request: one that is not PLAYING is removed with the outcome; a PLAYING one plays on under its
finish mark (R96), but for one that is cancel pending, which is removed with CANCELLED (R95; log entry 34). -/
def Sys2Proof.Statements.Withdrawn : Prop :=
  ∀ (w : Vol) (r : Request) (m : FinishMark),
    (r.isPlaying = false → w.withdrawRequest r m = w.removeRequest r.number m.outcome)
    ∧ (r.isPlaying = true → r.cancelPending = true → w.withdrawRequest r m = w.removeRequest r.number .cancelled)
    ∧ (r.isPlaying = true → r.cancelPending = false → w.withdrawRequest r m =
        w.modRequest r.number fun x => { x with finish := if x.finish.isSome = true then x.finish else some m })

/-- Voice `v` is given to the request `r`, the first READY one in queue order: voice 7 to the evacuation request, the lowest IDLE
one of voices 0 to 6 to any other (R91). -/
def Sys2Proof.Statements.GivenVoice (w : Vol) (r : Request) (v : Nat) : Prop :=
  w.queue.requests.find? (fun x => decide (x.state = .ready)) = some r ∧ (w.voice v).state = .idle
    ∧ (r.origin = .evac → v = 7) ∧ (r.origin ≠ .evac → v < 7 ∧ ∀ u < v, (w.voice u).state ≠ .idle)

/-- `w'` is `w` after `n` requests have been given a voice, each on the state the one before it left; in `w'` none can be. -/
def Sys2Proof.Statements.HandsOut (nv : Nonvolatile) : Nat → Vol → Vol → Prop
  | 0, w, w' => (∀ r v, ¬ GivenVoice w r v) ∧ w' = w
  | n + 1, w, w' => ∃ r v, GivenVoice w r v
      ∧ HandsOut nv n ((w.modRequest r.number fun x => { x with state := .voiced v }).beginVoice nv r v) w'

/-- The hand-out gives voices to READY requests in queue order until none is READY or no IDLE voice fits the next one; a request
given a voice is VOICED and its voice begins (R91). What a voice then does stands in `VoiceMarks`. -/
def Sys2Proof.Statements.HandOut : Prop :=
  ∀ (w : Vol) (nv : Nonvolatile), ∃ n ≤ w.queue.requests.length, HandsOut nv n w (w.handOut nv)

/-- A newer request, not PLAYING, stands for the moment of request `r` (R92, R93). -/
def Sys2Proof.Statements.Overtaken (w : Vol) (r : Request) : Prop :=
  ∃ x ∈ w.queue.requests, x.number ≠ r.number ∧ x.isPlaying = false ∧ SameMoment r x

/-- The outcome of a request with a finish mark, or one that EVACUATE or a newer request ends, in the order of the tables of R92 and
R93 below their first rows; none when it plays again. -/
def Sys2Proof.Statements.EndsAlso (w : Vol) (r : Request) (o : Option ReqOutcome) : Prop :=
  (r.finish = some .superseded → o = some .superseded) ∧ (r.finish = some .withdrawn → o = some .withdrawn)
    ∧ (r.finish = none →
      (w.evac.state = .evacuate ∧ r.priority < 12 → o = some .suppressed)
      ∧ (¬ (w.evac.state = .evacuate ∧ r.priority < 12) →
        (Overtaken w r → o = some .superseded) ∧ (¬ Overtaken w r → o = none)))

/-- The settlement of a play that has come to its end (R92). A sum of times above the largest station time is a free value
(log entry 22). -/
def Sys2Proof.Statements.PlaysSettled : Prop :=
  (∀ (w : Vol) (n : Nat) (r : Request) (o : Option ReqOutcome), w.request n = some r →
      (r.cancelPending = true → w.settleEnd n = w.removeRequest n .cancelled)
      ∧ (r.cancelPending = false → r.repeatsLeft = some 0 → r.incomplete = true →
          w.settleEnd n = w.removeRequest n .incomplete)
      ∧ (r.cancelPending = false → r.repeatsLeft = some 0 → r.incomplete = false → w.settleEnd n = w.removeRequest n .done)
      ∧ (r.cancelPending = false → r.repeatsLeft ≠ some 0 → EndsAlso w r o →
        (∀ k, o = some k → w.settleEnd n = w.removeRequest n k)
        ∧ ∀ g again, o = none → r.gap = some g → again = timeSum w.clock.time g → w.settleEnd n = w.modRequest n fun x =>
            { x with state := .pending, repeatsLeft := x.repeatsLeft.map (· - 1), notBefore := again,
                     expiry := expiryFrom again x.window }))
    ∧ (∀ a b, a + b ≤ 4294967295 → timeSum a b = a + b)
    ∧ ∀ a, expiryFrom a none = none ∧ expiryFrom a (some 0) = none ∧ ∀ n, 0 < n → expiryFrom a (some n) = some (timeSum a n)

/-- The settlement of a play that has lost every zone under RESTART (R93). -/
def Sys2Proof.Statements.LostPlaysSettled : Prop :=
  ∀ (w : Vol) (n : Nat) (r : Request) (o : Option ReqOutcome), w.request n = some r →
    (r.cancelPending = true → w.settleLost n = w.removeRequest n .cancelled)
    ∧ (r.cancelPending = false → EndsAlso w r o →
      (∀ k, o = some k → w.settleLost n = w.removeRequest n k)
      ∧ (o = none → w.settleLost n = w.modRequest n fun x =>
          { x with state := .ready, expiry := expiryFrom w.clock.time x.window }))

/-- What a one-second advance and a TIME request do to the queue: expiries first, then the PENDING requests whose not-before is
reached become READY, then the hand-out (R90, R91). That the expiries of one event are taken in queue order is the model's choice
(log entry 41), and so is one hand-out after all of this (log entry 12). -/
def Sys2Proof.Statements.QueueTimeTaken : Prop :=
  ∀ (w w1 : Vol) (nv : Nonvolatile),
    w1 = (w.queue.requests.filter w.expiredNow).foldl (fun v r => v.removeRequest r.number .expired) w →
    w.queueTime nv = ((w1.queue.requests.filter w1.readyNow).foldl
      (fun v r => v.modRequest r.number fun x => { x with state := .ready }) w1).handOut nv
    ∧ (∀ r, w.expiredNow r = true ↔ r.isPlaying = false ∧ ∃ e, r.expiry = some e ∧ e < w.clock.time)
    ∧ (∀ r, w.readyNow r = true ↔ r.state = .pending ∧ r.notBefore ≤ w.clock.time)
    ∧ ∀ r : Request, r.isPlaying = true ↔ ∃ v, r.state = .playing v

/-- Voice `v` acts on a report: it plays a template's request, and its claim is EXHAUSTED. Voice 7 in an evacuation keeps its claim
(R33, R105, R112, R115). -/
def Sys2Proof.Statements.Reported (w : Vol) (v : Nat) : Prop :=
  v < 8 ∧ (w.voice v).source = some .template
    ∧ ∃ c x, (w.voice v).claim = some c ∧ w.claim c = some x ∧ x.state = .exhausted

/-- `w'` is `w` after `n` voices have acted on the reports of their claims, each the lowest that has one when it acts, on the state
the one before it left and followed by a hand-out; in `w'` none has one left. -/
def Sys2Proof.Statements.ActsOnReports (nv : Nonvolatile) : Nat → Vol → Vol → Prop
  | 0, w, w' => (∀ v, ¬ Reported w v) ∧ w' = w
  | n + 1, w, w' => ∃ v, Reported w v ∧ (∀ u < v, ¬ Reported w u)
      ∧ ActsOnReports nv n ((w.voiceExhausted v).handOut nv) w'

/-- What a voice does on the report: it is released, and its request ends NO_ZONES where the voice was CUEING; else RESTART hands
it to the settlement of a lost play, and ABANDON ends it PREEMPTED, or CANCELLED where it was cancel pending (R93, R95, R105,
R112). -/
def Sys2Proof.Statements.ReportTaken : Prop :=
  ∀ (w : Vol) (v n : Nat) (r : Request), (w.voice v).request = some n → w.request n = some r →
    ((w.voice v).state = .cueing → w.voiceExhausted v = (w.releaseVoice v).removeRequest n .noZones)
    ∧ ((w.voice v).state ≠ .cueing → r.resume = .restart → w.voiceExhausted v = (w.releaseVoice v).settleLost n)
    ∧ ((w.voice v).state ≠ .cueing → r.resume = .abandon → r.cancelPending = false →
        w.voiceExhausted v = (w.releaseVoice v).removeRequest n .preempted)
    ∧ ((w.voice v).state ≠ .cueing → r.resume = .abandon → r.cancelPending = true →
        w.voiceExhausted v = (w.releaseVoice v).removeRequest n .cancelled)

/-- The end of an event, which every command's event comes to (`State.EndsAs`): the voices act on the reports of their EXHAUSTED
claims, the read path looks again and the alert is evaluated (R33, R122, R182). That the lowest voice acts first, each followed by
a hand-out, is the model's choice (log entry 12). Each report ends a play, so more passes than `settle` makes cannot come. -/
def Sys2Proof.Statements.EventEnded : Prop :=
  (∀ (w w' : Vol) (nv : Nonvolatile) (n : Nat), n ≤ 2 * w.queue.requests.length + 1 → ActsOnReports nv n w w' →
      w.settle nv = w')
    ∧ ∀ s : State, s.finish = { s with vol := ((s.vol.settle s.nv).pump s.nv).evalAlert s.nv }

/-- The queue at work: ANNOUNCE CANCEL, withdrawals, the station time, the hand-out of voices, the settlement of plays, and what the
end of an event does about EXHAUSTED claims (R33, R90 to R93, R95, R96, R105, R112, R115). -/
def Obligations.QueueEvents : Prop :=
  AnnounceCancelled ∧ QueueTimes ∧ QueueTimeTaken ∧ Withdrawn ∧ HandOut ∧ PlaysSettled ∧ LostPlaysSettled ∧ ReportTaken
    ∧ EventEnded

/-! ### Live sources and the mixer -/

/-- LIVE START opens a CLOSED lane and places a JOIN claim at its group and priority (R35, R36). -/
def Sys2Proof.Statements.LiveStarted : Prop :=
  ∀ (h : RequestHeader) (l : LiveStart) (s : State) (place : Nat), s.Reaches (.liveStart h l) h place →
    (32 ≤ l.lane ∨ 32 ≤ l.group ∨ 600 < l.limit ∨ 13 < l.priority → Declines (.liveStart h l) s h 16 place .badArg)
    ∧ (l.lane < 32 → l.group < 32 → l.limit ≤ 600 → l.priority ≤ 13 →
        ((s.vol.source l.lane).isSome = true → Declines (.liveStart h l) s h 16 place .busy)
        ∧ (s.vol.source l.lane = none → s.vol.group l.group = [] → Declines (.liveStart h l) s h 16 place .badArg)
        ∧ (∀ c, s.vol.source l.lane = none → s.vol.group l.group ≠ [] → s.vol.freeClaim = some c →
          Answers (.liveStart h l) s
            { s with vol := (s.vol.placeClaim (.live l.lane) l.group l.priority .join).2.setSource l.lane (some
              { opener := .request, group := l.group, priority := l.priority, limit := l.limit, talkTime := 0,
                absence := 0, absenceReported := false, claim := c }) } h 16 place .ok))

/-- LIVE START with the evacuation flag opens the evacuation source on the resident lane for group 31 at priority 15, and
closes another opener's source there (R36, R158). -/
def Sys2Proof.Statements.LiveEvacStarted : Prop :=
  ∀ (h : RequestHeader) (l : LiveStart) (s : State) (place : Nat), s.Reaches (.liveStartEvac h l) h place →
    (32 ≤ l.lane ∨ 32 ≤ l.group ∨ 600 < l.limit → Declines (.liveStartEvac h l) s h 16 place .badArg)
    ∧ (l.lane < 32 → l.group < 32 → l.limit ≤ 600 → s.vol.evac.state = .normal ∨ s.vol.evac.lane = none →
      Declines (.liveStartEvac h l) s h 16 place .wrongState)
    ∧ (∀ lane, l.lane < 32 → l.group < 32 → l.limit ≤ 600 → s.vol.evac.state ≠ .normal → s.vol.evac.lane = some lane →
        (s.vol.evacSourceOpen = true → Declines (.liveStartEvac h l) s h 16 place .busy)
        ∧ (s.vol.evacSourceOpen = false → s.vol.group 31 = [] → Declines (.liveStartEvac h l) s h 16 place .badArg)
        ∧ (∀ c, s.vol.evacSourceOpen = false → s.vol.group 31 ≠ [] →
          (s.vol.closeSource lane .stopped).freeClaim = some c →
          Answers (.liveStartEvac h l) s
            { s with vol := ((s.vol.closeSource lane .stopped).placeClaim (.live lane) 31 15 .join).2.setSource lane (some
              { opener := .evacuation none, group := 31, priority := 15, limit := 0, talkTime := 0, absence := 0,
                absenceReported := false, claim := c }) } h 16 place .ok))

/-- LIVE START (R36). -/
def Obligations.LiveOpened : Prop := LiveStarted ∧ LiveEvacStarted

/-- LIVE STOP closes an OPEN source with cause STOPPED: its claim is released and LIVE END is sent (R35, R38). -/
def Sys2Proof.Statements.LiveStopped : Prop :=
  ∀ (h : RequestHeader) (lane : Nat) (s : State) (place : Nat), s.Reaches (.liveStop h lane) h place →
    (32 ≤ lane → Declines (.liveStop h lane) s h 17 place .badArg)
    ∧ (lane < 32 → s.vol.source lane = none → Declines (.liveStop h lane) s h 17 place .notFound)
    ∧ (∀ x, lane < 32 → s.vol.source lane = some x →
        Answers (.liveStop h lane) s
          { s with vol := ((s.vol.releaseClaim x.claim).setSource lane none).notify (.liveEnd lane x.opener .stopped) }
          h 17 place .ok)

/-- At a block mark an OPEN source whose talk time comes to its limit closes with cause TALK_LIMIT, and one whose lane has
been absent for two seconds is reported (R38, R39); the flag read is that of the frame given out at the mark's frame
(R166), read ahead of it where the command comes before the mark, the model's choice (log entry 6). -/
def Sys2Proof.Statements.LiveMarks : Prop :=
  ∀ (lane : Fin 32) (x : LiveSource) (s : State), s.vol.source lane = some x →
    (s.AtMark (.talk lane) → x.limit ≠ 0 → x.limit * 1000 ≤ x.talkTime + 1 →
      Happens (.talkLimit lane) s
        { s with vol := (((s.vol.setSource lane (some { x with talkTime := x.talkTime + 1 })).closeSource lane
            .talkLimit)).markTaken (.talk lane) })
    ∧ (s.AtMark (.absence lane) → s.vol.laneComing lane = false → 2000 ≤ x.absence + 1 → x.absenceReported = false →
      Happens (.laneAbsent lane) s
        { s with vol := ((s.vol.setSource lane (some { x with absence := 2000, absenceReported := true })).notify
            (.laneAbsent lane)).markTaken (.absence lane) })

/-- The closing of a source: its claim is released, its record is CLOSED, and LIVE END carries lane, opener and cause; on a CLOSED
lane nothing happens. A closing of several takes them in lane order (R35, R38). -/
def Sys2Proof.Statements.SourceCloses : Prop :=
  ∀ (w : Vol) (lane : Nat) (cause : LiveCause),
    (w.source lane = none → w.closeSource lane cause = w)
    ∧ (∀ x, w.source lane = some x → w.closeSource lane cause =
        ((w.releaseClaim x.claim).setSource lane none).notify (.liveEnd lane x.opener cause))
    ∧ w.closeSources (fun _ => true) cause = (List.range 32).foldl (fun v l => v.closeSource l cause) w

/-- LIVE STOP, the talk limit, the closing of a source and the report of an absent lane (R35, R38, R39). -/
def Obligations.LiveEnds : Prop := LiveStopped ∧ LiveMarks ∧ SourceCloses

/-- GAIN SET stages the bases it carries for the zones it names, together, or is refused and stages nothing (R45). -/
def Obligations.GainStaged : Prop :=
  ∀ (h : RequestHeader) (es : List GainEntry) (s : State) (place : Nat), s.Reaches (.gainSet h es) h place →
    (GainPasses es → ∃ gains : Vector Gain 64,
      Answers (.gainSet h es) s { s with vol := { s.vol with gains := gains } } h 18 place .ok
        ∧ (∀ e ∈ es, tget .initial gains e.zone =
            { s.vol.gain e.zone with
              stagedFg := if e.fg.isSome = true then e.fg else (s.vol.gain e.zone).stagedFg
              stagedBg := if e.bg.isSome = true then e.bg else (s.vol.gain e.zone).stagedBg })
        ∧ (∀ z, (∀ e ∈ es, e.zone ≠ z) → tget .initial gains z = s.vol.gain z))
    ∧ (¬ GainPasses es → Declines (.gainSet h es) s h 18 place .badArg)

/-- MONITOR SELECT sets the selection (R52). -/
def Sys2Proof.Statements.MonitorTaken : Prop :=
  ∀ (h : RequestHeader) (z : Option Nat) (s : State) (place : Nat), s.Reaches (.monitorSelect h z) h place →
    ((∀ x, z = some x → x < 64) →
      Answers (.monitorSelect h z) s { s with vol := { s.vol with monitor := z } } h 19 place .ok)
    ∧ (∀ x, z = some x → 64 ≤ x → Declines (.monitorSelect h z) s h 19 place .badArg)

/-- Every frame carries in its monitor slot the selected zone's mixed output, the same value that the zone's downstream slot
carries, and silence while the selection is none (R52). -/
def Sys2Proof.Statements.MonitorCarried : Prop :=
  ∀ (x : FrameInput) (s : State), s.running = true → ∃ t, exec (.frameClockFrame x) s = .next t
    ∧ t.vol.monitor = s.vol.monitor
    ∧ (s.vol.monitor = none → t.vol.sent.up.monitor = 0)
    ∧ (∀ z, s.vol.monitor = some z → t.vol.sent.up.monitor = BitVec.ofInt 24 (t.vol.sent.mixed.getD z 0))
    ∧ (∀ z p q, s.vol.monitor = some z → z < 64 → p < 4 → q < 16 → (t.vol.zone z).placement = some (p, q) →
        (∀ y < z, (t.vol.zone y).placement ≠ some (p, q)) →
        (tget DownFrame.zero t.vol.sent.down p).slots.getD q 0 = t.vol.sent.up.monitor)

/-- R52. MONITOR SELECT sets the selection, and the monitor slot carries that zone's mixed output. -/
def Obligations.MonitorSelected : Prop := MonitorTaken ∧ MonitorCarried

/-- R40. A sample at attenuation a of 0 to 191 is its product with 10 to the power -a/40, rounded to the nearest whole value
with halves away from zero; at 192 it is 0. -/
def Sys2Proof.Statements.SamplesAttenuated : Prop :=
  ∀ (x : Int) (a : Nat), x.natAbs < 2 ^ 23 + 1 →
    (a ≤ 191 → ∃ n : Nat, attenuate x a = x.sign * n
        ∧ (n : ℝ) ≤ (x.natAbs : ℝ) * (10 : ℝ) ^ (-(a : ℝ) / 40) + 1 / 2
        ∧ (x.natAbs : ℝ) * (10 : ℝ) ^ (-(a : ℝ) / 40) + 1 / 2 < n + 1)
    ∧ (192 ≤ a → attenuate x a = 0)

/-- `v` is `peak` times the sine of so many turns, rounded to the nearest whole value; at a tie, or as near to one as `slack`, to
either. -/
def Sys2Proof.Statements.SineRounded (peak turns slack : ℝ) (v : Int) : Prop :=
  |(v : ℝ) - peak * Real.sin (2 * Real.pi * turns)| ≤ 1 / 2 + slack

/-- The four tones, 48,000 positions to the second: chime 784 Hz, then 622 Hz, then silence, by the second; alert 1,000 Hz and
silence by the half second; whoop a sweep from 500 Hz to 1,200 Hz by the second, its turns the integral of the frequency; test
1,000 Hz. Each note and sweep begins at phase 0, and each value is the sine times the peak, rounded to the nearest whole value
(R111). The statement leaves a slack of 2 to the power -30 to the notes of many values; the tie of the test tone is a free value (log
entry 13). -/
def Sys2Proof.Statements.TonesRounded : Prop :=
  (∀ f : Nat, toneValue 0 (f + 48000) = toneValue 0 f ∧ toneValue 1 (f + 24000) = toneValue 1 f
      ∧ toneValue 2 (f + 48000) = toneValue 2 f ∧ toneValue 3 (f + 48) = toneValue 3 f)
    ∧ (∀ n : Nat, n < 19200 → SineRounded 4194304 (784 * (n : ℝ) / 48000) (1 / 2 ^ 30) (toneValue 0 n)
        ∧ SineRounded 4194304 (622 * (n : ℝ) / 48000) (1 / 2 ^ 30) (toneValue 0 (19200 + n)))
    ∧ (∀ n : Nat, n < 9600 → toneValue 0 (38400 + n) = 0)
    ∧ (∀ n : Nat, n < 12000 → SineRounded 4194304 (1000 * (n : ℝ) / 48000) 0 (toneValue 1 n)
        ∧ toneValue 1 (12000 + n) = 0)
    ∧ (∀ n : Nat, n < 48000 →
        SineRounded 4194304 (500 * ((n : ℝ) / 48000) + 350 * ((n : ℝ) / 48000) ^ 2) (1 / 2 ^ 30) (toneValue 2 n))
    ∧ ∀ n : Nat, n < 48 → SineRounded 838861 (1000 * (n : ℝ) / 48000) 0 (toneValue 3 n)

/-- Attenuated samples and the four tones are rounded to the nearest whole value (R40, R111). -/
def Obligations.AttenuationRounds : Prop := SamplesAttenuated ∧ TonesRounded

/-- The frame that carries a block mark: the staged bases become active, then each level takes its step toward the target
computed from them, or the holder cut, and the cut pending flag is cleared, to be set again only by a new holder that the end of the
event makes (R46 to R48). `w` is the part as the block mark hands it to the mixer's step: what is due
before the frame is taken, the alignment buffer has given out its frame, the parts of the mark before it are taken, and every
staged base is active. `t` differs from it in no zone field but holders and wait lists, and in those not either unless the event
ends with an EXHAUSTED report. -/
def Sys2Proof.Statements.MarkMovesLevels : Prop :=
  ∀ (x : FrameInput) (s b : State) (w : Vol), s.running = true → s.vol.atMark = true → b = beforeFrame s x.verdict →
    w = b.vol.giveLanes.atLevels b.nv x.levels →
    w = (List.range 64).foldl Vol.applyStaged (b.vol.giveLanes.markParts b.nv x.levels) ∧ ∃ t : State,
    exec (.frameClockFrame x) s = .next t
    ∧ (∀ z < 64, (w.zone z).fixed = (t.vol.zone z).fixed) ∧ w.align = t.vol.align ∧ w.groups = t.vol.groups
    ∧ w.evac.state = t.vol.evac.state
    ∧ (w.exhaustedVoice = none → w.claims = t.vol.claims ∧ ∀ z < 64, (w.zone z).holder = (t.vol.zone z).holder)
    ∧ ∀ z < 64,
      (w.zone z).fgBase = (s.vol.gain z).stagedFg.getD (s.vol.zone z).fgBase
      ∧ (w.zone z).bgBase = (s.vol.gain z).stagedBg.getD (s.vol.zone z).bgBase
      ∧ (t.vol.gain z).stagedFg = none ∧ (t.vol.gain z).stagedBg = none
      ∧ (t.vol.gain z).fgTarget = w.fgTarget z ∧ (t.vol.gain z).bgTarget = w.bgTarget z
      ∧ (t.vol.gain z).bgLevel = ramp s.vol.rampRate (s.vol.gain z).bgLevel (w.bgTarget z)
      ∧ ((s.vol.gain z).cut = true → (w.gain z).cut = true)
      ∧ ((w.gain z).cut = true → (w.zone z).holder.isSome = true → (t.vol.gain z).fgLevel = 192)
      ∧ ((w.gain z).cut = false ∨ (w.zone z).holder = none →
          (t.vol.gain z).fgLevel = ramp s.vol.rampRate (s.vol.gain z).fgLevel (w.fgTarget z))
      ∧ (w.exhaustedVoice = none → (t.vol.gain z).cut = false)

/-- A frame that carries no block mark leaves every level, target and staged base as it was (R46, R47). -/
def Sys2Proof.Statements.LevelsStandBetweenMarks : Prop :=
  ∀ (x : FrameInput) (s : State), s.running = true → s.vol.atMark = false → ∃ t, exec (.frameClockFrame x) s = .next t
    ∧ ∀ z < 64, (t.vol.gain z).fixed = (s.vol.gain z).fixed

/-- The targets of a zone (R41 to R43). -/
def Sys2Proof.Statements.TargetsComputed : Prop :=
  ∀ (w : Vol) (z : Nat),
    ((w.zone z).holder = none → w.fgTarget z = 192)
    ∧ (∀ h c, (w.zone z).holder = some h → w.claim h = some c →
        w.fgTarget z = min 191 ((if 14 ≤ c.priority then (w.zone z).evacBase else (w.zone z).fgBase)
          + (if (w.zone z).health = .derated then 24 else 0) - (w.zone z).compensation))
    ∧ ((w.zone z).compOn = false ∨ (w.zone z).ambient = none → (w.zone z).compensation = 0)
    ∧ (∀ d, (w.zone z).compOn = true → (w.zone z).ambient = some d →
        (w.zone z).compensation = min (d - (w.zone z).compRef) (w.zone z).compLimit)
    ∧ ((w.zone z).bgLane = none ∨ (∃ l, (w.zone z).bgLane = some l ∧ w.align.out.presence.getLsbD l = false)
          ∨ (w.zone z).state = .off ∨ (z ∈ w.group 31 ∧ w.evac.state ≠ .normal) → w.bgTarget z = 192)
    ∧ (∀ l, (w.zone z).bgLane = some l → w.align.out.presence.getLsbD l = true → (w.zone z).state ≠ .off →
        z ∉ w.group 31 ∨ w.evac.state = .normal →
        w.bgTarget z = min 191 ((w.zone z).bgBase + (if (w.zone z).state = .held then (w.zone z).duck else 0)
          + (if (w.zone z).health = .derated then 24 else 0)))

/-- One step of a level: at most the ramp rate, toward the target and never past it (R47). -/
def Sys2Proof.Statements.RampSteps : Prop :=
  ∀ rate level target, ramp rate level target ≤ level + rate ∧ level ≤ ramp rate level target + rate
    ∧ (level ≤ target → level ≤ ramp rate level target ∧ ramp rate level target ≤ target)
    ∧ (target ≤ level → target ≤ ramp rate level target ∧ ramp rate level target ≤ level)
    ∧ (level ≤ target + rate → target ≤ level + rate → ramp rate level target = target)
    ∧ (level + rate < target → ramp rate level target = level + rate)
    ∧ (target + rate < level → ramp rate level target = level - rate)

/-- At a block mark the staged bases become active and every level moves toward its target by at most the ramp rate and never
past it, but for the holder cut, which mutes the foreground; between block marks the levels stand (R41 to R43, R46 to
R48). -/
def Obligations.LevelsRamp : Prop := MarkMovesLevels ∧ LevelsStandBetweenMarks ∧ TargetsComputed ∧ RampSteps

/-! ### Evacuation -/

/-- R151. The three evacuation requests act by the evacuation state; a line holds while an EVAC_ALERT or EVAC_FULL line is
debounced ACTIVE. -/
def Sys2Proof.Statements.EvacRequested : Prop :=
  (∀ (h : RequestHeader) (s : State) (place : Nat), s.Reaches (.evacStart h) h place →
      (s.vol.evac.state = .normal →
        Answers (.evacStart h) s { s with vol := s.vol.enterAlert s.nv .start } h 20 place .ok)
      ∧ (s.vol.evac.state ≠ .normal → Answers (.evacStart h) s s h 20 place .ok))
    ∧ (∀ (h : RequestHeader) (s : State) (place : Nat), s.Reaches (.evacEscalate h) h place →
      (s.vol.evac.state ≠ .evacuate →
        Answers (.evacEscalate h) s { s with vol := s.vol.enterEvacuate s.nv .escalate } h 21 place .ok)
      ∧ (s.vol.evac.state = .evacuate → Answers (.evacEscalate h) s s h 21 place .ok))
    ∧ (∀ (h : RequestHeader) (s : State) (place : Nat), s.Reaches (.evacStop h) h place →
      (s.vol.evac.state = .normal ∨ s.vol.lineHolds = true → Declines (.evacStop h) s h 22 place .wrongState)
      ∧ (s.vol.evac.state ≠ .normal → s.vol.lineHolds = false →
        Answers (.evacStop h) s { s with vol := s.vol.returnNormal s.nv .stop } h 22 place .ok))
    ∧ (∀ w : Vol, w.lineHolds = true ↔ ∃ l < 16, ((w.line l).fn = .evac .alert ∨ (w.line l).fn = .evac .full)
        ∧ (w.line l).debounced = some true)
    ∧ (∀ (w : Vol) (nv : Nonvolatile) (c : EvacCause),
        (w.enterAlert nv c).evac.state = (if w.evac.duration = 0 then .evacuate else .alert)
          ∧ (w.evac.duration ≠ 0 → (w.enterAlert nv c).evac.timer = 0)
          ∧ (w.enterEvacuate nv c).evac.state = .evacuate
          ∧ (w.returnNormal nv c).evac.state = .normal ∧ (w.returnNormal nv c).evac.request = none
          ∧ (w.returnNormal nv c).evac.list = none)

/-- `w` in the evacuation state `next`, with the EVAC STATE notice of the change (R150). -/
def Sys2Proof.Statements.stageChanged (w : Vol) (next : EvacState) (cause : EvacCause) : Vol :=
  ({ w with evac := { w.evac with state := next } }).notify (.evacState w.evac.state next cause)

/-- The creation of the evacuation request: the list in force is that of the stage, or the stand-in while the store is STARTING;
the request is created with priority 14, for group 31, JOIN and RESTART; the controller holds it unless it has ended within its
creation (R85, R98, R153, R156). -/
def Sys2Proof.Statements.EvacRequestMade : Prop :=
  ∀ (w w1 w2 : Vol) (nv : Nonvolatile) (l : EvacList) (made : Option Nat),
    ((∃ n, w.store.op = .starting n) → l = .standIn) →
    ((∀ n, w.store.op ≠ .starting n) → l = if w.evac.state = .evacuate then .evacuate else .alert) →
    w1 = { w with evac := { w.evac with list := some l } } →
    w1.createRequest nv
        { number := 0, origin := .evac, call := none, platform := none, template := none, override := some 31,
          values := none, priority := 14, mode := .join, resume := .restart, gap := none, window := none,
          repeatsLeft := none, notBefore := w.clock.time, expiry := none, state := .pending, stamp := 0,
          incomplete := false, finish := none, cancelPending := false } = (made, w2) →
    (∀ n r, made = some n → w2.request n = some r →
        w.makeEvacRequest nv = { w2 with evac := { w2.evac with request := some n } })
    ∧ (made = none ∨ (∃ n, made = some n ∧ w2.request n = none) → w.makeEvacRequest nv = w2)

/-- On entering EVACUATE every request of priority below 12 that is not PLAYING is removed with SUPPRESSED, in queue order, and the
hand-out runs (R98, R155), once after them all: the model's choice (log entry 12). -/
def Sys2Proof.Statements.LowSuppressed : Prop :=
  ∀ (w : Vol) (nv : Nonvolatile),
    w.suppressLow nv = ((w.queue.requests.filter fun r => decide (r.priority < 12) && !r.isPlaying).foldl
      (fun v r => v.removeRequest r.number .suppressed) w).handOut nv

/-- The stages are entered with their notice: ALERT sets the timer to 0 and makes the evacuation request, or with alert duration 0
is EVACUATE; EVACUATE suppresses the low requests and, from NORMAL, makes the evacuation request or, from ALERT, gives voice 7 the
evacuation list as a change, unless the stand-in is in force or there is no request (R150, R153, R155). -/
def Sys2Proof.Statements.StagesEntered : Prop :=
  (∀ (w : Vol) (nv : Nonvolatile) (c : EvacCause),
      (w.evac.duration = 0 → w.enterAlert nv c = w.enterEvacuate nv c)
      ∧ (w.evac.duration ≠ 0 → w.enterAlert nv c =
          (stageChanged { w with evac := { w.evac with timer := 0 } } .alert c).makeEvacRequest nv))
    ∧ ∀ (w w1 : Vol) (nv : Nonvolatile) (c : EvacCause), w1 = (stageChanged w .evacuate c).suppressLow nv →
      (w.evac.state = .normal → w.enterEvacuate nv c = w1.makeEvacRequest nv)
      ∧ (w.evac.state ≠ .normal → w1.evac.request = none ∨ w1.evac.list = some .standIn → w.enterEvacuate nv c = w1)
      ∧ (∀ n, w.evac.state ≠ .normal → w1.evac.request = some n → w1.evac.list ≠ some .standIn →
          (c = .start ∨ c = .escalate ∨ c = .stop → StageListGiven w1 false (w.enterEvacuate nv c))
          ∧ (c ≠ .start → c ≠ .escalate → c ≠ .stop → StageListGiven w1 true (w.enterEvacuate nv c)))

/-- The return to NORMAL: the notice, the removal of the evacuation request with CANCELLED, which releases voice 7, no request and no
list in force, the evacuation source closed with STOPPED, and the hand-out (R98, R150, R157). What a removal does stands in
`Announced`, what a closing does in `LiveEnds`. -/
def Sys2Proof.Statements.StageLeft : Prop :=
  ∀ (w w1 w2 w3 : Vol) (nv : Nonvolatile) (c : EvacCause), w1 = stageChanged w .normal c →
    (∀ n, w.evac.request = some n → w2 = w1.removeRequest n .cancelled) → (w.evac.request = none → w2 = w1) →
    w3 = { w2 with evac := { w2.evac with request := none, list := none } } →
    (∀ l x k, w3.evac.lane = some l → w3.source l = some x → x.opener = .evacuation k →
      w.returnNormal nv c = (w3.closeSource l .stopped).handOut nv)
    ∧ ((∀ l x k, w3.evac.lane = some l → w3.source l = some x → x.opener ≠ .evacuation k) →
      w.returnNormal nv c = w3.handOut nv)

/-- The evacuation requests, and what the entry into each stage and the return to NORMAL do (R85, R98, R150, R151, R153, R155 to
R157). -/
def Obligations.EvacRequests : Prop := EvacRequested ∧ EvacRequestMade ∧ LowSuppressed ∧ StagesEntered ∧ StageLeft

/-- Voice 7 takes a new list: its demand is withdrawn, the use counts of the old list are given back and those of the new one raised,
its buffer is emptied, and it stands at the first frame of the new list with its claim and request kept; CUEING stays CUEING, PLAYING
and STALLED go on, and where the new list begins with a CLIP the next frame finds no page, so the voice is STALLED and the stall is
counted. A clip left out sets the request's incomplete flag (R115, R116). -/
def Sys2Proof.Statements.ListTaken : Prop :=
  ∀ (w w1 : Vol) (nv : Nonvolatile) (x : Voice) (items : List ListItem) (fs : List Fragment) (incomplete : Bool),
    x = w.voice 7 → x.state ≠ .idle → x.newList = some items → (fs, incomplete) = expandEvac nv items →
    (∀ n, incomplete = true → x.request = some n → w1 = w.modRequest n fun r => { r with incomplete := true }) →
    (incomplete = false ∨ x.request = none → w1 = w) →
    w.takeList nv 7 = ((((w1.withdrawDemand 7).lowerUses x.frags).raiseUses fs).setVoice 7
      { x with state := if x.state = .cueing then .cueing else .playing, frags := fs, cur := 0, pos := 0, buffer := []
               demand := none, nextRead := 0, finished := false, newList := none, newListWaits := false }).makeDemand 7
    ∧ ∀ (c n : Nat) (rest : List Fragment) (y : Voice), x.state ≠ .cueing → fs = .clip c n :: rest →
        y = (w.takeList nv 7).voice 7 →
        (w.takeList nv 7).voiceFrame nv 7 =
          (0, (w.takeList nv 7).setVoice 7 { y with state := .stalled, stalls := min 255 (x.stalls + 1) })

/-- In ALERT the timer's expiry enters EVACUATE with cause TIMER; a list given to voice 7 is taken at the next block mark, from
its first fragment, and so one given at a block mark is not taken at that mark; the whoop tone stands in for a list without
a VALID clip; after its last frame the list begins again in the next frame, with its read order (R115, R116, R154 to
R156). What the taking of a list does to voice, use counts and demand stands in `ListTaken`. -/
def Obligations.EvacMarks : Prop :=
  (∀ s : State, s.AtMark .alert → s.vol.evac.state = .alert → s.vol.evac.duration * 1000 ≤ s.vol.evac.timer + 1 →
      Happens .alertTimerExpiry s
        { s with vol := (({ s.vol with evac := { s.vol.evac with timer := s.vol.evac.timer + 1 } }).enterEvacuate s.nv
            .timer).markTaken .alert })
    ∧ (∀ (s : State) (items : List ListItem), s.AtMark .list → (s.vol.voice 7).state ≠ .idle →
      (s.vol.voice 7).newList = some items → (s.vol.voice 7).newListWaits = false →
      Happens .evacListChange s { s with vol := (s.vol.takeList s.nv 7).markTaken .list }
        ∧ ((s.vol.takeList s.nv 7).voice 7).frags = (expandEvac s.nv items).1
        ∧ ((s.vol.takeList s.nv 7).voice 7).cur = 0 ∧ ((s.vol.takeList s.nv 7).voice 7).pos = 0
        ∧ ((s.vol.takeList s.nv 7).voice 7).buffer = [] ∧ ((s.vol.takeList s.nv 7).voice 7).newList = none
        ∧ ((s.vol.takeList s.nv 7).voice 7).claim = (s.vol.voice 7).claim)
    ∧ (∀ (nv : Nonvolatile) (items : List ListItem), (∀ c, .clip c ∈ items → (nv.clip c).state ≠ .valid) →
        (expandEvac nv items).1 = [.tone 2 100])
    ∧ (∀ s : State, (s.vol.voice 7).newListWaits = true → exec .evacListChange s = .next s)
    ∧ (∀ (w w1 : Vol) (nv : Nonvolatile) (c : EvacCause), w.evac.state = .alert →
        w1 = (w.setEvac .evacuate c).suppressLow nv → w1.evac.request.isSome = true → w1.evac.list ≠ some .standIn →
        w1.storeStarting = false →
        ((w.enterEvacuate nv c).voice 7).newList = some w.evac.evacList
          ∧ (((w.enterEvacuate nv c).voice 7).newListWaits = true ↔ c ≠ .start ∧ c ≠ .escalate ∧ c ≠ .stop))
    ∧ (∀ (w : Vol) (nv : Nonvolatile) (x : Voice), x = w.voice 7 → x.state = .playing → x.source = some .evacuation →
        x.finished = true →
        w.voiceFrame nv 7 =
          ((w.setVoice 7 { x with cur := 0, pos := 0, nextRead := 0, finished := false }).makeDemand 7).playFrame nv 7)
    ∧ ListTaken

/-! ### The clip store -/

/-- CLIP OPEN: ABSENT, unguarded, a run found; the entry becomes WRITING and the fill point moves past the run (R125,
R126). -/
def Sys2Proof.Statements.ClipOpened : Prop :=
  ∀ (h : RequestHeader) (c n : Nat) (bank : ClipBank) (s : State) (place : Nat), s.Reaches (.clipOpen h c bank n) h place →
    (1024 ≤ c ∨ n < 1 ∨ 256 < n → Declines (.clipOpen h c bank n) s h 23 place .badArg)
    ∧ (c < 1024 → 1 ≤ n → n ≤ 256 → s.StoreFree →
        ((s.nv.clip c).state ≠ .absent → StoreDeclines (.clipOpen h c bank n) s h 23 place .wrongState)
        ∧ ((s.nv.clip c).state = .absent → bank = .r → s.vol.mode = .normal ∨ s.nv.g1 = true ∨ s.nv.g2 = true →
          StoreDeclines (.clipOpen h c bank n) s h 23 place .guarded)
        ∧ ((s.nv.clip c).state = .absent → s.bankOpen bank = true →
          (s.nv.allocate bank (s.vol.fill bank) n = none → StoreDeclines (.clipOpen h c bank n) s h 23 place .noRoom)
          ∧ (∀ p, s.nv.allocate bank (s.vol.fill bank) n = some p →
            Answers (.clipOpen h c bank n) s
                { s with
                  nv := s.nv.setClip c { state := .writing, run := some (bank, p, n), written := 0, length := none }
                  vol := s.vol.clearArms.setFill bank (if p + n < bankPages bank then p + n else 0) }
                h 23 place .ok (.firstPage p)
              ∧ p + n ≤ bankPages bank
              ∧ (s.vol.fill bank + n ≤ bankPages bank → s.nv.fits bank n (s.vol.fill bank) = true → p = s.vol.fill bank)
              ∧ ∀ i < n, s.nv.page bank (p + i) = .erased
                  ∧ ∀ x, (s.nv.clip x).state = .writing → (s.nv.clip x).meets bank (p + i) 1 = false)))

/-- PAGE WRITE: WRITING, unguarded, the next page, ERASED; then the store is PROGRAMMING under the operation mark (R127). That a page
past the run's last is answered WRONG_STATE is the model's choice (log entry 26). -/
def Sys2Proof.Statements.PageWritten : Prop :=
  ∀ (h : RequestHeader) (c i : Nat) (data : List Byte) (s : State) (place : Nat),
    s.Reaches (.pageWrite h c i data) h place → c < 1024 → s.StoreFree →
    ((s.nv.clip c).state ≠ .writing → StoreDeclines (.pageWrite h c i data) s h 24 place .wrongState)
    ∧ (∀ bank first n, (s.nv.clip c).state = .writing → (s.nv.clip c).run = some (bank, first, n) →
        (bank = .r → s.vol.mode = .normal ∨ s.nv.g1 = true ∨ s.nv.g2 = true →
          StoreDeclines (.pageWrite h c i data) s h 24 place .guarded)
        ∧ (s.bankOpen bank = true → i ≠ (s.nv.clip c).written →
          StoreDeclines (.pageWrite h c i data) s h 24 place .badArg)
        ∧ (s.bankOpen bank = true → i = (s.nv.clip c).written → n ≤ i ∨ s.nv.page bank (first + i) ≠ .erased →
          StoreDeclines (.pageWrite h c i data) s h 24 place .wrongState)
        ∧ (s.bankOpen bank = true → i = (s.nv.clip c).written → i < n → s.nv.page bank (first + i) = .erased →
          Answers (.pageWrite h c i data) s
            { s with
              nv := { s.nv with opMark := .page bank (first + i) }
              vol := s.vol.clearArms.setOp (.programming c bank (first + i) data 0) } h 24 place .accepted))

/-- CLIP SEAL: WRITING with every page written, a length that fits, unguarded; then the store is VERIFYING (R128). -/
def Sys2Proof.Statements.ClipSealed : Prop :=
  ∀ (h : RequestHeader) (c length : Nat) (check : BitVec 32) (bank : ClipBank) (first n : Nat) (s : State) (place : Nat),
    s.Reaches (.clipSeal h c length check) h place → c < 1024 → s.StoreFree → (s.nv.clip c).run = some (bank, first, n) →
    ((s.nv.clip c).state ≠ .writing ∨ (s.nv.clip c).written ≠ n →
      StoreDeclines (.clipSeal h c length check) s h 25 place .wrongState)
    ∧ ((s.nv.clip c).state = .writing → (s.nv.clip c).written = n → n * 2048 < length →
      StoreDeclines (.clipSeal h c length check) s h 25 place .badArg)
    ∧ ((s.nv.clip c).state = .writing → (s.nv.clip c).written = n → length ≤ n * 2048 → s.bankOpen bank = false →
      StoreDeclines (.clipSeal h c length check) s h 25 place .guarded)
    ∧ ((s.nv.clip c).state = .writing → (s.nv.clip c).written = n → length ≤ n * 2048 → s.bankOpen bank = true →
      Answers (.clipSeal h c length check) s
        { s with vol := s.vol.clearArms.setOp (.verifying c length check 0 false) } h 25 place .accepted)

/-- The allocation finds no run exactly when every run of `n` pages within the bank has a page that is not ERASED or lies in
the run of a WRITING clip (R126). -/
def Sys2Proof.Statements.AllocationFails : Prop :=
  ∀ (nv : Nonvolatile) (bank : ClipBank) (fill n : Nat), 1 ≤ n →
    (nv.allocate bank fill n = none ↔ ∀ p, p + n ≤ bankPages bank → ∃ i < n,
      nv.page bank (p + i) ≠ .erased ∨ ∃ e ∈ nv.dir, e.2.state = .writing ∧ e.2.meets bank (p + i) 1 = true)

/-- The allocation takes the first start page at which all `n` pages are free, in two passes: from the fill point upward, and then,
when none fits there, from page 0 up to the fill point (R126). -/
def Sys2Proof.Statements.AllocationOrder : Prop :=
  ∀ (nv : Nonvolatile) (bank : ClipBank) (fill n : Nat), 1 ≤ n →
    (∀ p, nv.fits bank n p = true ↔ p + n ≤ bankPages bank ∧ ∀ i < n, nv.page bank (p + i) = .erased
      ∧ ∀ e ∈ nv.dir, e.2.state = .writing → e.2.meets bank (p + i) 1 = false)
    ∧ ∀ p, nv.allocate bank fill n = some p ↔ nv.fits bank n p = true
      ∧ ((fill ≤ p ∧ ∀ q, fill ≤ q → q < p → nv.fits bank n q = false)
        ∨ (p < fill ∧ (∀ q, fill ≤ q → nv.fits bank n q = false) ∧ ∀ q < p, nv.fits bank n q = false))

/-- The three requests that write a clip, and the order in which a run is sought (R125 to R128). -/
def Obligations.ClipWriting : Prop := ClipOpened ∧ AllocationOrder ∧ AllocationFails ∧ PageWritten ∧ ClipSealed

/-- The checks that the other store requests pass before their own rule: range, evacuation, STARTING, an operation in flight
(R120, R121). CLIP OPEN and CLIP RETIRE stand in `RetireAndGuards`, PROGRAM WRITE in `ProgramWritten`. SECTOR ERASE GO leaves the
erase arm clear whatever the reply, so also where its sector is out of range, which leaves the abort arm (R130). -/
def Sys2Proof.Statements.StoreChecks : Prop :=
  (∀ (h : RequestHeader) (c i : Nat) (data : List Byte) (s : State) (place : Nat), s.Reaches (.pageWrite h c i data) h place →
      (1024 ≤ c → Declines (.pageWrite h c i data) s h 24 place .badArg)
      ∧ (c < 1024 → s.vol.evac.state ≠ .normal → StoreDeclines (.pageWrite h c i data) s h 24 place .evacActive)
      ∧ (c < 1024 → s.vol.evac.state = .normal → s.vol.storeStarting = true ∨ s.vol.storeInFlight = true →
        StoreDeclines (.pageWrite h c i data) s h 24 place .busy))
    ∧ (∀ (h : RequestHeader) (c length : Nat) (check : BitVec 32) (s : State) (place : Nat),
      s.Reaches (.clipSeal h c length check) h place →
      (1024 ≤ c → Declines (.clipSeal h c length check) s h 25 place .badArg)
      ∧ (c < 1024 → s.vol.evac.state ≠ .normal → StoreDeclines (.clipSeal h c length check) s h 25 place .evacActive)
      ∧ (c < 1024 → s.vol.evac.state = .normal → s.vol.storeStarting = true ∨ s.vol.storeInFlight = true →
        StoreDeclines (.clipSeal h c length check) s h 25 place .busy))
    ∧ (∀ (h : RequestHeader) (c : Nat) (s : State) (place : Nat), s.Reaches (.clipRetire h c) h place → c < 1024 →
      (s.vol.evac.state ≠ .normal → StoreDeclines (.clipRetire h c) s h 26 place .evacActive)
      ∧ (s.vol.evac.state = .normal → s.vol.storeStarting = true → StoreDeclines (.clipRetire h c) s h 26 place .busy))
    ∧ (∀ (h : RequestHeader) (bank : ClipBank) (sector : Nat) (s : State) (place : Nat),
      s.Reaches (.sectorEraseArm h bank sector) h place → sector < bankSectors bank →
      (s.vol.evac.state ≠ .normal → StoreDeclines (.sectorEraseArm h bank sector) s h 27 place .evacActive)
      ∧ (s.vol.evac.state = .normal → s.vol.storeStarting = true →
        StoreDeclines (.sectorEraseArm h bank sector) s h 27 place .busy))
    ∧ (∀ (h : RequestHeader) (bank : ClipBank) (sector : Nat) (s : State) (place : Nat),
      s.Reaches (.sectorEraseGo h bank sector) h place →
      (bankSectors bank ≤ sector → Answers (.sectorEraseGo h bank sector) s
          { s with vol := { s.vol with store := { s.vol.store with eraseArm := none } } } h 28 place .badArg)
      ∧ (sector < bankSectors bank → s.vol.evac.state ≠ .normal →
        StoreDeclines (.sectorEraseGo h bank sector) s h 28 place .evacActive)
      ∧ (sector < bankSectors bank → s.vol.evac.state = .normal →
        s.vol.storeStarting = true ∨ s.vol.storeInFlight = true →
        StoreDeclines (.sectorEraseGo h bank sector) s h 28 place .busy))
    ∧ (∀ (h : RequestHeader) (s : State) (place : Nat), s.Reaches (.storeAbort h) h place → s.vol.storeStarting = true →
      StoreDeclines (.storeAbort h) s h 29 place .busy)
    ∧ (∀ (h : RequestHeader) (m : GuardMark) (s : State) (place : Nat), s.Reaches (.guardSet h m) h place →
      s.vol.storeStarting = true → StoreDeclines (.guardSet h m) s h 30 place .busy)
    ∧ (∀ (h : RequestHeader) (m : GuardMark) (s : State) (place : Nat), s.Reaches (.guardClear h m) h place →
      s.vol.evac.state = .normal → s.vol.storeStarting = true → StoreDeclines (.guardClear h m) s h 31 place .busy)

/-- CLIP RETIRE (R129), GUARD SET and GUARD CLEAR (R133), and the checks before the own rule of CLIP OPEN (R120, R121). -/
def Sys2Proof.Statements.RetireAndGuards : Prop :=
  (∀ (h : RequestHeader) (c n : Nat) (bank : ClipBank) (s : State) (place : Nat), s.Reaches (.clipOpen h c bank n) h place →
      c < 1024 → 1 ≤ n → n ≤ 256 →
      (s.vol.evac.state ≠ .normal → StoreDeclines (.clipOpen h c bank n) s h 23 place .evacActive)
      ∧ (s.vol.evac.state = .normal → s.vol.storeStarting = true ∨ s.vol.storeInFlight = true →
        StoreDeclines (.clipOpen h c bank n) s h 23 place .busy))
    ∧ (∀ (h : RequestHeader) (c : Nat) (s : State) (place : Nat), s.Reaches (.clipRetire h c) h place →
      (1024 ≤ c → Declines (.clipRetire h c) s h 26 place .badArg)
      ∧ (c < 1024 → s.vol.evac.state = .normal → s.vol.storeStarting = false →
        (s.vol.storeClip = some c → StoreDeclines (.clipRetire h c) s h 26 place .busy)
        ∧ (s.vol.storeClip ≠ some c →
          ((s.nv.clip c).state = .absent → StoreDeclines (.clipRetire h c) s h 26 place .notFound)
          ∧ ((s.nv.clip c).state = .retired → StoreDeclines (.clipRetire h c) s h 26 place .wrongState)
          ∧ ((s.nv.clip c).state = .writing ∨ (s.nv.clip c).state = .valid →
            (s.clipOpen c = false → StoreDeclines (.clipRetire h c) s h 26 place .guarded)
            ∧ (s.clipOpen c = true →
              Answers (.clipRetire h c) s
                { s with nv := s.nv.setClip c { s.nv.clip c with state := .retired }, vol := s.vol.clearArms }
                h 26 place .ok)))))
    ∧ (∀ (h : RequestHeader) (m : GuardMark) (s : State) (place : Nat), s.Reaches (.guardSet h m) h place →
      s.vol.storeStarting = false →
      Answers (.guardSet h m) s { s with nv := s.nv.setGuard m true, vol := s.vol.clearArms } h 30 place .ok)
    ∧ (∀ (h : RequestHeader) (m : GuardMark) (s : State) (place : Nat), s.Reaches (.guardClear h m) h place →
      (s.vol.evac.state ≠ .normal → StoreDeclines (.guardClear h m) s h 31 place .evacActive)
      ∧ (s.vol.evac.state = .normal → s.vol.storeStarting = false →
        (s.vol.mode = .normal → StoreDeclines (.guardClear h m) s h 31 place .guarded)
        ∧ (s.vol.mode = .maintenance →
          Answers (.guardClear h m) s { s with nv := s.nv.setGuard m false, vol := s.vol.clearArms } h 31 place .ok)))

/-- The checks that every store request passes before its own rule, PROGRAM WRITE apart (`ProgramWritten`); CLIP RETIRE, GUARD
SET and GUARD CLEAR (R120, R121, R129, R133). -/
def Obligations.ClipRetiredAndGuards : Prop := RetireAndGuards ∧ StoreChecks

/-- An erase is asked for in two consecutive requests: ARM sets the arm, GO takes it (R130). -/
def Sys2Proof.Statements.SectorErase : Prop :=
  (∀ (h : RequestHeader) (bank : ClipBank) (sector : Nat) (s : State) (place : Nat),
      s.Reaches (.sectorEraseArm h bank sector) h place →
      (bankSectors bank ≤ sector → Declines (.sectorEraseArm h bank sector) s h 27 place .badArg)
      ∧ (sector < bankSectors bank → s.vol.evac.state = .normal → s.vol.storeStarting = false →
        (s.bankOpen bank = false → StoreDeclines (.sectorEraseArm h bank sector) s h 27 place .guarded)
        ∧ (s.bankOpen bank = true →
          Answers (.sectorEraseArm h bank sector) s
            { s with vol := { s.vol with store := { s.vol.store with eraseArm := some (bank, sector), abortArm := false } } }
            h 27 place .ok)))
    ∧ (∀ (h : RequestHeader) (bank : ClipBank) (sector : Nat) (s : State) (place : Nat),
      s.Reaches (.sectorEraseGo h bank sector) h place → sector < bankSectors bank → s.StoreFree →
      (s.vol.store.eraseArm ≠ some (bank, sector) →
        StoreDeclines (.sectorEraseGo h bank sector) s h 28 place .wrongState)
      ∧ (s.vol.store.eraseArm = some (bank, sector) → s.bankOpen bank = false →
        StoreDeclines (.sectorEraseGo h bank sector) s h 28 place .guarded)
      ∧ (s.vol.store.eraseArm = some (bank, sector) → s.bankOpen bank = true → SectorWanted s bank sector →
        StoreDeclines (.sectorEraseGo h bank sector) s h 28 place .inUse)
      ∧ (s.vol.store.eraseArm = some (bank, sector) → s.bankOpen bank = true → ¬ SectorWanted s bank sector →
        Answers (.sectorEraseGo h bank sector) s
          { s with
            nv := { s.nv with opMark := .sector bank sector }
            vol := s.vol.clearArms.setOp (.erasing bank sector 0) } h 28 place .accepted))

/-- STORE ABORT acts as the second of two consecutive store requests (R132). -/
def Sys2Proof.Statements.StoreAborted : Prop :=
  ∀ (h : RequestHeader) (s : State) (place : Nat), s.Reaches (.storeAbort h) h place → s.vol.storeStarting = false →
    (s.vol.store.abortArm = false →
      Answers (.storeAbort h) s
        { s with vol := { s.vol with store := { s.vol.store with eraseArm := none, abortArm := true } } } h 29 place .ok)
    ∧ (s.vol.store.abortArm = true →
        (s.vol.store.op = .ready → Answers (.storeAbort h) s { s with vol := s.vol.clearArms } h 29 place .ok)
        ∧ (∀ p n, s.vol.store.op = .programWrite p n → StoreDeclines (.storeAbort h) s h 29 place .wrongState)
        ∧ (∀ c bank p data n, s.vol.store.op = .programming c bank p data n →
          Answers (.storeAbort h) s
            { s with
              nv := { s.nv.setPage bank p .dirty with opMark := .none }
              vol := (s.vol.clearArms.setOp .ready).notify (.storeDone (.page c true (s.nv.clip c).written)) }
            h 29 place .ok)
        ∧ (∀ bank sector n, s.vol.store.op = .erasing bank sector n →
          Answers (.storeAbort h) s
            { s with
              nv := { s.nv.setSector bank sector .dirty with opMark := .none }
              vol := (s.vol.clearArms.setOp .ready).notify (.storeDone (.erase bank sector true)) } h 29 place .ok)
        ∧ (∀ c length check next x, s.vol.store.op = .verifying c length check next x →
          Answers (.storeAbort h) s
            { s with
              vol := (s.vol.clearArms.dropVerifyRead.setOp .ready).notify
                (.storeDone (.seal c true false (s.nv.clip c).written)) } h 29 place .ok))

/-- The read in progress of a verify that is aborted runs to its end and is discarded then; another user's read stands. That a verify
read is treated like one that its voice withdraws is the model's choice (log entry 48). -/
def Sys2Proof.Statements.VerifyReadDropped : Prop :=
  ∀ w : Vol,
    (∀ r, w.store.read = some r → r.user = .verify →
      w.dropVerifyRead = { w with store := { w.store with read := some { r with user := .discarded } } })
    ∧ ((∀ r, w.store.read = some r → r.user ≠ .verify) → w.dropVerifyRead = w)

/-- Erasing a sector and aborting an operation (R130, R132). -/
def Obligations.EraseAndAbort : Prop := SectorErase ∧ StoreAborted ∧ VerifyReadDropped

/-- PROGRAM WRITE: its fields and clips, the checks of R120, the guard; then the store is in PROGRAM_WRITE with the programme
state INVALID and a stored check that fails (R136; log entry 10). That a clip not VALID counts as the range check and leaves the
arms is the model's choice (log entry 39). -/
def Sys2Proof.Statements.ProgramWritten : Prop :=
  ∀ (h : RequestHeader) (p : ProgramFields) (s : State) (place : Nat), s.Reaches (.programWrite h p) h place →
    (p.inRange = false ∨ (∃ c, (.clip c ∈ p.alertList ∨ .clip c ∈ p.evacList)
          ∧ ¬ ((s.nv.clip c).state = .valid ∧ ∃ x, (s.nv.clip c).run = some (.r, x))) →
      Declines (.programWrite h p) s h 32 place .badArg)
    ∧ (p.inRange = true → (∀ c, .clip c ∈ p.alertList ∨ .clip c ∈ p.evacList →
          (s.nv.clip c).state = .valid ∧ ∃ x, (s.nv.clip c).run = some (.r, x)) →
        (s.vol.evac.state ≠ .normal → StoreDeclines (.programWrite h p) s h 32 place .evacActive)
        ∧ (s.vol.evac.state = .normal → s.vol.storeStarting = true ∨ s.vol.storeInFlight = true →
          StoreDeclines (.programWrite h p) s h 32 place .busy)
        ∧ (s.StoreFree → s.vol.mode = .normal ∨ s.nv.g1 = true ∨ s.nv.g2 = true →
          StoreDeclines (.programWrite h p) s h 32 place .guarded)
        ∧ (s.StoreFree → s.vol.mode = .maintenance → s.nv.g1 = false → s.nv.g2 = false →
          ∃ (pr : Programme) (check : BitVec 32),
          Answers (.programWrite h p) s
              { s with
                nv := { s.nv with opMark := .programme, programmeCheck := check }
                vol := s.vol.clearArms.modStore fun c => { c with op := .programWrite pr 0, programmeValid := false } }
              h 32 place .accepted
            ∧ check ≠ s.nv.programme.check
            ∧ pr.enabled = p.enabled ∧ pr.lane = p.lane ∧ pr.alertList = p.alertList ∧ pr.evacList = p.evacList
            ∧ pr.duration = p.duration ∧ pr.lines = p.lines ∧ pr.group = s.vol.group 31
            ∧ ∀ z < 64, tget none pr.placements z = (s.vol.zone z).placement
                ∧ tget 0 pr.evacBases z = (s.vol.zone z).evacBase))

/-- The completion of a programme write, while the part runs (after 400 ms), while it is held in reset, and while only the
write still holds it there: the record is stored with its check, the programme state is VALID and STORE DONE is sent
(R136; log entry 16 for the level of CL0 and the moment in reset, log entry 8 for the count of the 400 ms in frames). -/
def Sys2Proof.Statements.ProgramWriteCompleted : Prop :=
  ∀ (cl0High : Bool) (pr : Programme) (n : Nat) (s : State), s.vol.store.op = .programWrite pr n →
    (s.power = .running → 400 * 48 ≤ n →
      Happens (.programWriteComplete cl0High) s
        { s with
          nv := { s.nv with programme := pr, programmeCheck := pr.check, opMark := .none }
          vol := (s.vol.modStore fun c => { c with op := .ready, programmeValid := true }).notify (.storeDone .programme) })
    ∧ (s.power = .held → exec (.programWriteComplete cl0High) s = .next
        { s with
          nv := { s.nv with programme := pr, programmeCheck := pr.check, opMark := .none }
          vol := (s.vol.modStore fun c => { c with op := .ready, programmeValid := true }).notify (.storeDone .programme) })
    ∧ (s.power = .releasing → ∃ t, exec (.programWriteComplete cl0High) s = .next t ∧ t.power = .running
        ∧ t.nv = { s.nv with programme := pr, programmeCheck := pr.check, opMark := .none }
        ∧ t.vol.mode = (if cl0High = true then .normal else .maintenance) ∧ t.vol.storeStarting = true
        ∧ t.vol.store.programmeValid = true
        ∧ (s.vol.engine.notices.length < 24 →
            t.vol.engine.notices = s.vol.engine.notices ++ [(s.vol.engine.address, .storeDone .programme)]))

/-- The ranges of the fields of PROGRAM WRITE (R136, section 7.9). -/
def Sys2Proof.Statements.ProgramRanges : Prop :=
  ∀ p : ProgramFields, p.inRange = true ↔ (∀ l, p.lane = some l → l ≤ 31) ∧ p.alertList.length ≤ 8 ∧ p.evacList.length ≤ 8
    ∧ (∀ i, i ∈ p.alertList ∨ i ∈ p.evacList → FragmentRange i) ∧ p.duration ≤ 300
    ∧ ∀ k < 16, ∀ e, tget none p.lines k = some e → e.debounce ≤ 255

/-- The resident programme write, and the ranges of its fields (R136). -/
def Obligations.ProgrammeWrite : Prop := ProgramWritten ∧ ProgramRanges ∧ ProgramWriteCompleted

/-- After 2 ms a programming writes its page's bytes and no other; after 1,000 ms of work an erase frees its sector's pages
and drops its RETIRED clips; the mark is none, the store READY, STORE DONE is sent (R127, R131). That a byte of an erased page
reads FFh is the model's choice (log entry 2), and so is the count of the times in frames (log entry 8). -/
def Obligations.StoreCompletions : Prop :=
  (∀ (s : State) (c : Nat) (bank : ClipBank) (p n : Nat) (data : List Byte), s.running = true → s.nv.wf = true →
      s.vol.store.op = .programming c bank p data n → 96 ≤ n → data.length = 4096 → ∃ nv : Nonvolatile,
      Happens .programmingComplete s
          { s with
            nv := nv
            vol := (s.vol.setOp .ready).notify (.storeDone (.page c false ((s.nv.clip c).written + 1))) }
        ∧ nv.opMark = .none ∧ nv.g1 = s.nv.g1 ∧ nv.g2 = s.nv.g2 ∧ nv.programme = s.nv.programme
        ∧ nv.programmeCheck = s.nv.programmeCheck
        ∧ nv.clip c = { s.nv.clip c with written := (s.nv.clip c).written + 1 }
        ∧ (∀ x, x ≠ c → nv.clip x = s.nv.clip x)
        ∧ (∀ k q, nv.page k q = if pageIndex k q = pageIndex bank p then .written else s.nv.page k q)
        ∧ (∀ a, Memory.read nv.mem a =
            if pageIndex bank p * 4096 ≤ a ∧ a < pageIndex bank p * 4096 + 4096 then
              data.getD (a - pageIndex bank p * 4096) 0
            else Memory.read s.nv.mem a))
    ∧ (∀ (s : State) (bank : ClipBank) (sector n : Nat), s.running = true → s.nv.wf = true →
      s.vol.store.op = .erasing bank sector n → 48000 ≤ n → ∃ nv : Nonvolatile,
      Happens .eraseComplete s
          { s with
            nv := nv
            vol := (s.vol.setOp .ready).notify (.storeDone (.erase bank sector false)) }
        ∧ nv.opMark = .none ∧ nv.g1 = s.nv.g1 ∧ nv.g2 = s.nv.g2 ∧ nv.programme = s.nv.programme
        ∧ nv.programmeCheck = s.nv.programmeCheck
        ∧ (∀ x, nv.clip x =
            if (s.nv.clip x).state = .retired ∧ (s.nv.clip x).meets bank (64 * sector) 64 = true then .absent
            else s.nv.clip x)
        ∧ (∀ k q, nv.page k q =
            if pageIndex bank (64 * sector) ≤ pageIndex k q ∧ pageIndex k q < pageIndex bank (64 * sector) + 64 then .erased
            else s.nv.page k q)
        ∧ (∀ a, Memory.read nv.mem a =
            if pageIndex bank (64 * sector) * 4096 ≤ a ∧ a < pageIndex bank (64 * sector) * 4096 + 262144 then 0xFF
            else Memory.read s.nv.mem a))

/-- A read that has lasted 1 ms is delivered: a readable page enters the voice's buffer, an unreadable one as unreadable,
with the damaged mark and its notice (R107, R122, R124); the last page of a verify decides the seal (R128). That the voice counts an
unreadable page when it is delivered is the model's reading (log entry 52). -/
def Sys2Proof.Statements.ReadDelivered : Prop :=
  (∀ (s : State) (r : ReadOp) (v : ReadVerdict) (n : Nat) (x : Voice) (q : PageRef), s.running = true →
      s.vol.store.read = some r → 48 ≤ r.elapsed → r.user = .voice n → n < 8 → x = s.vol.voice n → x.demand = some q →
      (s.nv.page r.bank r.page = .written → v = .good →
        Happens (.pageReadComplete v) s
          { s with vol := ((s.vol.modStore fun c => { c with read := none }).setVoice n
              { x with buffer := x.buffer ++ [{ ref := q, readable := true }], demand := none }).makeDemand n })
      ∧ (s.nv.page r.bank r.page = .written → v = .corrected →
        Happens (.pageReadComplete v) s
          { s with vol := ((s.vol.modStore fun c =>
                { c with read := none, corrected := min 255 (c.corrected + 1) }).setVoice n
              { x with buffer := x.buffer ++ [{ ref := q, readable := true }], demand := none }).makeDemand n })
      ∧ (s.nv.page r.bank r.page ≠ .written ∨ v = .unreadable → r.clip ∈ s.vol.store.damagedMarks →
        Happens (.pageReadComplete v) s
          { s with vol := ((s.vol.modStore fun c =>
                { c with read := none, uncorrectable := min 255 (c.uncorrectable + 1) }).setVoice n
              { x with buffer := x.buffer ++ [{ ref := q, readable := false }], demand := none,
                       damaged := min 255 (x.damaged + 1) }).makeDemand n })
      ∧ (s.nv.page r.bank r.page ≠ .written ∨ v = .unreadable → r.clip ∉ s.vol.store.damagedMarks →
        ∃ marks : List Nat, (∀ c, c ∈ marks ↔ c = r.clip ∨ c ∈ s.vol.store.damagedMarks)
          ∧ Happens (.pageReadComplete v) s
            { s with vol := (((s.vol.modStore fun c =>
                  { c with read := none, uncorrectable := min 255 (c.uncorrectable + 1), damagedMarks := marks }).notify
                (.clipDamaged r.clip r.page)).setVoice n
              { x with buffer := x.buffer ++ [{ ref := q, readable := false }], demand := none,
                       damaged := min 255 (x.damaged + 1) }).makeDemand n }))
    ∧ (∀ (s : State) (r : ReadOp) (c length next : Nat) (check : BitVec 32) (bank : ClipBank) (first n : Nat), s.running = true →
      s.vol.store.read = some r → 48 ≤ r.elapsed → r.user = .verify →
      s.vol.store.op = .verifying c length check next false → (s.nv.clip c).run = some (bank, first, n) → n = next + 1 →
      s.nv.page r.bank r.page = .written →
      (crc32 (s.nv.clipBytes bank first length) = check →
        Happens (.verifyComplete .good) s
          { s with
            nv := s.nv.setClip c { s.nv.clip c with state := .valid, length := some length }
            vol := (s.vol.modStore fun k => { k with read := none, op := .ready }).notify
              (.storeDone (.seal c false false (s.nv.clip c).written)) })
      ∧ (crc32 (s.nv.clipBytes bank first length) ≠ check →
        Happens (.verifyComplete .good) s
          { s with
            vol := (s.vol.modStore fun k => { k with read := none, op := .ready, checkFail := true }).notify
              (.storeDone (.seal c false true (s.nv.clip c).written)) }))

/-- `w1` is `w` with the read path free and what the page code found in the read `r` counted: a corrected error, or an unreadable
page, which marks its clip and, the first time, sends CLIP DAMAGED (R124). -/
def Sys2Proof.Statements.ReadCounted (w : Vol) (r : ReadOp) (v : ReadVerdict) (readable : Bool) (w1 : Vol) : Prop :=
  (readable = true → v ≠ .corrected → w1 = { w with store := { w.store with read := none } })
    ∧ (readable = true → v = .corrected →
      w1 = { w with store := { w.store with read := none, corrected := min 255 (w.store.corrected + 1) } })
    ∧ (readable = false → r.clip ∈ w.store.damagedMarks →
      w1 = { w with store := { w.store with read := none, uncorrectable := min 255 (w.store.uncorrectable + 1) } })
    ∧ (readable = false → r.clip ∉ w.store.damagedMarks →
      ∃ marks : List Nat, (∀ c, c ∈ marks ↔ c = r.clip ∨ c ∈ w.store.damagedMarks)
        ∧ w1 = ({ w with store := { w.store with
            read := none, uncorrectable := min 255 (w.store.uncorrectable + 1), damagedMarks := marks } }).notify
          (.clipDamaged r.clip r.page))

/-- A page that a verify has read: one that is not the last goes on to the next, spoiled by an unreadable page; the last one decides:
the clip is VALID when the check matches and no page was unreadable, else the clip stays WRITING and CHECK_FAIL is set (R124, R128).
A read that its voice no longer wants is discarded (R107, R122). -/
def Sys2Proof.Statements.VerifyReads : Prop :=
  ∀ (s : State) (r : ReadOp) (v : ReadVerdict) (readable : Bool), s.running = true → s.vol.store.read = some r →
    48 ≤ r.elapsed → (readable = true ↔ s.nv.page r.bank r.page = .written ∧ v ≠ .unreadable) → ∃ w1,
    ReadCounted s.vol r v readable w1
    ∧ (r.user = .discarded ∨ (∃ n, r.user = .voice n ∧ (s.vol.voice n).demand = none) →
        Happens (.pageReadComplete v) s { s with vol := w1 })
    ∧ ∀ c length next check spoiled bank first n, r.user = .verify →
      s.vol.store.op = .verifying c length check next spoiled → (s.nv.clip c).run = some (bank, first, n) →
      (next + 1 < n →
        Happens (.pageReadComplete v) s
          { s with vol := w1.setOp (.verifying c length check (next + 1) (spoiled || !readable)) })
      ∧ (n = next + 1 → exec (.verifyComplete v) s = exec (.pageReadComplete v) s)
      ∧ (n = next + 1 → spoiled = false → readable = true → crc32 (s.nv.clipBytes bank first length) = check →
        Happens (.verifyComplete v) s
          { s with
            nv := s.nv.setClip c { s.nv.clip c with state := .valid, length := some length }
            vol := (w1.setOp .ready).notify (.storeDone (.seal c false false (s.nv.clip c).written)) })
      ∧ (n = next + 1 → spoiled = true ∨ readable = false ∨ crc32 (s.nv.clipBytes bank first length) ≠ check →
        Happens (.verifyComplete v) s
          { s with
            vol := ({ w1 with store := { w1.store with op := .ready, checkFail := true } }).notify
              (.storeDone (.seal c false true (s.nv.clip c).written)) })

/-- Voice `v` demands a page of `bank`. -/
def Sys2Proof.Statements.DemandsIn (w : Vol) (nv : Nonvolatile) (v : Nat) (bank : ClipBank) : Prop :=
  ∃ r first n, (w.voice v).demand = some r ∧ (nv.clip r.clip).run = some (bank, first, n)

/-- An erase of `bank` is SUSPENDED: a demand of the bank waits from a voice that holds fewer than two pages, or a read of the bank is
in progress (R123). -/
def Sys2Proof.Statements.Suspends (w : Vol) (nv : Nonvolatile) (bank : ClipBank) : Prop :=
  (∃ v < 8, DemandsIn w nv v bank ∧ (w.voice v).buffer.length < 2 ∧ ∀ r, w.store.read = some r → r.user ≠ .voice v)
    ∨ ∃ r, w.store.read = some r ∧ r.bank = bank

/-- The demands of `bank` are held: a page of it is being programmed, or an erase of it is at work (R123). -/
def Sys2Proof.Statements.HeldBack (w : Vol) (nv : Nonvolatile) (bank : ClipBank) : Prop :=
  (∃ c p data n, w.store.op = .programming c bank p data n)
    ∨ ∃ k n, w.store.op = .erasing bank k n ∧ ¬ Suspends w nv bank

/-- The demand of voice `v` can be served (R122). -/
def Sys2Proof.Statements.Servable (w : Vol) (nv : Nonvolatile) (v : Nat) : Prop :=
  v < 8 ∧ ∃ bank, DemandsIn w nv v bank ∧ ¬ HeldBack w nv bank

/-- The read arbiter: a free path starts the demand that is not held of the voice with the fewest pages, the lower number among
equals; with none it reads the next page of a verify; while the store is STARTING it reads nothing (R122). -/
def Sys2Proof.Statements.ReadsChosen : Prop :=
  ∀ (w : Vol) (nv : Nonvolatile),
    (w.store.read ≠ none ∨ (∃ n, w.store.op = .starting n) → w.pump nv = w)
    ∧ (w.store.read = none → (∀ n, w.store.op ≠ .starting n) →
      (∀ v r bank first n, Servable w nv v →
        (∀ u, Servable w nv u → u ≠ v → (w.voice v).buffer.length < (w.voice u).buffer.length
          ∨ ((w.voice v).buffer.length = (w.voice u).buffer.length ∧ v < u)) →
        (w.voice v).demand = some r → (nv.clip r.clip).run = some (bank, first, n) →
        w.pump nv = { w with store := { w.store with
          read := some { user := .voice v, clip := r.clip, bank := bank, page := first + r.page, elapsed := 0 } } })
      ∧ ((∀ v, ¬ Servable w nv v) →
        (∀ c length check next spoiled bank first n, w.store.op = .verifying c length check next spoiled →
          (nv.clip c).run = some (bank, first, n) → next < n →
          w.pump nv = { w with store := { w.store with
            read := some { user := .verify, clip := c, bank := bank, page := first + next, elapsed := 0 } } })
        ∧ ((∀ c length check next spoiled, w.store.op ≠ .verifying c length check next spoiled) → w.pump nv = w)))

/-- A frame of work for the store: the work of a SUSPENDED erase does not count, and every other operation's does; the read in
progress has lasted one frame more (R122, R123; log entry 8). -/
def Sys2Proof.Statements.StoreWorks : Prop :=
  ∀ (w : Vol) (nv : Nonvolatile),
    (w.suspended nv = true ↔ ∃ bank k n, w.store.op = .erasing bank k n ∧ Suspends w nv bank)
    ∧ { (w.storeTick nv) with store := w.store } = w
    ∧ { (w.storeTick nv).store with read := w.store.read, op := w.store.op } = w.store
    ∧ (w.store.read = none → (w.storeTick nv).store.read = none)
    ∧ (∀ r, w.store.read = some r → (w.storeTick nv).store.read = some { r with elapsed := r.elapsed + 1 })
    ∧ (∀ bank k n, w.store.op = .erasing bank k n →
        (Suspends w nv bank → (w.storeTick nv).store.op = .erasing bank k n)
        ∧ (¬ Suspends w nv bank → (w.storeTick nv).store.op = .erasing bank k (n + 1)))
    ∧ (∀ c bank p data n, w.store.op = .programming c bank p data n →
        (w.storeTick nv).store.op = .programming c bank p data (n + 1))
    ∧ (∀ pr n, w.store.op = .programWrite pr n → (w.storeTick nv).store.op = .programWrite pr (n + 1))
    ∧ (∀ n, w.store.op = .starting n → (w.storeTick nv).store.op = .starting (n + 1))

/-- A frame counts the work of the operation as the part stood before it: what its own samples bring about, a buffer that falls
below two pages, suspends an erase from the next frame on, so that entering SUSPENDED costs no work (R123; log entry 8). -/
def Sys2Proof.Statements.FramesWork : Prop :=
  ∀ (x : FrameInput) (s : State), s.running = true → s.vol.readDue = false → s.vol.store.op.overdue = false → ∃ t,
    exec (.frameClockFrame x) s = .next t ∧ t.vol.store.op = (s.vol.storeTick s.nv).store.op

/-- The reads of the store: which one is started, what holds it, what suspends an erase, and what its completion does (R107, R122 to
R124, R128). -/
def Obligations.ReadsCompleted : Prop := ReadDelivered ∧ VerifyReads ∧ ReadsChosen ∧ StoreWorks ∧ FramesWork

/-! ### Zones, lines, voices -/

/-- The state of a claim, derived from its elements (R19). -/
def Sys2Proof.Statements.ClaimStates : Prop :=
  ∀ c : Claim,
    (c.state = .active ↔ ∃ e ∈ c.elems, e.status = .held)
    ∧ (c.state = .waiting ↔ (∀ e ∈ c.elems, e.status ≠ .held) ∧ ∃ e ∈ c.elems, e.status = .waiting)
    ∧ (c.state = .exhausted ↔ ∀ e ∈ c.elems, e.status ≠ .held ∧ e.status ≠ .waiting)

/-- Claim `c` holds zone `z`. -/
def Sys2Proof.Statements.HoldsZone (w : Vol) (c z : Nat) : Prop :=
  (w.zone z).holder = some c ∧ (w.claim c).bind (·.statusOf z) = some .held

/-- Claim `c` waits for zone `z`, whose holder is that of `w0`. -/
def Sys2Proof.Statements.WaitsZone (w0 w : Vol) (c z : Nat) : Prop :=
  (w.zone z).holder = (w0.zone z).holder ∧ c ∈ (w.zone z).waiters
    ∧ (w.claim c).bind (·.statusOf z) = some .waiting

/-- `fs` is the list `es` with the substitutes of the faulted zones appended in order: each one not yet in the list, with its
via-zone, waiting (R21, R30). -/
def Sys2Proof.Statements.Seeks (w : Vol) : List Elem → List Nat → List Elem → Prop
  | es, [], fs => fs = es
  | es, z :: zs, fs =>
    (∀ y, w.substitute z = some y → (∀ e ∈ es, e.zone ≠ y) →
        Seeks w (es ++ [{ zone := y, via := some z, status := .waiting }]) zs fs)
      ∧ (w.substitute z = none ∨ (∃ e ∈ es, w.substitute z = some e.zone) → Seeks w es zs fs)

/-- A placement on a group of distinct zones: the lowest free id; a member that is OFF or FAULTED is missed, and a FAULTED one brings
its substitute, if it has one that is not yet in the list; of the rest and of the substitutes, a JOIN claim takes each that is
obtainable and waits for the others; a WHOLE claim takes them all or waits for them all; a PARTIAL claim takes what is obtainable and
misses the rest with BUSY, or waits for all when nothing is (R17, R20 to R24). -/
def Sys2Proof.Statements.ClaimPlaced : Prop :=
  ∀ (w w' : Vol) (owner : Owner) (g p c : Nat) (mode : ClaimMode) (es fs : List Elem), w.group g ≠ [] → (w.group g).Nodup →
    (∀ z ∈ w.group g, z < 64) → w.freeClaim = some c → w' = (w.placeClaim owner g p mode).2 →
    es = (w.group g).map (fun z => { zone := z, via := none, status :=
      if (w.zone z).state = .off then .missed .withdrawn else if (w.zone z).state = .faulted then .missed .fault else .waiting }) →
    Seeks w es ((w.group g).filter fun z => decide ((w.zone z).state = .faulted)) fs →
    (w.placeClaim owner g p mode).1 = some c
    ∧ (∃ x, w'.claim c = some x ∧ x.owner = owner ∧ x.priority = p ∧ x.mode = mode
        ∧ x.elems.map (fun e => (e.zone, e.via)) = fs.map (fun e => (e.zone, e.via))
        ∧ (w.stampCounter < 4294967295 → x.stamp = w.stampCounter ∧ w'.stampCounter = w.stampCounter + 1))
    ∧ (∀ z ∈ w.group g, (w.zone z).state = .off → (w'.claim c).bind (·.statusOf z) = some (.missed .withdrawn))
    ∧ (∀ z ∈ w.group g, (w.zone z).state = .faulted → (w'.claim c).bind (·.statusOf z) = some (.missed .fault))
    ∧ (mode = .join → ∀ e ∈ fs, e.status = .waiting →
        (w.obtainableAt p e.zone = true → HoldsZone w' c e.zone) ∧ (w.obtainableAt p e.zone = false → WaitsZone w w' c e.zone))
    ∧ (mode = .whole →
        ((∀ e ∈ fs, e.status = .waiting → w.obtainableAt p e.zone = true) →
          ∀ e ∈ fs, e.status = .waiting → HoldsZone w' c e.zone)
        ∧ ((∃ e ∈ fs, e.status = .waiting ∧ w.obtainableAt p e.zone = false) →
          ∀ e ∈ fs, e.status = .waiting → WaitsZone w w' c e.zone))
    ∧ (mode = .part →
        ((∃ e ∈ fs, e.status = .waiting ∧ w.obtainableAt p e.zone = true) → ∀ e ∈ fs, e.status = .waiting →
          (w.obtainableAt p e.zone = true → HoldsZone w' c e.zone)
          ∧ (w.obtainableAt p e.zone = false → (w'.claim c).bind (·.statusOf e.zone) = some (.missed .busy)
              ∧ (w'.zone e.zone).holder = (w.zone e.zone).holder ∧ c ∉ (w'.zone e.zone).waiters))
        ∧ ((∀ e ∈ fs, e.status = .waiting → w.obtainableAt p e.zone = false) → ∀ e ∈ fs, e.status = .waiting →
          WaitsZone w w' c e.zone))

/-- Claim `a` goes before claim `b`: higher priority, or equal priority and older stamp (2.7). -/
def Sys2Proof.Statements.GoesBefore (w : Vol) (a b : Nat) : Prop :=
  ∃ x y, w.claim a = some x ∧ w.claim b = some y ∧ (y.priority < x.priority ∨ (x.priority = y.priority ∧ x.stamp < y.stamp))

/-- The claims of `cs` are those that pass `p`, each once, by priority and stamp. -/
def Sys2Proof.Statements.InOrder (w : Vol) (p : Nat → Prop) (cs : List Nat) : Prop :=
  cs.Nodup ∧ (∀ c, c ∈ cs ↔ p c) ∧ cs.Pairwise (GoesBefore w)

/-- A claim enters a wait list at its place by priority and stamp, and a holder that is preempted loses its zone at once: a JOIN claim
waits for it again, a WHOLE or PARTIAL claim misses it with PREEMPTED; its other elements stand (R25). -/
def Sys2Proof.Statements.HolderPreempted : Prop :=
  (∀ (w w' : Vol) (c z h : Nat) (x y : Claim), z < 64 → h ≠ c → (w.zone z).holder = some h → w.claim h = some x → w.claim c = some y →
      x.hasZone z = true → y.hasZone z = true → w' = w.takeZone c z →
      HoldsZone w' c z
      ∧ (x.mode = .join → WaitsZone w' w' h z)
      ∧ (x.mode ≠ .join → (w'.claim h).bind (·.statusOf z) = some (.missed .preempted)
          ∧ (h ∉ (w.zone z).waiters → h ∉ (w'.zone z).waiters))
      ∧ (∀ k, k ≠ z → (w'.claim h).bind (·.statusOf k) = x.statusOf k ∧ w'.zone k = w.zone k)
      ∧ ∀ d, d ≠ c → d ≠ h → w'.claim d = w.claim d)
    ∧ ∀ (w : Vol) (c z : Nat) (a b : List Nat), z < 64 → (w.zone z).waiters.filter (fun d => decide (d ≠ c)) = a ++ b →
      (∀ d ∈ a, ¬ GoesBefore w c d) → (∀ d, b.head? = some d → GoesBefore w c d) →
      w.enterWait c z = w.setZone z { w.zone z with waiters := a ++ c :: b }

/-- What a candidate of a release walk does by its mode: a JOIN claim takes what it waits for and can obtain; a WAITING WHOLE claim
takes all or nothing; a WAITING PARTIAL claim that can obtain something takes it and misses the rest with BUSY (R22 to R24, R27). -/
def Sys2Proof.Statements.CandidateTakes : Prop :=
  ∀ (w w' : Vol) (c : Nat) (x : Claim), w.claim c = some x → (x.elems.map (·.zone)).Nodup → (∀ e ∈ x.elems, e.zone < 64) →
    w' = w.modeTake c →
    (x.mode = .join → ∀ z ∈ x.waitingZones,
      (w.obtainableAt x.priority z = true → HoldsZone w' c z)
      ∧ (w.obtainableAt x.priority z = false → w'.zone z = w.zone z ∧ (w'.claim c).bind (·.statusOf z) = some .waiting))
    ∧ (x.mode = .whole → x.state = .waiting → (∀ z ∈ x.waitingZones, w.obtainableAt x.priority z = true) →
        ∀ z ∈ x.waitingZones, HoldsZone w' c z)
    ∧ (x.mode = .whole → x.state ≠ .waiting ∨ (∃ z ∈ x.waitingZones, w.obtainableAt x.priority z = false) → w' = w)
    ∧ (x.mode = .part → x.state = .waiting → (∃ z ∈ x.waitingZones, w.obtainableAt x.priority z = true) →
        ∀ z ∈ x.waitingZones, (w.obtainableAt x.priority z = true → HoldsZone w' c z)
          ∧ (w.obtainableAt x.priority z = false → (w'.claim c).bind (·.statusOf z) = some (.missed .busy)
              ∧ (w'.zone z).holder = (w.zone z).holder ∧ c ∉ (w'.zone z).waiters))
    ∧ (x.mode = .part → x.state ≠ .waiting ∨ (∀ z ∈ x.waitingZones, w.obtainableAt x.priority z = false) → w' = w)
    ∧ (∀ z, z ∉ x.waitingZones → w'.zone z = w.zone z)

/-- A release takes the claim off every zone and wait list and runs one walk over the zones it held; the walk takes the claims that
wait for them when it begins, by priority and stamp (R26, R27). -/
def Sys2Proof.Statements.ReleaseWalks : Prop :=
  (∀ (w : Vol) (freed cs : List Nat), InOrder w (fun c => ∃ z ∈ freed, c ∈ (w.zone z).waiters) cs →
      w.walk freed = cs.foldl Vol.modeTake w)
    ∧ ∀ (w : Vol) (c : Nat) (x : Claim), w.claim c = some x → ∃ w1 : Vol,
      w.releaseClaim c = w1.walk x.heldZones ∧ w1.claim c = none ∧ (∀ d, d ≠ c → w1.claim d = w.claim d)
        ∧ ∀ z < 64, w1.zone z =
          { w.zone z with
            holder := if z ∈ x.heldZones then none else (w.zone z).holder
            waiters := if z ∈ x.waitingZones then (w.zone z).waiters.filter (· ≠ c) else (w.zone z).waiters }

/-- The settlement of a fault: the claims concerned, one at a time by priority and stamp, each lose the zone with cause FAULT and seek
a substitute; one that is not yet in the list is arbitrated at once, by the mode and by the state before the loss (R29, R31). A
WHOLE claim whose elements change while it waits is tested again (R22). -/
def Sys2Proof.Statements.FaultSettled : Prop :=
  (∀ (w : Vol) (z : Nat) (cs : List Nat), InOrder w (fun c => (w.zone z).holder = some c ∨ c ∈ (w.zone z).waiters) cs →
      w.faultZone z = cs.foldl (fun v c => v.settleFault z c) w
      ∧ w.withdrawZone z = cs.foldl
          (fun v c => if (v.claim c).map (·.mode) = some .whole then v.wholeTake c else v)
          (cs.foldl (fun v c => v.loseZone c z .withdrawn) w))
    ∧ ∀ (w w1 : Vol) (z c : Nat) (x : Claim), w.claim c = some x → w1 = w.loseZone c z .fault →
      (w1.substitute z = none ∨ (∃ y, w1.substitute z = some y ∧ x.hasZone y = true) →
        (x.mode = .whole → w.settleFault z c = w1.wholeTake c) ∧ (x.mode ≠ .whole → w.settleFault z c = w1))
      ∧ ∀ y w2, w1.substitute z = some y → x.hasZone y = false →
        w2 = w1.modClaim c (fun k => { k with elems := k.elems ++ [{ zone := y, via := some z, status := .waiting }] }) →
        (x.state = .active → w2.obtainableAt x.priority y = true → w.settleFault z c = w2.takeZone c y)
        ∧ (x.state = .active → w2.obtainableAt x.priority y = false → x.mode = .join → w.settleFault z c = w2.enterWait c y)
        ∧ (x.state = .active → w2.obtainableAt x.priority y = false → x.mode ≠ .join →
            w.settleFault z c = w2.setStatus c y (.missed .busy))
        ∧ (x.state = .waiting → w2.obtainableAt x.priority y = true → x.mode = .join →
            w.settleFault z c = (w2.enterWait c y).takeZone c y)
        ∧ (x.state = .waiting → w2.obtainableAt x.priority y = true → x.mode = .part →
            w.settleFault z c = (w2.enterWait c y).partTake c)
        ∧ (x.state = .waiting → w2.obtainableAt x.priority y = false → x.mode ≠ .whole → w.settleFault z c = w2.enterWait c y)
        ∧ (x.state = .waiting → x.mode = .whole → w.settleFault z c = (w2.enterWait c y).wholeTake c)

/-- A release frees the claim's entry; the claim holds none of its zones and waits in none of their lists. A claim that held
nothing starts no walk, and a zone it held is handed to the JOIN claim that waits for it (R26, R27). -/
def Sys2Proof.Statements.ClaimReleased : Prop :=
  ∀ (w : Vol) (c : Nat) (x : Claim), w.claim c = some x →
    (w.releaseClaim c).claim c = none
    ∧ (∀ z < 64, z ∈ x.heldZones → ((w.releaseClaim c).zone z).holder ≠ some c)
    ∧ (∀ z < 64, z ∈ x.waitingZones → c ∉ ((w.releaseClaim c).zone z).waiters)
    ∧ (x.heldZones = [] → (∀ d, d ≠ c → (w.releaseClaim c).claim d = w.claim d)
        ∧ ∀ z < 64, ((w.releaseClaim c).zone z).holder = (w.zone z).holder)
    ∧ (∀ z d y, z < 64 → x.heldZones = [z] → d ≠ c → (w.zone z).state = .held → (w.zone z).waiters = [d] →
        w.claim d = some y → y.mode = .join → y.statusOf z = some .waiting → HoldsZone (w.releaseClaim c) d z)
    ∧ (∀ z, z < 64 → x.heldZones = [z] → (w.zone z).waiters = [] → ((w.releaseClaim c).zone z).holder = none)

/-- The loss of a zone: on a withdrawal and on a fault the zone is left without holder and with an empty wait list, and the
element of every claim concerned is MISSED with cause WITHDRAWN or FAULT (R28, R29). -/
def Sys2Proof.Statements.ZoneLost : Prop :=
  ∀ (w : Vol) (z : Nat), z < 64 → (∀ c, (w.zone z).holder = some c ∨ c ∈ (w.zone z).waiters → (w.claim c).isSome = true) →
    ((w.withdrawZone z).zone z).holder = none ∧ ((w.withdrawZone z).zone z).waiters = []
    ∧ ((w.faultZone z).zone z).holder = none ∧ ((w.faultZone z).zone z).waiters = []
    ∧ (∀ c x, (w.zone z).holder = some c ∨ c ∈ (w.zone z).waiters → w.claim c = some x → x.hasZone z = true →
        ((w.withdrawZone z).claim c).bind (·.statusOf z) = some (.missed .withdrawn)
        ∧ ((w.faultZone z).claim c).bind (·.statusOf z) = some (.missed .fault))
    ∧ ((w.zone z).holder = none → (w.zone z).waiters = [] → w.withdrawZone z = w ∧ w.faultZone z = w)

/-- A recovery: the JOIN claim that missed the zone through a fault holds it again; a zone that no claim rejoins stays as it is
(R32). -/
def Sys2Proof.Statements.ZoneRecovered : Prop :=
  ∀ (w : Vol) (z : Nat), z < 64 → (w.zone z).state = .quiet → (w.zone z).waiters = [] →
    (∀ c x, w.claim c = some x → x.mode = .join → x.statusOf z = some (.missed .fault) →
      (∀ d y, d ≠ c → w.claim d = some y → y.mode = .join → y.statusOf z ≠ some (.missed .fault)) →
      HoldsZone (w.recoverZone z) c z)
    ∧ ((∀ d y, w.claim d = some y → y.mode = .join → y.statusOf z ≠ some (.missed .fault)) → w.recoverZone z = w)

/-- The claim `c` rejoins zone `z`: a JOIN claim that missed it through a fault (R32). -/
def Sys2Proof.Statements.Rejoins (w : Vol) (z c : Nat) : Prop :=
  ∃ x, w.claim c = some x ∧ x.mode = .join ∧ x.statusOf z = some (.missed .fault)

/-- A recovery with any number of rejoining claims: each waits for the zone again, in the order of priority and stamp in its wait
list, which was empty; then one release walk runs over the zone (R32). What the walk does stands in `ReleaseWalks`. -/
def Sys2Proof.Statements.ZoneRejoined : Prop :=
  ∀ (w : Vol) (z : Nat) (cs : List Nat), z < 64 → (w.zone z).waiters = [] → InOrder w (Rejoins w z) cs → ∃ w1 : Vol,
    w.recoverZone z = w1.walk [z]
    ∧ w1.zone z = { w.zone z with waiters := cs } ∧ (∀ y, y ≠ z → w1.zone y = w.zone y)
    ∧ (∀ c, Rejoins w z c → w1.claim c = (w.claim c).map fun x =>
        { x with elems := x.elems.map fun e => if e.zone = z then { e with status := .waiting } else e })
    ∧ (∀ c, ¬ Rejoins w z c → w1.claim c = w.claim c) ∧ { w1 with zones := w.zones, claims := w.claims } = w

/-- `hop` goes from zone `z` over `k` fallback fields to zone `y`: no zone comes twice, and `y` is the first after `z` that is QUIET
or HELD (R30). -/
def Sys2Proof.Statements.FallsBack (w : Vol) (z y k : Nat) (hop : Nat → Nat) : Prop :=
  hop 0 = z ∧ hop k = y ∧ (∀ i < k, (w.zone (hop i)).fallback = some (hop (i + 1)))
    ∧ (∀ i j, i < j → j ≤ k → hop i ≠ hop j)
    ∧ (∀ i, 1 ≤ i → i < k → (w.zone (hop i)).state ≠ .quiet ∧ (w.zone (hop i)).state ≠ .held)
    ∧ ((w.zone y).state = .quiet ∨ (w.zone y).state = .held)

/-- The fallback walk: the substitute of a zone is the first zone that is QUIET or HELD along the fallback fields, in at most four
hops and before any zone comes twice; there is none where no such zone is met (R30). -/
def Sys2Proof.Statements.SubstituteFound : Prop :=
  ∀ (w : Vol) (z y : Nat), w.substitute z = some y ↔ ∃ k hop, 1 ≤ k ∧ k ≤ 4 ∧ FallsBack w z y k hop

/-- A placement that finds the stamp counter at its largest value first gives the claims of the table new stamps, 0 to the oldest
and on in their order, and sets the counter to their number; it then goes on as any placement (R18). -/
def Sys2Proof.Statements.StampsRenewed : Prop :=
  ∀ (w w1 : Vol) (owner : Owner) (g p : Nat) (mode : ClaimMode) (used : List Nat), w.group g ≠ [] → w.freeClaim ≠ none →
    w.stampCounter = 4294967295 → used = (List.range 40).filter (fun c => (w.claim c).isSome) →
    (∀ c d x y, w.claim c = some x → w.claim d = some y → c ≠ d → x.stamp ≠ y.stamp) →
    (∀ c, w1.claim c = (w.claim c).map fun x =>
      { x with stamp := (used.filter fun d => decide (((w.claim d).map (·.stamp)).getD 0 < x.stamp)).length }) →
    w1.stampCounter = used.length → { w1 with claims := w.claims, stampCounter := w.stampCounter } = w →
    w.placeClaim owner g p mode = w1.placeClaim owner g p mode

/-- The records differ in what ZONE STATE reports: state, QUIET and HELD counting as one, health or condition (R2). -/
def Sys2Proof.Statements.ReportsDiffer (x y : Zone) : Prop :=
  (x.state ≠ y.state ∧ ¬ ((x.state = .quiet ∧ y.state = .held) ∨ (x.state = .held ∧ y.state = .quiet)))
    ∨ x.health ≠ y.health ∨ x.cond ≠ y.cond

/-- A zone event: the change is handed to the arbiter, the voices act on the reports of the event, and ZONE STATE is sent, once and
with the values after the event, exactly when what it reports has changed (R1, R2, R33). That the voices' notices come before it is
the model's choice (log entry 11). -/
def Sys2Proof.Statements.ZoneEventTaken : Prop :=
  ∀ (w w1 : Vol) (nv : Nonvolatile) (z : Nat) (f : Zone → Zone) (y : Zone), w1 = (w.changeZone z f).settle nv →
    y = w1.zone z →
    (ReportsDiffer (w.zone z) y → w.zoneEvent nv z f = w1.notify (.zoneState z y.state y.health y.cond y.extFault))
    ∧ (¬ ReportsDiffer (w.zone z) y → w.zoneEvent nv z f = w1)

/-- A change of a zone's record hands the arbiter a withdrawal when the zone becomes OFF, a fault when it becomes FAULTED and a
recovery when it leaves OFF or FAULTED for QUIET, and nothing otherwise (R1). -/
def Sys2Proof.Statements.ZoneChangeHanded : Prop :=
  ∀ (w : Vol) (z : Nat) (f : Zone → Zone), z < 64 →
    ((w.zone z).state = .quiet ∨ (w.zone z).state = .held → (f (w.zone z)).state = .off →
      w.changeZone z f = (w.modZone z f).withdrawZone z)
    ∧ ((w.zone z).state = .quiet ∨ (w.zone z).state = .held → (f (w.zone z)).state = .faulted →
      w.changeZone z f = (w.modZone z f).faultZone z)
    ∧ ((w.zone z).state = .off ∨ (w.zone z).state = .faulted → (f (w.zone z)).state = .quiet →
      w.changeZone z f = (w.modZone z f).recoverZone z)
    ∧ (((w.zone z).state = .quiet ∨ (w.zone z).state = .held →
          (f (w.zone z)).state = .quiet ∨ (f (w.zone z)).state = .held) →
        ((f (w.zone z)).state = .quiet → (w.zone z).state = .quiet ∨ (w.zone z).state = .held) →
        w.changeZone z f = w.modZone z f)

/-- The derivation of health and state (R1), the condition table (R13), the obtainable zones and a claim's taking of one
(R20), the fallback walk's result (R30). -/
def Sys2Proof.Statements.ZoneDerivations : Prop :=
  (∀ x : Zone,
      (x.state = .off ↔ x.enabled = false ∨ x.placement = none)
      ∧ (x.state = .faulted ↔ x.enabled = true ∧ x.placement ≠ none
          ∧ (x.extFault = true ∨ x.cond = .opened ∨ x.cond = .short ∨ x.cond = .silent))
      ∧ (x.state = .held → x.holder ≠ none) ∧ (x.state = .quiet → x.holder = none)
      ∧ (x.health = .derated ↔ x.cond = .hot ∧ x.extFault = false))
    ∧ (∀ (x : Zone) (r : LineCond), r = .normal ∨ r = .hot ∨ r = .opened ∨ r = .short →
      (r = .opened ∨ r = .short → (x.applyCondition r).cond = r ∧ (x.applyCondition r).normals = 0)
      ∧ (x.cond ≠ .opened → x.cond ≠ .short → (x.applyCondition r).cond = r
          ∧ (r = .normal ∨ r = .hot → (x.applyCondition r).normals = x.normals))
      ∧ (x.cond = .opened ∨ x.cond = .short → r = .hot →
          (x.applyCondition r).cond = x.cond ∧ (x.applyCondition r).normals = 0)
      ∧ (x.cond = .opened ∨ x.cond = .short → r = .normal →
          (x.normals + 1 < 3 → (x.applyCondition r).cond = x.cond ∧ (x.applyCondition r).normals = x.normals + 1)
          ∧ (3 ≤ x.normals + 1 → (x.applyCondition r).cond = .normal ∧ (x.applyCondition r).normals = 3))
      ∧ (x.applyCondition r).history = x.history.join r)
    ∧ (∀ (w : Vol) (p z : Nat), w.obtainableAt p z = true ↔
        (w.zone z).state = .quiet ∨ ((w.zone z).state = .held ∧
          ∃ h c, (w.zone z).holder = some h ∧ w.claim h = some c ∧ c.priority < p))
    ∧ (∀ (w : Vol) (c z : Nat), z < 64 → ((w.takeZone c z).zone z).holder = some c ∧ ((w.takeZone c z).gain z).cut = true
        ∧ c ∉ ((w.takeZone c z).zone z).waiters ∧ (w.takeZone c z).engine = w.engine)
    ∧ (∀ (w : Vol) (z y : Nat), w.substitute z = some y →
        y ≠ z ∧ ((w.zone y).state = .quiet ∨ (w.zone y).state = .held))

/-- Zones and claims: what is derived from a zone and from a claim, and what a placement, a preemption, a release and its walk, the
loss of a zone, its substitute, its recovery and a zone event do to holders, wait lists, elements and notices (R1, R2, R13, R17 to
R32). -/
def Obligations.ZoneRules : Prop :=
  ZoneDerivations ∧ ClaimStates ∧ ClaimPlaced ∧ StampsRenewed ∧ HolderPreempted ∧ CandidateTakes ∧ ClaimReleased ∧ ReleaseWalks
    ∧ ZoneLost ∧ SubstituteFound ∧ FaultSettled ∧ ZoneRecovered ∧ ZoneRejoined ∧ ZoneChangeHanded ∧ ZoneEventTaken

/-- A ZONE REPORT of a placed slot resets its zone's silence timer, sets its ambient level and applies its condition; any
other message on a downstream channel is discarded and counted. At its limit the silence timer makes the line SILENT (R2,
R12 to R14). -/
def Obligations.ZoneReports : Prop :=
  (∀ (p : Fin 4) (r : ReportMessage) (s : State), s.running = true →
      (r.cls ≠ 3 ∨ r.kind ≠ 78 ∨ 16 ≤ r.slot ∨ 4 ≤ r.condition ∨ (∃ a, r.ambient = some a ∧ (a < 30 ∨ 110 < a))
          ∨ (∀ z < 64, (s.vol.zone z).placement ≠ some (p.val, r.slot)) →
        exec (.zoneReport p r) s = .next { s with vol := { s.vol with reportDiscards := min 255 (s.vol.reportDiscards + 1) } })
      ∧ (∀ (z : Nat) (c : LineCond), z < 64 → r.cls = 3 → r.kind = 78 → r.slot < 16 →
          (r.condition, c) ∈ [(0, LineCond.normal), (1, .hot), (2, .opened), (3, .short)] →
          (∀ a, r.ambient = some a → 30 ≤ a ∧ a ≤ 110) → (s.vol.zone z).placement = some (p.val, r.slot) →
          (∀ y < z, (s.vol.zone y).placement ≠ some (p.val, r.slot)) →
        Happens (.zoneReport p r) s
          { s with vol := s.vol.zoneEvent s.nv z fun x =>
              ({ x with silence := 0, ambient := r.ambient }).applyCondition c }))
    ∧ (∀ (z : Fin 64) (s : State), s.AtMark (.silence z) → (s.vol.zone z).enabled = true →
      (s.vol.zone z).placement ≠ none → (s.vol.zone z).silence = 4999 →
      Happens (.zoneSilenceExpiry z) s
        { s with vol := (s.vol.zoneEvent s.nv z fun x =>
            { x with silence := 5000, cond := .silent, history := x.history.join .silent, normals := 0,
                     ambient := none }).markTaken (.silence z) })

/-- The block mark that completes a second advances the station time and walks the due list; at its largest value the time
stays (R54, R79). The queue's tests of the new time (R90) are left to the frame that carries the mark: the model's choice
(log entry 6). -/
def Sys2Proof.Statements.SecondTaken : Prop :=
  ∀ s : State, s.AtMark .second → s.vol.clock.isSet = true → s.vol.clock.marks = 999 →
    (s.vol.clock.time < 4294967295 →
      Happens .secondAdvance s
        { s with vol := (({ s.vol with clock :=
            { s.vol.clock with time := s.vol.clock.time + 1, marks := 0 } }).walkAll s.nv).markTaken .second })
    ∧ (s.vol.clock.time = 4294967295 →
      Happens .secondAdvance s
        { s with vol := ({ s.vol with clock := { s.vol.clock with marks := 0 } }).markTaken .second })

/-- The first entry of the due list among the calls of `p`, when its time has come. -/
def Sys2Proof.Statements.ComesDue (w : Vol) (p : Nat → Bool) (e : DueEntry) : Prop :=
  w.due.find? (fun x => p x.slot) = some e ∧ e.time ≤ w.clock.time

/-- `w'` is `w` after `n` entries of calls of `p`, each the first that has come when it is taken, and none of them is due in
`w'`. -/
def Sys2Proof.Statements.Walks (nv : Nonvolatile) (p : Nat → Bool) : Nat → Vol → Vol → Prop
  | 0, w, w' => (¬ ∃ e, ComesDue w p e) ∧ w' = w
  | n + 1, w, w' => ∃ e, ComesDue w p e ∧ Walks nv p n (w.takeDue nv e) w'

/-- The walk of the due list takes the first entry while its time has come, each on the state the entry before it left (R79); in
MAINTENANCE mode and with the clock UNSET it takes none (R80). 1,280 is five timed events for each of 256 calls; a call has at
most four (R59). The walk of the whole list takes all calls, the test of a single call its slot alone. That each transition's
withdrawals come before its own request, not before all of the walk, is the model's reading of R96 (log entry 54). -/
def Sys2Proof.Statements.DueWalk : Prop :=
  ∀ (w w' : Vol) (nv : Nonvolatile) (p : Nat → Bool) (n : Nat),
    (w.clock.isSet = true → w.mode = .normal → n ≤ 1280 → Walks nv p n w w' → w.walkDue nv p = w')
    ∧ (w.clock.isSet = false ∨ w.mode = .maintenance → w.walkDue nv p = w)
    ∧ w.walkAll nv = w.walkDue nv (fun _ => true)
    ∧ (∀ slot, w.walkOne nv slot = w.walkDue nv fun s => decide (s = slot))

/-- An entry leaves the list when it is taken; its call makes its transition or removal, stale when the entry lies more than
120 s back (R67, R79). -/
def Sys2Proof.Statements.WalkedEntryActs : Prop :=
  ∀ (w : Vol) (nv : Nonvolatile) (e : DueEntry) (c : Call) (stale : Bool), w.call e.slot = some c →
    stale = decide (e.time + 120 < w.clock.time) →
    (c.kind = .depart → c.state = .planned →
      w.takeDue nv e = (w.dropDue e.slot).tryPlatform nv e.slot .boarding stale)
    ∧ (c.kind = .depart → c.state = .boarding → w.takeDue nv e = (w.dropDue e.slot).enterFinal nv e.slot stale)
    ∧ (c.kind = .arrive → c.state = .planned → w.takeDue nv e = (w.dropDue e.slot).enterApproaching nv e.slot stale)
    ∧ ((c.kind = .depart ∧ c.state = .final) ∨ (c.kind = .arrive ∧ c.state = .atPlatform) →
      w.takeDue nv e = (w.dropDue e.slot).enterGone nv e.slot stale)
    ∧ (c.state = .gone ∨ c.state = .cancelled → w.takeDue nv e = (w.dropDue e.slot).removeCall nv e.slot)
    ∧ (∀ slot x, x ∈ (w.dropDue slot).due ↔ x ∈ w.due ∧ x.slot ≠ slot)

/-- A second of the station clock, and the walk of the due list that it and other events start (R54, R67, R79, R80). -/
def Obligations.SecondAdvances : Prop := SecondTaken ∧ DueWalk ∧ WalkedEntryActs

/-- A settled input line whose other reading has stood for its debounce time makes an edge: its level changes and its
function acts; an unsettled one settles when its stand count, 1 at a reading that differs from the mark before, passes the debounce
time, so a line of debounce 0 at any reading, without edge or notice of its own (R141 to R143). -/
def Sys2Proof.Statements.LinesRead : Prop :=
  (∀ (l : Fin 16) (x : Line) (d : Bool) (s : State), s.AtMark (.line l) → x = s.vol.line l → x.fn.isOutput = false →
      x.debounced = some d → x.debounce ≤ x.stand → ∃ raw : Bool, x.polarity.reading raw = !d
        ∧ Happens (.contactEdge l) s
          { s with
            vol := ((s.vol.setLine l { x with raw := raw, stand := x.stand + 1 }).takeEdge s.nv l
              (!d)).markTaken (.line l) })
    ∧ (∀ (l : Fin 16) (x : Line) (high : Bool) (n : Nat) (s : State), s.AtMark (.line l) → x = s.vol.line l →
      x.fn.isOutput = false → x.debounced = none →
      n = (if x.polarity.reading high = x.polarity.reading x.raw then x.stand + 1 else 1) → x.debounce < n →
      Happens (.lineSettle l high) s
        { s with
          vol := ((s.vol.setLine l { x with raw := high, stand := n }).takeSettling s.nv l
            (x.polarity.reading high)).markTaken (.line l) })
    ∧ (∀ (w : Vol) (nv : Nonvolatile) (n : Nat) (up : Bool), n < 16 →
        ((w.takeEdge nv n up).line n).debounced = some up ∧ ((w.takeEdge nv n up).line n).stand = 0
        ∧ ((w.takeSettling nv n up).line n).debounced = some up ∧ ((w.takeSettling nv n up).line n).stand = 0)

/-- An edge is reported after its function has acted: with the latch set when the edge report names it, without the latch when
it does not but the function found nothing to act on (R142). -/
def Sys2Proof.Statements.EdgesReported : Prop :=
  ∀ (w w0 w1 : Vol) (nv : Nonvolatile) (n : Nat) (up : Bool) (r : EdgeResult),
    w0 = w.setLine n { w.line n with debounced := some up, stand := 0 } →
    (up = true → (r, w1) = w0.riseAct nv n (w.line n).fn) →
    (up = false → r = .none ∧ w1 = w0.fallAct nv n (w.line n).fn) →
    ((w.line n).report = .both ∨ (w.line n).report = (if up then .rising else .falling) →
      w.takeEdge nv n up = (w1.modLine n fun y => { y with latch := true }).notify (.contactEdge n up (w.line n).fn r))
    ∧ ((w.line n).report = .none ∨ (w.line n).report = (if up then .falling else .rising) →
      (r ≠ .none → w.takeEdge nv n up = w1.notify (.contactEdge n up (w.line n).fn r))
      ∧ (r = .none → w.takeEdge nv n up = w1))

/-- The edges of a PLAIN and of a TALK line (R37, R144). That an empty group is answered before a lost link is looked at is the
model's choice (log entry 23). -/
def Sys2Proof.Statements.TalkLines : Prop :=
  ∀ (w : Vol) (nv : Nonvolatile) (n lane g p : Nat),
    w.riseAct nv n .plain = (.none, w) ∧ w.fallAct nv n .plain = w
    ∧ (w.source lane ≠ none → w.riseAct nv n (.talk lane g p) = (.laneBusy, w))
    ∧ (w.source lane = none → w.group g = [] →
        w.riseAct nv n (.talk lane g p) = (.none, w.notify (.liveEnd lane (.line n) .released)))
    ∧ (w.source lane = none → w.group g ≠ [] → (w.port 0).state ≠ .locked →
        w.riseAct nv n (.talk lane g p) = (.none, w.notify (.liveEnd lane (.line n) .linkLost)))
    ∧ (∀ c w1, w.source lane = none → w.group g ≠ [] → (w.port 0).state = .locked →
        w.placeClaim (.live lane) g p .join = (some c, w1) →
        w.riseAct nv n (.talk lane g p) = (.none, w1.setSource lane (some
          { opener := .line n, group := g, priority := p, limit := 0, talkTime := 0, absence := 0, absenceReported := false,
            claim := c })))
    ∧ (∀ x, w.source lane = some x → x.opener = .line n →
        w.fallAct nv n (.talk lane g p) =
          ((w.releaseClaim x.claim).setSource lane none).notify (.liveEnd lane (.line n) .released))
    ∧ ((∀ x, w.source lane = some x → x.opener ≠ .line n) → w.fallAct nv n (.talk lane g p) = w)

/-- A TRAIN_PRESENT line that goes active marks this call: ARRIVE, APPROACHING, with the platform, not held (R76). -/
def Sys2Proof.Statements.ArrivesAt (p : Nat) (c : Call) : Prop :=
  c.kind = .arrive ∧ c.state = .approaching ∧ c.platform = some p ∧ c.held = none

/-- The edges of the lines of a platform (R11, R76, R97, R144). -/
def Sys2Proof.Statements.PlatformLines : Prop :=
  ∀ (w : Vol) (nv : Nonvolatile) (n p : Nat), 1 ≤ p → p ≤ 32 →
    (((w.updateTrain p).platform p).trainPresent = some true ↔
      ∃ l < 16, (w.line l).fn = .trainPresent p ∧ (w.line l).debounced = some true)
    ∧ (((w.updateTrain p).platform p).trainPresent = none ↔ ∀ l < 16, (w.line l).fn ≠ .trainPresent p)
    ∧ w.fallAct nv n (.trainPresent p) = w.updateTrain p
    ∧ ((∀ k c, w.call k = some c → ¬ ArrivesAt p c) →
        w.riseAct nv n (.trainPresent p) = (.noCall, w.updateTrain p))
    ∧ (∀ k c, w.call k = some c → ArrivesAt p c →
        (∀ m d, w.call m = some d → ArrivesAt p d →
          c.expectedTime < d.expectedTime ∨ (c.expectedTime = d.expectedTime ∧ k ≤ m)) →
        w.riseAct nv n (.trainPresent p) = (.none, (w.updateTrain p).tryPlatform nv k .atPlatform false))
    ∧ (∀ k c, (w.platform p).occupant = some k → w.call k = some c → c.kind = .depart → c.state = .final →
        w.riseAct nv n (.doorsClosed p) = (.none, w.enterGone nv k false))
    ∧ ((∀ k c, (w.platform p).occupant = some k → w.call k = some c → c.kind ≠ .depart ∨ c.state ≠ .final) →
        w.riseAct nv n (.doorsClosed p) = (.none, w))
    ∧ ((w.platform p).warning = none → w.riseAct nv n (.platformWarn p) = (.noTemplate, w))
    ∧ (∀ k, (w.platform p).warning = some k → w.template k = none →
        w.riseAct nv n (.platformWarn p) = (.noTemplate, w))
    ∧ (∀ k t, (w.platform p).warning = some k → w.template k = some t →
        w.riseAct nv n (.platformWarn p) =
          (.none, (w.createRequest nv { w.requestFrom t k .contact with platform := some p, priority := 12 }).2))
    ∧ w.fallAct nv n (.doorsClosed p) = w ∧ w.fallAct nv n (.platformWarn p) = w

/-- The edges of a ZONE_FAULT line (R15, R144). -/
def Sys2Proof.Statements.ZoneFaultLines : Prop :=
  ∀ (w : Vol) (nv : Nonvolatile) (n z : Nat),
    w.riseAct nv n (.zoneFault z) =
        (.none, w.zoneEvent nv z fun x => { x with extFault := true, history := { x.history with external := true } })
    ∧ w.fallAct nv n (.zoneFault z) = w.zoneEvent nv z fun x => { x with extFault := false }

/-- The edges of the evacuation lines (R37, R152, R158). That an empty group 31 is answered NOT_TAKEN before a lost link is
looked at is the model's choice (log entry 23). -/
def Sys2Proof.Statements.EvacLines : Prop :=
  ∀ (w : Vol) (nv : Nonvolatile) (n : Nat),
    (w.evac.state = .normal → w.riseAct nv n (.evac .alert) = (.none, w.enterAlert nv (.alertLine n)))
    ∧ (w.evac.state ≠ .normal → w.riseAct nv n (.evac .alert) = (.notTaken, w))
    ∧ (w.evac.state ≠ .evacuate → w.riseAct nv n (.evac .full) = (.none, w.enterEvacuate nv (.fullLine n)))
    ∧ (w.evac.state = .evacuate → w.riseAct nv n (.evac .full) = (.notTaken, w))
    ∧ (w.evac.state ≠ .normal → w.lineHolds = false →
        w.riseAct nv n (.evac .reset) = (.none, w.returnNormal nv (.resetLine n)))
    ∧ (w.evac.state = .normal ∨ w.lineHolds = true → w.riseAct nv n (.evac .reset) = (.notTaken, w))
    ∧ (w.evac.lane = none ∨ w.evac.state = .normal ∨ w.group 31 = []
          ∨ (∃ l x k, w.evac.lane = some l ∧ w.source l = some x ∧ x.opener = .evacuation k) →
        w.riseAct nv n (.evac .talk) = (.notTaken, w))
    ∧ (∀ l, w.evac.lane = some l → w.evac.state ≠ .normal → w.group 31 ≠ [] →
        (∀ x k, w.source l = some x → x.opener ≠ .evacuation k) →
        ((w.port 0).state ≠ .locked →
          w.riseAct nv n (.evac .talk) = (.none, w.notify (.liveEnd l (.evacuation (some n)) .linkLost)))
        ∧ (∀ c w1, (w.port 0).state = .locked →
          (w.closeSource l .stopped).placeClaim (.live l) 31 15 .join = (some c, w1) →
          w.riseAct nv n (.evac .talk) = (.none, w1.setSource l (some
            { opener := .evacuation (some n), group := 31, priority := 15, limit := 0, talkTime := 0, absence := 0,
              absenceReported := false, claim := c }))))
    ∧ (∀ k, k ≠ .talk → w.fallAct nv n (.evac k) = w)
    ∧ (∀ l x, w.evac.lane = some l → w.source l = some x → x.opener = .evacuation (some n) →
        w.fallAct nv n (.evac .talk) =
          ((w.releaseClaim x.claim).setSource l none).notify (.liveEnd l (.evacuation (some n)) .released))
    ∧ ((∀ l x, w.evac.lane = some l → w.source l = some x → x.opener ≠ .evacuation (some n)) →
        w.fallAct nv n (.evac .talk) = w)

/-- The settling of a line acts on its function by level alone (R143, R152). -/
def Sys2Proof.Statements.SettlingsAct : Prop :=
  ∀ (w w0 : Vol) (nv : Nonvolatile) (n : Nat) (active : Bool),
    w0 = w.setLine n { w.line n with debounced := some active, stand := 0 } →
    (∀ p, (w.line n).fn = .trainPresent p → w.takeSettling nv n active = w0.updateTrain p)
    ∧ (∀ z, (w.line n).fn = .zoneFault z → active = true → w.takeSettling nv n active =
        w0.zoneEvent nv z fun x => { x with extFault := true, history := { x.history with external := true } })
    ∧ (∀ z, (w.line n).fn = .zoneFault z → active = false → w.takeSettling nv n active = w0)
    ∧ ((w.line n).fn = .evac .alert → w.takeSettling nv n active =
        (if active = true ∧ w.evac.state = .normal then w0.enterAlert nv (.alertLine n) else w0))
    ∧ ((w.line n).fn = .evac .full → w.takeSettling nv n active =
        (if active = true ∧ w.evac.state ≠ .evacuate then w0.enterEvacuate nv (.fullLine n) else w0))
    ∧ ((w.line n).fn = .evac .reset ∨ (w.line n).fn = .evac .talk ∨ (w.line n).fn = .plain
        ∨ (∃ l g p, (w.line n).fn = .talk l g p) ∨ (∃ p, (w.line n).fn = .doorsClosed p)
        ∨ (∃ p, (w.line n).fn = .platformWarn p) → w.takeSettling nv n active = w0)

/-- The source of an OUTPUT line is true (R146). -/
def Sys2Proof.Statements.SourceHolds (w : Vol) : OutSource → Prop
  | .zoneHeld z => (w.zone z).state = .held
  | .zoneFaulted z => (w.zone z).state = .faulted
  | .platformOccupied p => ∃ k, (w.platform p).occupant = some k
  | .platformFinal p => ∃ k c, (w.platform p).occupant = some k ∧ w.call k = some c ∧ c.state = .final
  | .evacNotNormal => w.evac.state = .alert ∨ w.evac.state = .evacuate
  | .alertRaised => w.engine.raised = true

/-- At a block mark every OUTPUT line takes its shown level from force, source, generator and invert, and its terminal is driven
by polarity; a line rewritten to OUTPUT shows its inactive level until then; an input line drives nothing (R146). `w` is the
part as the block mark hands it to the lines: what is due before the frame, the frame given out, and the parts of the mark, the
mixer and the generators among them, are taken. -/
def Sys2Proof.Statements.OutputsShown : Prop :=
  (∀ (x : FrameInput) (s b : State) (w : Vol), s.running = true → s.vol.atMark = true → b = beforeFrame s x.verdict →
      w = b.vol.giveLanes.atOutputs b.nv x.levels → ∃ t : State,
      exec (.frameClockFrame x) s = .next t ∧ w.platforms = t.vol.platforms ∧ w.calls = t.vol.calls
      ∧ w.evac.state = t.vol.evac.state ∧ w.gens = t.vol.gens ∧ (∀ z < 64, (w.zone z).fixed = (t.vol.zone z).fixed)
      ∧ (w.exhaustedVoice = none → ∀ z < 64, (w.zone z).holder = (t.vol.zone z).holder)
      ∧ (AlertExact s → w.engine.raised = t.vol.engine.raised)
      ∧ ∀ l < 16, ∀ src g invert force, (t.vol.line l).fn = .output src g invert force →
        (force = .on → (t.vol.line l).shown = !invert)
        ∧ (force = .off → (t.vol.line l).shown = invert)
        ∧ (force = .none → SourceHolds w src → 10 * (w.gen g).r ≤ (w.gen g).phase → (w.gen g).phase < 10 * (w.gen g).f →
            (t.vol.line l).shown = !invert)
        ∧ (force = .none →
            ¬ SourceHolds w src ∨ (w.gen g).phase < 10 * (w.gen g).r ∨ 10 * (w.gen g).f ≤ (w.gen g).phase →
            (t.vol.line l).shown = invert))
    ∧ (∀ (w : Vol) (nv : Nonvolatile) (r : LineRecord) (src : OutSource) (g : Nat) (invert : Bool) (force : Force),
        r.line < 16 → (w.line r.line).fn.isOutput = false → r.fn = .output src g invert force →
        (w.writeLine nv r) = w.rewriteLine nv r ∧ ((w.rewriteLine nv r).line r.line).shown = invert
          ∧ ((w.rewriteLine nv r).line r.line).terminal = some (if r.polarity = .activeHigh then invert else !invert))
    ∧ (∀ x : Line, (x.fn.isOutput = false → x.terminal = none)
        ∧ (x.fn.isOutput = true → x.polarity = .activeHigh → x.terminal = some x.shown)
        ∧ (x.fn.isOutput = true → x.polarity = .activeLow → x.terminal = some (!x.shown)))

/-- Contact lines: what a block mark reads, what an edge and a settling of each function do, and what an OUTPUT line shows and
drives (R11, R15, R37, R76, R97, R141 to R144, R146, R152, R158). -/
def Obligations.ContactLinesChange : Prop :=
  LinesRead ∧ EdgesReported ∧ TalkLines ∧ PlatformLines ∧ ZoneFaultLines ∧ EvacLines ∧ SettlingsAct ∧ OutputsShown

/-- What a block mark does to a voice: start, resume, end of the list, stop after a cancel (R92, R95, R108, R110, R113,
R114). -/
def Sys2Proof.Statements.VoicesMarked : Prop :=
  ∀ (v : Fin 8) (x : Voice) (s : State), s.AtMark (.voice v) → x = s.vol.voice v →
    (∀ n c k, x.state = .cueing → x.request = some n → x.claim = some c → s.vol.claim c = some k → k.state = .active →
        x.hasPage = true →
      Happens (.voiceStart v) s
        { s with vol := ((s.vol.setVoice v { x with state := .playing }).modRequest n
            fun r => { r with state := .playing v }).markTaken (.voice v) })
    ∧ (x.state = .stalled → x.hasPage = true →
        (∀ n r, x.request = some n → s.vol.request n = some r → r.cancelPending = false) →
      Happens (.voiceResume v) s { s with vol := (s.vol.setVoice v { x with state := .playing }).markTaken (.voice v) })
    ∧ (∀ n, x.state = .playing → x.source = some .template → x.finished = true → x.request = some n →
      Happens (.voiceEnd v) s
        { s with vol := (((s.vol.releaseVoice v).settleEnd n).handOut s.nv).markTaken (.voice v) })
    ∧ (∀ n r, x.state = .playing ∨ x.state = .stalled → x.request = some n → s.vol.request n = some r →
        r.cancelPending = true →
      Happens (.voiceCancelStop v) s
        { s with vol := ((s.vol.removeRequest n .cancelled).handOut s.nv).markTaken (.voice v) })

/-- What the source of a request gives its FIELD items to speak, at the moment of expansion (R84, R85). That a DIRECT request
without expected time speaks its scheduled time is the model's reading (log entry 25). -/
def Sys2Proof.Statements.SourceSpeaks : Prop :=
  ∀ (w : Vol) (r : Request),
    (∀ slot k c, r.origin = .timetable → r.call = some (slot, k) → w.call slot = some c → w.spoken r =
      { platform := c.platform, noPlatform := c.platform.isNone, destination := some c.destination,
        scheduled := some c.scheduled, expected := some (c.expected.getD c.scheduled), delay := some c.delay })
    ∧ (∀ v, r.origin = .direct → r.values = some v → w.spoken r =
      { platform := v.platform, noPlatform := false, destination := v.destination, scheduled := v.scheduled,
        expected := if v.expected.isSome = true then v.expected else v.scheduled, delay := v.delay })
    ∧ (∀ p k c, r.origin = .contact → r.platform = some p → (w.platform p).occupant = some k → w.call k = some c → w.spoken r =
      { platform := some p, noPlatform := false, destination := some c.destination, scheduled := some c.scheduled,
        expected := some (c.expected.getD c.scheduled), delay := some c.delay })
    ∧ (∀ p, r.origin = .contact → r.platform = some p → (w.platform p).occupant = none → w.spoken r =
      { platform := some p, noPlatform := false, destination := none, scheduled := none, expected := none, delay := none })
    ∧ (r.origin = .timetable → r.call = none → w.spoken r =
      { platform := none, noPlatform := false, destination := none, scheduled := none, expected := none, delay := none })

/-- The phrase entries of a FIELD item, and whether its value is one the source does not have (R84). The time of day of a time
before the day base is the model's reading (log entry 24). -/
def Sys2Proof.Statements.FieldsRendered : Prop :=
  ∀ (w : Vol) (x : Spoken),
    (∀ (time day : Nat) (es : List (Option Nat)), (day : Int) = ((time : Int) - (w.clock.dayBase : Int)) % 86400 →
      es = [tget none w.hours (day / 3600), tget none w.minutes (day % 3600 / 60)] →
      (x.scheduled = some time → w.fieldPhrases x .scheduled = (es, false))
      ∧ (x.expected = some time → w.fieldPhrases x .expected = (es, false)))
    ∧ (∀ p, x.platform = some p → w.fieldPhrases x .platform = ([tget none w.platPhrases (p - 1)], false))
    ∧ (x.platform = none → w.fieldPhrases x .platform = ([], !x.noPlatform))
    ∧ (∀ d, x.destination = some d → w.fieldPhrases x .destination = ([tget none w.dests d], false))
    ∧ (x.destination = none → w.fieldPhrases x .destination = ([], true))
    ∧ (x.scheduled = none → w.fieldPhrases x .scheduled = ([], true))
    ∧ (x.expected = none → w.fieldPhrases x .expected = ([], true))
    ∧ (x.delay = some 0 → w.fieldPhrases x .delay = ([], false))
    ∧ (∀ d, x.delay = some d → 1 ≤ d → w.fieldPhrases x .delay = ([tget none w.numbers ((if d ≤ 99 then d else 100) - 1)], false))
    ∧ (x.delay = none → w.fieldPhrases x .delay = ([], true))

/-- The fragments of a list, in its items' places, and the incomplete flag: a clip that is not VALID is skipped and sets the flag, a
VALID one of length 0 gives nothing, an empty phrase entry sets the flag (R84, R102). -/
def Sys2Proof.Statements.ListExpanded : Prop :=
  ∀ (w : Vol) (nv : Nonvolatile) (r : Request) (x : Spoken),
    (r.template.bind w.template = none → w.expandTemplate nv r = ([], false))
    ∧ (∀ k rs, r.template.bind w.template = some k → rs = k.items.map (w.expandItem nv (w.spoken r)) →
        w.expandTemplate nv r = (rs.flatMap (·.1), rs.any (·.2)))
    ∧ (∀ n, w.expandItem nv x (.pause n) = ([.pause n], false))
    ∧ (∀ k n, w.expandItem nv x (.tone k n) = ([.tone k n], false))
    ∧ (∀ c, ((nv.clip c).state ≠ .valid → w.expandItem nv x (.clip c) = ([], true))
        ∧ ((nv.clip c).state = .valid → (nv.clip c).length = some 0 → w.expandItem nv x (.clip c) = ([], false))
        ∧ ∀ n, (nv.clip c).state = .valid → 0 < n → (nv.clip c).length = some n →
            w.expandItem nv x (.clip c) = ([.clip c n], false))
    ∧ (∀ f es missing rs, w.fieldPhrases x f = (es, missing) →
        rs = es.map (fun e => match e with
          | some c => w.expandItem nv x (.clip c)
          | none => ([], true)) →
        w.expandItem nv x (.field f) = (rs.flatMap (·.1), missing || rs.any (·.2)))

/-- The group a request's target resolves to, or none (R86). -/
def Sys2Proof.Statements.TargetResolved : Prop :=
  ∀ (w : Vol) (r : Request),
    (∀ g, r.override = some g → w.targetGroup r = some g)
    ∧ (∀ k, r.override = none → r.template.bind w.template = some k →
      (∀ g, k.target = .group g → w.targetGroup r = some g)
      ∧ (k.target = .callPlatform →
        (∀ slot t c, r.origin = .timetable → r.call = some (slot, t) → w.call slot = some c →
          w.targetGroup r = c.platform.bind fun p => (w.platform p).group)
        ∧ (∀ v, r.origin = .direct → r.values = some v → w.targetGroup r = v.platform.bind fun p => (w.platform p).group)
        ∧ (∀ p, r.origin = .contact → r.platform = some p → w.targetGroup r = (w.platform p).group))
      ∧ (k.target = .profile →
        (∀ slot t c, r.origin = .timetable → r.call = some (slot, t) → w.call slot = some c →
          w.targetGroup r = (w.profile c.profile).concourse)
        ∧ (r.origin = .direct ∨ r.origin = .contact → w.targetGroup r = none)))
    ∧ (r.override = none → r.template.bind w.template = none → w.targetGroup r = none)

/-- A voice begins the request it has been given: it ends FAILED without fragments and NO_TARGET without a target or with an empty
group; else it raises the use counts, places its claim, enters CUEING and makes its first demand (R102 to R104, R115). That the
expansion of an evacuation list is never empty is the model's reading (log entry 20). -/
def Sys2Proof.Statements.VoiceBegun : Prop :=
  (∀ (w w1 : Vol) (nv : Nonvolatile) (r : Request) (v : Nat) (fs : List Fragment) (incomplete : Bool),
      (r.origin = .evac → (fs, incomplete) = expandEvac nv w.listInForce) →
      (r.origin ≠ .evac → (fs, incomplete) = w.expandTemplate nv r) →
      w1 = (if incomplete = true then w.modRequest r.number fun x => { x with incomplete := true } else w) →
      (r.origin ≠ .evac →
        (fs = [] → w.beginVoice nv r v = w1.removeRequest r.number .failed)
        ∧ (fs ≠ [] → w1.targetGroup r = none ∨ (∃ g, w1.targetGroup r = some g ∧ w1.group g = []) →
          w.beginVoice nv r v = w1.removeRequest r.number .noTarget))
      ∧ (r.origin = .evac → w1.targetGroup r = some 31 → w1.group 31 = [] → ∃ w2,
          w2 = w1.removeRequest r.number .noTarget
            ∧ w.beginVoice nv r v = { w2 with evac := { w2.evac with request := none, list := none } })
      ∧ ∀ g c w2, fs ≠ [] → w1.targetGroup r = some g → w1.group g ≠ [] →
          w1.placeClaim (.voice v) g r.priority r.mode = (some c, w2) →
          w.beginVoice nv r v = ((w2.raiseUses fs).setVoice v
            { state := .cueing, request := some r.number, claim := some c,
              source := some (if r.origin = .evac then .evacuation else .template), frags := fs, cur := 0, pos := 0,
              buffer := [], demand := none, nextRead := 0, finished := false, newList := none, newListWaits := false,
              stalls := (w2.voice v).stalls, damaged := (w2.voice v).damaged }).makeDemand v)
    ∧ ∀ (nv : Nonvolatile) (items : List ListItem), (expandEvac nv items).1 ≠ []

/-- The use counts of a list: one for each distinct clip it names (R103). -/
def Sys2Proof.Statements.UsesCounted : Prop :=
  ∀ (w : Vol) (fs : List Fragment) (c : Nat),
    ((∃ n, Fragment.clip c n ∈ fs) →
      Sparse.get 0 (w.raiseUses fs).store.uses c = Sparse.get 0 w.store.uses c + 1
      ∧ (Sparse.wf 0 w.store.uses = true →
          Sparse.get 0 (w.lowerUses fs).store.uses c = Sparse.get 0 w.store.uses c - 1))
    ∧ ((∀ n, Fragment.clip c n ∉ fs) →
      Sparse.get 0 (w.raiseUses fs).store.uses c = Sparse.get 0 w.store.uses c
      ∧ (Sparse.wf 0 w.store.uses = true → Sparse.get 0 (w.lowerUses fs).store.uses c = Sparse.get 0 w.store.uses c))
    ∧ { (w.raiseUses fs) with store := { (w.raiseUses fs).store with uses := w.store.uses } } = w
    ∧ { (w.lowerUses fs) with store := { (w.lowerUses fs).store with uses := w.store.uses } } = w

/-- A voice is released: its claim is released, its use counts are given back, its demand is withdrawn, with a read of it in
progress discarded, its buffer is emptied and it is IDLE; its two counts stand (R87, R101, R107, R112 to R114, R122). -/
def Sys2Proof.Statements.VoiceReleased : Prop :=
  ∀ (w : Vol) (v : Nat), v < 8 →
    (∀ w1, (∀ c, (w.voice v).claim = some c → w1 = w.releaseClaim c) → ((w.voice v).claim = none → w1 = w) →
      w.releaseVoice v = ((w1.lowerUses (w.voice v).frags).withdrawDemand v).setVoice v
        { state := .idle, request := none, claim := none, source := none, frags := [], cur := 0, pos := 0, buffer := [],
          demand := none, nextRead := 0, finished := false, newList := none, newListWaits := false,
          stalls := (w.voice v).stalls, damaged := (w.voice v).damaged })
    ∧ ((w.withdrawDemand v).voice v = { w.voice v with demand := none })
    ∧ (∀ r, w.store.read = some r → r.user = .voice v →
        (w.withdrawDemand v).store = { w.store with read := some { r with user := .discarded } })
    ∧ ((∀ r, w.store.read = some r → r.user ≠ .voice v) → (w.withdrawDemand v).store = w.store)

/-- The read order of a list, and the demand a voice makes when it can: it is not IDLE, has none outstanding, holds fewer than four
pages, and has a page left in its read order (R106). -/
def Sys2Proof.Statements.PagesDemanded : Prop :=
  (∀ (fs : List Fragment) (r : PageRef),
      r ∈ readOrder fs ↔ ∃ n, fs[r.frag]? = some (.clip r.clip n) ∧ r.page * 2048 < n)
    ∧ (∀ fs : List Fragment, (readOrder fs).Pairwise fun a b => a.frag < b.frag ∨ (a.frag = b.frag ∧ a.page < b.page))
    ∧ ∀ (w : Vol) (v : Nat) (x : Voice), x = w.voice v →
      (x.state = .idle ∨ x.demand ≠ none ∨ 4 ≤ x.buffer.length ∨ (readOrder x.frags)[x.nextRead]? = none →
        w.makeDemand v = w)
      ∧ ∀ r, x.state ≠ .idle → x.demand = none → x.buffer.length < 4 → (readOrder x.frags)[x.nextRead]? = some r →
          w.makeDemand v = w.setVoice v { x with demand := some r, nextRead := x.nextRead + 1 }

/-- The page of the frame that the voice has reached is at the head of its buffer, or it needs none. -/
def Sys2Proof.Statements.PageAtHand (x : Voice) : Prop :=
  ∀ c n, x.frags[x.cur]? = some (.clip c n) →
    ∃ q rest, x.buffer = q :: rest ∧ q.ref = { frag := x.cur, clip := c, page := x.pos / 3 / 2048 }

/-- A frame of a PLAYING voice: it stalls where its page is missing, and counts the stall; else it produces its sample and goes one
frame on, dropping a page it has done with and demanding the next. One that is not PLAYING, or has produced its last frame,
produces 0 and stands (R106, R109, R110). Voice 7 at the end of its list stands in `EvacMarks`. That a sample is read from the
store when it is played is the model's reading (log entry 29). What `toneValue` is stands in `TonesRounded`. -/
def Sys2Proof.Statements.VoicePlays : Prop :=
  ∀ (w : Vol) (nv : Nonvolatile) (v : Nat) (x : Voice), x = w.voice v →
    (x.state ≠ .playing ∨ (x.finished = true ∧ x.source ≠ some .evacuation) → w.voiceFrame nv v = (0, w))
    ∧ (x.state = .playing → x.finished = false → ¬ PageAtHand x →
        w.voiceFrame nv v = (0, w.setVoice v { x with state := .stalled, stalls := min 255 (x.stalls + 1) }))
    ∧ (∀ k y done, x.state = .playing → x.finished = false → PageAtHand x → x.frags[x.cur]? = some k →
        y = (if x.pos + 1 < k.frames then { x with pos := x.pos + 1 }
          else { x with cur := x.cur + 1, pos := 0, finished := decide (x.frags.length ≤ x.cur + 1) }) →
        (done = true ↔ (∃ c n, k = .clip c n) ∧ (k.frames ≤ x.pos + 1 ∨ (x.pos + 1) / 3 / 2048 ≠ x.pos / 3 / 2048)) →
        w.voiceFrame nv v = (x.sample nv,
          if done = true then (w.setVoice v { y with buffer := y.buffer.drop 1 }).makeDemand v else w.setVoice v y))
    ∧ (∀ n, x.frags[x.cur]? = some (.pause n) → x.sample nv = 0)
    ∧ (∀ k n, x.frags[x.cur]? = some (.tone k n) → x.sample nv = toneValue k x.pos)
    ∧ (∀ c n q rest run, x.frags[x.cur]? = some (.clip c n) → x.buffer = q :: rest → (nv.clip c).run = some run →
        x.sample nv = if q.readable then (nv.sample run.1 run.2.1 (x.pos / 3)).toInt * 256 else 0)
    ∧ ∀ n k, (Fragment.clip k n).frames = 3 * n ∧ (Fragment.pause n).frames = 4800 * n ∧ (Fragment.tone k n).frames = 4800 * n

/-- The voices: what a block mark does to them, how a request is expanded and begun, the pages they demand, what a frame does to
them, and their release (R84 to R87, R92, R95, R101 to R104, R106, R108 to R110, R113, R114, R122). -/
def Obligations.VoiceMarks : Prop :=
  VoicesMarked ∧ SourceSpeaks ∧ FieldsRendered ∧ ListExpanded ∧ TargetResolved ∧ VoiceBegun ∧ UsesCounted ∧ VoiceReleased
    ∧ PagesDemanded ∧ VoicePlays

/-! ### The Span ports and the frame clock -/

/-- `w'` is `w` after port `p` has left LOCKED for `next`: a lock loss is counted, reassembly is abandoned, PORT STATE is sent, and
on UP every open source closes with LINK_LOST, in lane order, each as `SourceCloses` says, and the alignment buffer is SILENT and
empty; nothing else changes (R38, R164, R167, R171). -/
def Sys2Proof.Statements.LockLost (w : Vol) (p : Nat) (next : RxState) (cause : PortCause) (w' : Vol) : Prop :=
  ∃ (x : Port) (w1 : Vol), x = w.port p
    ∧ w1 = (w.setPort p { x with
        state := next, agreed := 0, badSyncs := 0, last := none, rx := .ignoring
        counts := { x.counts with
          lockLoss := min 255 (x.counts.lockLoss + 1)
          abandon := if x.rx.busy = true then min 255 (x.counts.abandon + 1) else x.counts.abandon } }).notify
      (.portState p next cause)
    ∧ (p ≠ 0 → w' = w1)
    ∧ (p = 0 → ∃ w2, w2 = (List.range 32).foldl (fun v l => v.closeSource l .linkLost) w1
        ∧ w' = { w2 with align := { w2.align with state := .silent, frames := [] } })

/-- The receive states: DOWN to HUNT at transitions, HUNT to VERIFY at a sync word, any state to DOWN when the line is
quiet; leaving LOCKED for DOWN counts a lock loss, abandons reassembly and, on UP, closes every live source and silences the
alignment buffer (R38, R164, R167, R171). The moves that an arriving frame makes stand in `FramesReceived`. That PORT STATE
comes first after the waiting notices, before LIVE END, is the model's choice (log entry 11); so is that activity and a sync
word that are not due change nothing (log entries 5 and 32). -/
def Obligations.PortStates : Prop :=
  ∀ (p : Fin 5) (s : State), s.running = true →
    ((s.vol.port p).state = .down →
      Happens (.portActivity p) s { s with vol := s.vol.setPort p { s.vol.port p with state := .hunt } })
    ∧ ((s.vol.port p).state ≠ .down → Happens (.portActivity p) s s)
    ∧ (∀ i : BitVec 6, ((s.vol.port p).state = .hunt →
        Happens (.syncFound p i) s
          { s with vol := s.vol.setPort p { s.vol.port p with state := .verify, agreed := 0, index := i.toNat } })
      ∧ ((s.vol.port p).state ≠ .hunt → Happens (.syncFound p i) s s))
    ∧ ((s.vol.port p).state = .down → Happens (.portActivityLost p) s s)
    ∧ ((s.vol.port p).state = .hunt ∨ (s.vol.port p).state = .verify →
      Happens (.portActivityLost p) s
        { s with
          vol := (s.vol.setPort p { s.vol.port p with state := .down, agreed := 0 }).notify
            (.portState p .down .activityLost) })
    ∧ ((s.vol.port p).state = .locked → ∃ w : Vol,
      Happens (.portActivityLost p) s { s with vol := w }
        ∧ (w.port p).state = .down ∧ (w.port p).rx = .ignoring ∧ (w.port p).last = none
        ∧ (w.port p).counts.lockLoss = min 255 ((s.vol.port p).counts.lockLoss + 1)
        ∧ (w.port p).counts.abandon =
            (if (s.vol.port p).rx.busy = true then min 255 ((s.vol.port p).counts.abandon + 1)
            else (s.vol.port p).counts.abandon)
        ∧ (w.port p).counts.missing = (s.vol.port p).counts.missing
        ∧ (s.vol.engine.notices.length < 24 →
            s.vol.engine.notices ++ [(s.vol.engine.address, .portState p .down .activityLost)] <+: w.engine.notices)
        ∧ (p = 0 → (∀ l < 32, w.source l = none) ∧ w.align.state = .silent ∧ w.align.frames = [])
        ∧ (p ≠ 0 → w.live = s.vol.live ∧ w.align = s.vol.align)
        ∧ LockLost s.vol p .down .activityLost w)

/-- A header of 8 or 40 covered bits with one bit in error, among the covered bits or the check bits, is corrected; without
error it is good (R165). -/
def Sys2Proof.Statements.OneErrorCorrected : Prop :=
  ∀ covered : List Bool, covered.length = 8 ∨ covered.length = 40 →
    decodeHeader covered (headerCheck covered) = .good
    ∧ (∀ i, i < covered.length →
        decodeHeader (covered.set i (!covered.getD i false)) (headerCheck covered) = .corrected covered)
    ∧ (∀ k, k < 7 → decodeHeader covered (headerCheck covered ^^^ (1#8 <<< k)) = .corrected covered)

/-- Whatever check bits are received with the covered bits: the recomputed checks 0 to 5 that disagree form a number, and check 6
disagrees when an odd number of the check bits 0 to 6 differ from those that the covered bits give. The header is uncorrectable when
check 6 agrees and the number is not 0, or when it disagrees and the number names neither a check bit nor a covered bit, of which the
last is 12 of 8 and 46 of 40; it is good when both agree, and corrected otherwise. Check bit 7 is not read (R165, step 1). -/
def Sys2Proof.Statements.HeadersDecoded : Prop :=
  ∀ (covered : List Bool) (check d : BitVec 8) (number last : Nat) (odd : Bool),
    (covered.length = 8 ∧ last = 12) ∨ (covered.length = 40 ∧ last = 46) → d = headerCheck covered ^^^ check →
    number = d.toNat % 64 → (odd = true ↔ ((List.range 7).filter fun k => d.getLsbD k).length % 2 = 1) →
    (decodeHeader covered check = .uncorrectable ↔
      (odd = false ∧ number ≠ 0) ∨ (odd = true ∧ last < number ∧ number ≠ 16 ∧ number ≠ 32))
    ∧ (decodeHeader covered check = .good ↔ odd = false ∧ number = 0)

/-- The header check corrects one error and finds two (R165). -/
def Obligations.HeaderErrorsCorrected : Prop := OneErrorCorrected ∧ HeadersDecoded

/-- A frame taken in LOCKED with a good header: its index and, on UP, its lanes are taken; its slot check decides whether
its audio or that of the last frame is used; its byte goes to reassembly, and a complete message is handed on (R12, R165,
R167, R171, R175). -/
def Sys2Proof.Statements.GoodFrames : Prop :=
  (∀ (f : UpFrame) (s : State) (x : Port) (lanes : LaneFrame) (counts : PortCounts) (rx : Reassembly)
      (result : ByteResult), s.running = true → x = s.vol.port 0 → x.state = .locked → f.sync = Config.syncWord →
      f.headerCheck = headerCheck (headBits f.index.toNat f.valid f.spare ++ presenceBits f.presence) →
      lanes = { presence := f.presence,
                slots := if slotCheck f.slots.toList f.byte = f.slotCheck then f.slots else (x.last.getD .silence).slots } →
      counts = { x.counts with
        indexJump := if f.index.toNat = nextIndex x.index then x.counts.indexJump else min 255 (x.counts.indexJump + 1)
        slotCheck := if slotCheck f.slots.toList f.byte = f.slotCheck then x.counts.slotCheck
          else min 255 (x.counts.slotCheck + 1)
        overflowSlip := if (s.vol.align.push lanes).1 = true then min 255 (x.counts.overflowSlip + 1)
          else x.counts.overflowSlip
        discard := if result = .discard then min 255 (x.counts.discard + 1) else x.counts.discard } →
      x.rx.take f.valid f.byte = (result, rx) → ∃ w : Vol,
      w = { s.vol with
            align := (s.vol.align.push lanes).2
            ports := tset s.vol.ports 0
              { x with badSyncs := 0, index := f.index.toNat, last := some lanes, rx := rx, counts := counts } }
        ∧ ((∀ bs, result ≠ .message bs) → Happens (.upstreamFrame f) s { s with vol := w })
        ∧ (∀ bs, result = .message bs → ∃ s1 : State, ({ s with vol := w } : State).EndsAs s1
            ∧ exec (.upstreamFrame f) s = .next (takeMessage bs s1)))
    ∧ (∀ (p : Fin 4) (f : NodeFrame) (s : State) (x : Port) (counts : PortCounts) (rx : Reassembly) (result : ByteResult),
      s.running = true → x = s.vol.port (p.val + 1) → x.state = .locked → f.sync = Config.syncWord →
      f.headerCheck = headerCheck (headBits f.index.toNat f.valid f.spare) →
      counts = { x.counts with
        indexJump := if f.index.toNat = nextIndex x.index then x.counts.indexJump else min 255 (x.counts.indexJump + 1)
        slotCheck := if slotCheck [] f.byte = f.slotCheck then x.counts.slotCheck else min 255 (x.counts.slotCheck + 1)
        discard := if result = .discard then min 255 (x.counts.discard + 1) else x.counts.discard } →
      x.rx.take f.valid f.byte = (result, rx) → ∃ w : Vol,
      w = s.vol.setPort (p.val + 1) { x with badSyncs := 0, index := f.index.toNat, rx := rx, counts := counts }
        ∧ ((∀ bs, result ≠ .message bs) → Happens (.nodeReturnFrame p f) s { s with vol := w })
        ∧ (∀ bs, result = .message bs → ∃ s1 : State, ({ s with vol := w } : State).EndsAs s1
            ∧ exec (.nodeReturnFrame p f) s = .next (takeReport p (reportOf bs) s1)))

/-- The same with a header that is corrected: index, flag and presence are those of the corrected header, and the corrected
headers are counted (R165, steps 1 and 2). -/
def Sys2Proof.Statements.CorrectedFrames : Prop :=
  (∀ (f : UpFrame) (j : Nat) (v sp : Bool) (presence : BitVec 32) (s : State) (x : Port) (lanes : LaneFrame) (counts : PortCounts) (rx : Reassembly)
      (result : ByteResult), s.running = true → x = s.vol.port 0 → x.state = .locked → f.sync = Config.syncWord →
      j < 64 → decodeHeader (headBits f.index.toNat f.valid f.spare ++ presenceBits f.presence) f.headerCheck
        = .corrected (headBits j v sp ++ presenceBits presence) →
      lanes = { presence := presence,
                slots := if slotCheck f.slots.toList f.byte = f.slotCheck then f.slots else (x.last.getD .silence).slots } →
      counts = { x.counts with
        correctedHeader := min 255 (x.counts.correctedHeader + 1)
        indexJump := if j = nextIndex x.index then x.counts.indexJump else min 255 (x.counts.indexJump + 1)
        slotCheck := if slotCheck f.slots.toList f.byte = f.slotCheck then x.counts.slotCheck
          else min 255 (x.counts.slotCheck + 1)
        overflowSlip := if (s.vol.align.push lanes).1 = true then min 255 (x.counts.overflowSlip + 1)
          else x.counts.overflowSlip
        discard := if result = .discard then min 255 (x.counts.discard + 1) else x.counts.discard } →
      x.rx.take v f.byte = (result, rx) → ∃ w : Vol,
      w = { s.vol with
            align := (s.vol.align.push lanes).2
            ports := tset s.vol.ports 0
              { x with badSyncs := 0, index := j, last := some lanes, rx := rx, counts := counts } }
        ∧ ((∀ bs, result ≠ .message bs) → Happens (.upstreamFrame f) s { s with vol := w })
        ∧ (∀ bs, result = .message bs → ∃ s1 : State, ({ s with vol := w } : State).EndsAs s1
            ∧ exec (.upstreamFrame f) s = .next (takeMessage bs s1)))
    ∧ (∀ (p : Fin 4) (f : NodeFrame) (j : Nat) (v sp : Bool) (s : State) (x : Port) (counts : PortCounts) (rx : Reassembly) (result : ByteResult),
      s.running = true → x = s.vol.port (p.val + 1) → x.state = .locked → f.sync = Config.syncWord →
      j < 64 → decodeHeader (headBits f.index.toNat f.valid f.spare) f.headerCheck = .corrected (headBits j v sp) →
      counts = { x.counts with
        correctedHeader := min 255 (x.counts.correctedHeader + 1)
        indexJump := if j = nextIndex x.index then x.counts.indexJump else min 255 (x.counts.indexJump + 1)
        slotCheck := if slotCheck [] f.byte = f.slotCheck then x.counts.slotCheck else min 255 (x.counts.slotCheck + 1)
        discard := if result = .discard then min 255 (x.counts.discard + 1) else x.counts.discard } →
      x.rx.take v f.byte = (result, rx) → ∃ w : Vol,
      w = s.vol.setPort (p.val + 1) { x with badSyncs := 0, index := j, rx := rx, counts := counts }
        ∧ ((∀ bs, result ≠ .message bs) → Happens (.nodeReturnFrame p f) s { s with vol := w })
        ∧ (∀ bs, result = .message bs → ∃ s1 : State, ({ s with vol := w } : State).EndsAs s1
            ∧ exec (.nodeReturnFrame p f) s = .next (takeReport p (reportOf bs) s1)))

/-- The command `i` is a frame with this sync field and index on port `p`. -/
def Sys2Proof.Statements.ArrivesOn (i : Instr) (p : Nat) (sync : BitVec 16) (index : Nat) : Prop :=
  (∃ f : UpFrame, i = .upstreamFrame f ∧ p = 0 ∧ sync = f.sync ∧ index = f.index.toNat)
    ∨ ∃ (q : Fin 4) (f : NodeFrame), i = .nodeReturnFrame q f ∧ p = q.val + 1 ∧ sync = f.sync ∧ index = f.index.toNat

/-- What a frame that arrives does to the receive state: nothing in DOWN and HUNT; in VERIFY the port goes on, returns to HUNT
or, at the third frame that agrees, is LOCKED, and that frame is the first one taken; in LOCKED the fourth bad sync in a row
makes it HUNT, and that frame is not counted as missing (R38, R164, R167, R171). -/
def Sys2Proof.Statements.FramesMoveStates : Prop :=
  ∀ (i : Instr) (p : Nat) (sync : BitVec 16) (index : Nat) (s : State) (x : Port), s.running = true →
    ArrivesOn i p sync index → x = s.vol.port p →
    (x.state = .down ∨ x.state = .hunt → Happens i s s)
    ∧ (x.state = .verify → sync ≠ 0xE4B1#16 ∨ index ≠ (x.index + 1) % 48 →
      Happens i s { s with vol := s.vol.setPort p { x with state := .hunt, agreed := 0 } })
    ∧ (x.state = .verify → sync = 0xE4B1#16 → index = (x.index + 1) % 48 → x.agreed + 1 ≠ 3 →
      Happens i s { s with vol := s.vol.setPort p { x with agreed := x.agreed + 1, index := index } })
    ∧ (∀ w, x.state = .verify → sync = 0xE4B1#16 → index = (x.index + 1) % 48 → x.agreed + 1 = 3 →
      w = (s.vol.setPort p { x with state := .locked, agreed := 0, badSyncs := 0, last := none, rx := .ignoring }).notify
        (.portState p .locked .verified) →
      (∃ t, exec i s = .next t) ∧ (p ≠ 0 → exec i s = exec i { s with vol := w })
        ∧ (p = 0 → exec i s = exec i { s with vol := { w with align := { w.align with state := .filling, frames := [] } } }))
    ∧ (x.state = .locked → sync ≠ 0xE4B1#16 → x.badSyncs + 1 = 4 → ∃ w : Vol, Happens i s { s with vol := w }
        ∧ (w.port p).state = .hunt ∧ (w.port p).agreed = 0 ∧ (w.port p).badSyncs = 0 ∧ (w.port p).rx = .ignoring
        ∧ (w.port p).last = none ∧ (w.port p).counts.missing = x.counts.missing
        ∧ (w.port p).counts.lockLoss = min 255 (x.counts.lockLoss + 1)
        ∧ (w.port p).counts.abandon = (if x.rx.busy = true then min 255 (x.counts.abandon + 1) else x.counts.abandon)
        ∧ (s.vol.engine.notices.length < 24 →
            s.vol.engine.notices ++ [(s.vol.engine.address, .portState p .hunt .badSync)] <+: w.engine.notices)
        ∧ (p = 0 → (∀ l < 32, w.source l = none) ∧ w.align.state = .silent ∧ w.align.frames = [])
        ∧ (p ≠ 0 → w.live = s.vol.live ∧ w.align = s.vol.align)
        ∧ LockLost s.vol p .hunt .badSync w)

/-- The port record after a frame that counts as missing, `bad` bad syncs in a row with it (R165, R171). -/
def Sys2Proof.Statements.missedPort (x : Port) (bad : Nat) : Port :=
  { x with
    badSyncs := bad, index := (x.index + 1) % 48, rx := .ignoring
    counts := { x.counts with
      missing := min 255 (x.counts.missing + 1)
      abandon := if x.rx.busy = true then min 255 (x.counts.abandon + 1) else x.counts.abandon } }

/-- A frame in LOCKED with a bad sync, before the fourth in a row, or with an uncorrectable header counts as missing: the next
index is expected, reassembly is abandoned, and on UP the lanes of the last frame taken, or silence, enter the alignment buffer
(R165, R167, R171). The index after it, and that a port without a message ignores flagged bytes too, are the model's reading (log
entry 19). -/
def Sys2Proof.Statements.FramesMissing : Prop :=
  (∀ (f : UpFrame) (s : State) (x : Port) (bad : Nat), s.running = true → x = s.vol.port 0 → x.state = .locked →
      (f.sync ≠ 0xE4B1#16 ∧ bad = x.badSyncs + 1 ∧ bad ≠ 4) ∨ (f.sync = 0xE4B1#16 ∧ bad = 0
        ∧ decodeHeader (headBits f.index.toNat f.valid f.spare ++ presenceBits f.presence) f.headerCheck = .uncorrectable) →
      Happens (.upstreamFrame f) s
        { s with
          vol := { s.vol with
            align := (s.vol.align.push (x.last.getD .silence)).2
            ports := tset s.vol.ports 0 { missedPort x bad with
              counts := { (missedPort x bad).counts with
                overflowSlip := if (s.vol.align.push (x.last.getD .silence)).1 = true then min 255 (x.counts.overflowSlip + 1)
                  else x.counts.overflowSlip } } } })
    ∧ (∀ (p : Fin 4) (f : NodeFrame) (s : State) (x : Port) (bad : Nat), s.running = true →
      x = s.vol.port (p.val + 1) → x.state = .locked →
      (f.sync ≠ 0xE4B1#16 ∧ bad = x.badSyncs + 1 ∧ bad ≠ 4) ∨ (f.sync = 0xE4B1#16 ∧ bad = 0
        ∧ decodeHeader (headBits f.index.toNat f.valid f.spare) f.headerCheck = .uncorrectable) →
      Happens (.nodeReturnFrame p f) s { s with vol := s.vol.setPort (p.val + 1) (missedPort x bad) })
    ∧ (∀ x : Reassembly, x.busy = true ↔ ∃ bs, x = .run bs)

/-- The four tests of a run at its end: its length, the body length its header gives, and the message check (R171). -/
def Sys2Proof.Statements.RunPasses (bs : List Byte) : Prop :=
  10 ≤ bs.length ∧ bs.length ≤ 4170
    ∧ (bs.getD 6 0).toNat * 256 + (bs.getD 7 0).toNat ≤ 4160
    ∧ bs.length = (bs.getD 6 0).toNat * 256 + (bs.getD 7 0).toNat + 10
    ∧ crc16 (bs.take (bs.length - 2)) =
        (bs.getD (bs.length - 2) 0).toNat * 256 + (bs.getD (bs.length - 1) 0).toNat

/-- Reassembly, byte by byte: after entering LOCKED and after an abandon flagged bytes are ignored up to a frame with flag clear; a
run begins with the first flagged byte after one, is discarded as soon as it exceeds 4,170 bytes, its later bytes ignored, and ends
at the next clear flag, where it is a message if it passes the four tests and is discarded if it fails one (R171). -/
def Sys2Proof.Statements.Reassembles : Prop :=
  ∀ (b : Byte) (bs : List Byte),
    Reassembly.take .ignoring true b = (.nothing, .ignoring) ∧ Reassembly.take .ignoring false b = (.nothing, .ready)
    ∧ Reassembly.take .ready true b = (.nothing, .run [b]) ∧ Reassembly.take .ready false b = (.nothing, .ready)
    ∧ (bs.length < 4170 → Reassembly.take (.run bs) true b = (.nothing, .run (bs ++ [b])))
    ∧ (4170 ≤ bs.length → Reassembly.take (.run bs) true b = (.discard, .ignoring))
    ∧ (RunPasses bs → Reassembly.take (.run bs) false b = (.message (bs.take (bs.length - 2)), .ready))
    ∧ (¬ RunPasses bs → Reassembly.take (.run bs) false b = (.discard, .ready))

/-! #### Requests as bytes (R174, R179): the bytes that spell a request's operands -/

/-- An optional field behind its presence byte: a value as `bytes` gives it, or `n` bytes of ones where it is not carried. -/
def Sys2Proof.Statements.spellOptional (n : Nat) (bytes : Nat → List Byte) : Option Nat → List Byte
  | none => 0 :: List.replicate n 0xFF
  | some x => 2 :: bytes x

/-- A field behind its presence byte that can be left, cleared or carried. -/
def Sys2Proof.Statements.spellCarried (n : Nat) (bytes : Nat → List Byte) : Carried Nat → List Byte
  | .left => 0 :: List.replicate n 0xFF
  | .cleared => 1 :: List.replicate n 0xFF
  | .value x => 2 :: bytes x

/-- A field of one byte. -/
def Sys2Proof.Statements.spellByte (n : Nat) : List Byte := [byteOf n]

/-- A target and its argument. -/
def Sys2Proof.Statements.spellTarget : Target → List Byte
  | .group g => [0, byteOf g]
  | .callPlatform => [1, 0xFF]
  | .profile => [2, 0xFF]

/-- A template item: kind, value, tone (R179). -/
def Sys2Proof.Statements.spellItem : Item → List Byte
  | .clip c => [0] ++ two c ++ [0xFF]
  | .field f => [1] ++ two (fieldCode f) ++ [0xFF]
  | .pause n => [2] ++ two n ++ [0xFF]
  | .tone t n => [3] ++ two n ++ [byteOf t]

/-- A fragment of PROGRAM WRITE, as a template item. -/
def Sys2Proof.Statements.spellListItem : ListItem → List Byte
  | .clip c => [0] ++ two c ++ [0xFF]
  | .tone t n => [3] ++ two n ++ [byteOf t]

/-- An evacuation line of PROGRAM WRITE, all ones for none. -/
def Sys2Proof.Statements.spellEvacLine : Option EvacLine → List Byte
  | none => [0xFF, 0xFF, 0xFF]
  | some x => [byteOf (fnCode (.evac x.fn)), byteOf (polarityCode x.polarity), byteOf x.debounce]

/-- A record of a phrase class: first index, count, entries. -/
def Sys2Proof.Statements.spellPhrase (first : Nat) (es : List (Option Nat)) : List Byte :=
  two first ++ [byteOf es.length] ++ es.flatMap twoOr

/-- The writable fields of a record of class ZONE. -/
def Sys2Proof.Statements.spellZone (r : ZoneRecord) : List Byte :=
  [byteOf r.zone, oneOr r.port, oneOr r.slot, flag r.enabled, oneOr r.bgLane, byteOf r.bgBase, byteOf r.duck,
    byteOf r.fgBase, byteOf r.evacBase, oneOr r.fallback, flag r.compOn, byteOf r.compRef, byteOf r.compLimit]

/-- A record of class PROFILE. -/
def Sys2Proof.Statements.spellProfile (r : ProfileRecord) : List Byte :=
  [byteOf r.profile] ++ two r.approachLead ++ two r.boardingLead ++ two r.finalLead ++ two r.clearDelay
    ++ [byteOf r.delayThreshold, oneOr r.concourse] ++ r.templates.toList.map oneOr

/-- A record of class TEMPLATE. -/
def Sys2Proof.Statements.spellTemplate (r : TemplateRecord) : List Byte :=
  [byteOf r.template] ++ spellTarget r.target ++ [byteOf r.priority, byteOf (modeCode r.mode), byteOf (resumeCode r.resume),
    byteOf r.repeats] ++ two r.gap ++ two r.window ++ [byteOf r.items.length] ++ r.items.flatMap spellItem

/-- The writable fields of a record of class CONTACT_LINE. -/
def Sys2Proof.Statements.spellLine (r : LineRecord) : List Byte :=
  [byteOf r.line, byteOf (fnCode r.fn), byteOf (polarityCode r.polarity), byteOf r.debounce, byteOf (reportCode r.report)]
    ++ fnParams r.fn

/-- The index fields of TABLE READ. -/
def Sys2Proof.Statements.spellIndex : ReadIndex → List Byte
  | .none => []
  | .one i => [byteOf i]
  | .range first count => two first ++ [byteOf count]

/-- LIVE START. -/
def Sys2Proof.Statements.spellLive (l : LiveStart) (evacuation : Bool) : List Byte :=
  [byteOf l.lane, byteOf l.group, byteOf l.priority] ++ two l.limit ++ [flag evacuation]

/-- CALL LOAD. -/
def Sys2Proof.Statements.spellCall (c : CallLoad) : List Byte :=
  [byteOf c.slot, if c.kind = .arrive then 0 else 1] ++ two c.service ++ [byteOf c.destination, oneOr c.platform]
    ++ four c.scheduled ++ spellOptional 4 four c.expected ++ [byteOf c.profile]

/-- ANNOUNCE. -/
def Sys2Proof.Statements.spellAnnounce (a : Announcement) : List Byte :=
  [byteOf a.template] ++ spellOptional 1 spellByte a.priority ++ spellOptional 1 spellByte a.group
    ++ spellOptional 4 four a.notBefore ++ spellOptional 1 spellByte a.values.platform
    ++ spellOptional 1 spellByte a.values.destination ++ spellOptional 4 four a.values.scheduled
    ++ spellOptional 4 four a.values.expected ++ spellOptional 2 two a.values.delay

/-- PROGRAM WRITE. -/
def Sys2Proof.Statements.spellProgram (p : ProgramFields) : List Byte :=
  p.enabled.toList.map flag ++ [oneOr p.lane] ++ [byteOf p.alertList.length] ++ p.alertList.flatMap spellListItem
    ++ [byteOf p.evacList.length] ++ p.evacList.flatMap spellListItem ++ two p.duration ++ p.lines.toList.flatMap spellEvacLine

/-- The body of the message that a request is, kind by kind; a TABLE WRITE or TABLE READ begins with its class. -/
def Sys2Proof.Statements.bodyOf : Instr → List Byte
  | .address _ a => [byteOf a]
  | .status _ clear => [flag clear]
  | .resetAudio _ => [0]
  | .resetFull _ => [1]
  | .alertMask _ cs => byteOf cs.length :: cs.map byteOf
  | .tableWriteZone _ r => 0 :: spellZone r
  | .tableWriteGroup _ g ms => [1, byteOf g, byteOf ms.length] ++ ms.map byteOf
  | .tableWritePlatform _ p g t => [2, byteOf p, oneOr g, oneOr t]
  | .tableWriteProfile _ r => 3 :: spellProfile r
  | .tableWriteTemplate _ r => 4 :: spellTemplate r
  | .tableWriteHours _ first es => 5 :: spellPhrase first es
  | .tableWriteMinutes _ first es => 6 :: spellPhrase first es
  | .tableWriteNumbers _ first es => 7 :: spellPhrase first es
  | .tableWritePlatformsPhrase _ first es => 8 :: spellPhrase first es
  | .tableWriteDestinations _ first es => 9 :: spellPhrase first es
  | .tableWriteContactLine _ r => 10 :: spellLine r
  | .tableWriteGenerator _ g p r f => [11, byteOf g] ++ two p ++ two r ++ two f
  | .tableWriteLinkConfig _ d rate => [12] ++ two d ++ [byteOf rate]
  | .tableWriteUnassigned _ cls => [byteOf cls]
  | .tableRead _ cls i => byteOf cls :: spellIndex i
  | .time _ time dayBase => four time ++ four dayBase
  | .callLoad _ c => spellCall c
  | .callUpdate _ slot e p => [byteOf slot] ++ spellCarried 4 four e ++ spellCarried 1 spellByte p
  | .callMarkArrived _ slot => [byteOf slot, 0]
  | .callMarkDeparted _ slot => [byteOf slot, 1]
  | .callCancel _ slot => [byteOf slot]
  | .callRemove _ slot => [byteOf slot]
  | .announce _ a => spellAnnounce a
  | .announceCancel _ n => two n
  | .liveStart _ l => spellLive l false
  | .liveStartEvac _ l => spellLive l true
  | .liveStop _ lane => [byteOf lane]
  | .gainSet _ es => byteOf es.length
      :: es.flatMap fun e => [byteOf e.zone] ++ spellOptional 1 spellByte e.fg ++ spellOptional 1 spellByte e.bg
  | .monitorSelect _ z => [oneOr z]
  | .clipOpen _ c bank n => two c ++ [byteOf (bankCode bank)] ++ two n
  | .pageWrite _ c i data => two c ++ [byteOf i] ++ data
  | .clipSeal _ c length check => two c ++ four length ++ four check.toNat
  | .clipRetire _ c => two c
  | .sectorEraseArm _ bank sector => [byteOf (bankCode bank), byteOf sector]
  | .sectorEraseGo _ bank sector => [byteOf (bankCode bank), byteOf sector]
  | .guardSet _ m => [if m = .g1 then 0 else 1]
  | .guardClear _ m => [if m = .g1 then 0 else 1]
  | .programWrite _ p => spellProgram p
  | _ => []

/-- The bytes of a message without its check: destination, source, kind, class, tag, body length, body (R174). -/
def Sys2Proof.Statements.spelled (destination source kind cls tag : Nat) (body : List Byte) : List Byte :=
  [byteOf destination, byteOf source, byteOf kind, byteOf cls] ++ two tag ++ two body.length ++ body

/-- The kinds of request whose bodies have one length, with that length (R174). -/
def Sys2Proof.Statements.fixedLengths : List (Nat × Nat) :=
  [(1, 0), (2, 1), (3, 1), (4, 1), (8, 8), (9, 16), (10, 8), (11, 2), (12, 1), (13, 1), (14, 27), (15, 2), (16, 6), (17, 1),
    (19, 1), (20, 0), (21, 0), (22, 0), (23, 5), (24, 4099), (25, 10), (26, 2), (27, 2), (28, 2), (29, 0), (30, 1), (31, 1)]

/-- Test 6 of R175 is of the length alone: a request that has its place and whose body has another length is answered BAD_ARG, and
its owner does not see it; one of the right length goes to its owner, so a SECTOR ERASE GO whose bank byte names no bank runs as one
whose sector is out of range, which leaves the erase arm clear (R130, `StoreChecks`). -/
def Sys2Proof.Statements.LengthsTested : Prop :=
  (∀ (kind n : Nat) (h : RequestHeader) (body : List Byte) (s : State) (place : Nat), (kind, n) ∈ fixedLengths →
      body.length ≠ n → h.wf = true → s.Serves h place → s.vol.engine.address ≠ 0 ∨ kind = 1 ∨ kind = 2 →
      takeMessage (spelled h.destination h.source kind 1 h.tag body) s = (s.replied h kind place .badArg .none).finish)
    ∧ ∀ (h : RequestHeader) (bank sector x : Nat) (s : State), h.wf = true → 3 ≤ bank → bank < 256 → 8 ≤ sector →
      sector < 256 →
      exec (.sectorEraseGo h .r sector) s =
        .next (takeMessage (spelled h.destination h.source 28 1 h.tag [byteOf bank, byteOf x]) s)

/-- A complete message on UP of class request that spells a request, its operands any that its coding can carry, runs as the
command does, an unknown kind among them; one of another class is discarded and counted (R174, R175, R179). The codings are those of
log entry 14; that the command, as a message given complete, needs no LOCKED port is log entry 15. -/
def Sys2Proof.Statements.MessagesRun : Prop :=
  (∀ (i : Instr) (h : RequestHeader) (kind : Nat) (s : State), i.request = some (h, kind) → i.wf = true →
      exec i s = .next (takeMessage (spelled h.destination h.source kind 1 h.tag (bodyOf i)) s))
    ∧ ∀ (bs : List Byte) (s : State), (bs.getD 3 0).toNat ≠ 1 →
      takeMessage bs s = { s with vol := { s.vol with engine :=
        { s.vol.engine with classDiscards := min 255 (s.vol.engine.classDiscards + 1) } } }

/-- A complete message on a downstream channel that spells a ZONE REPORT runs as the command does, whatever its kind and class; one
whose body is not three bytes long is discarded and counted (R12, R174; log entry 28). -/
def Sys2Proof.Statements.ReportsRun : Prop :=
  (∀ (p : Fin 4) (destination source tag : Nat) (r : ReportMessage) (s : State), s.running = true →
      (Instr.zoneReport p r).wf = true →
      exec (.zoneReport p r) s = .next (takeReport p
        (reportOf (spelled destination source r.kind r.cls tag [byteOf r.slot, byteOf r.condition, oneOr r.ambient])) s))
    ∧ ∀ (p : Nat) (bs : List Byte) (s : State), bs.length ≠ 11 →
      takeReport p (reportOf bs) s = { s with vol := { s.vol with reportDiscards := min 255 (s.vol.reportDiscards + 1) } }

/-- Frames received: those taken in LOCKED with a good or a corrected header, those that count as missing, what an arriving frame
does to the receive state, the reassembly of messages, and what a complete message runs (R12, R164, R165, R167, R171, R174, R175,
R179). -/
def Obligations.FramesReceived : Prop :=
  GoodFrames ∧ CorrectedFrames ∧ FramesMoveStates ∧ FramesMissing ∧ Reassembles ∧ MessagesRun ∧ LengthsTested ∧ ReportsRun

/-- Every frame of the frame clock adds one to the frame count, sends one frame on every port under that count, and takes
the block mark when the count is 0: the generators step, the clock counts the mark, and the parts taken ahead are forgotten
(R54, R147, R162, R163, R169). -/
def Sys2Proof.Statements.FrameTaken : Prop :=
  ∀ (x : FrameInput) (s : State), s.running = true → ∃ t, exec (.frameClockFrame x) s = .next t ∧ t.power = s.power
    ∧ t.pending = s.pending
    ∧ t.vol.fclk.count = (if s.vol.fclk.fresh = true then 0 else (s.vol.fclk.count + 1) % 48) ∧ t.vol.fclk.fresh = false
    ∧ t.vol.sent.up.sync = Config.syncWord ∧ t.vol.sent.up.index = t.vol.fclk.count ∧ t.vol.sent.up.spare = false
    ∧ t.vol.sent.up.headerCheck = headerCheck (headBits t.vol.fclk.count t.vol.sent.up.valid false)
    ∧ t.vol.sent.up.slotCheck = slotCheck [t.vol.sent.up.monitor] t.vol.sent.up.byte
    ∧ (∀ p < 4, (tget DownFrame.zero t.vol.sent.down p).sync = Config.syncWord
        ∧ (tget DownFrame.zero t.vol.sent.down p).index = t.vol.fclk.count
        ∧ (tget DownFrame.zero t.vol.sent.down p).valid = false
        ∧ (tget DownFrame.zero t.vol.sent.down p).slots.length = 16
        ∧ (tget DownFrame.zero t.vol.sent.down p).slotCheck =
            slotCheck (tget DownFrame.zero t.vol.sent.down p).slots 0)
    ∧ t.vol.sent.mixed.length = 64 ∧ (∀ y ∈ t.vol.sent.mixed, -8388608 ≤ y ∧ y ≤ 8388607)
    ∧ (s.vol.atMark = true → t.vol.fclk.done = [])
    ∧ (s.vol.atMark = true → ∀ g < 4, s.vol.taken (.gen g) = false → t.vol.gen g = (s.vol.gen g).step)
    ∧ (s.vol.atMark = true → s.vol.taken .second = false → s.vol.clock.isSet = true → s.vol.clock.marks < 999 →
        t.vol.clock = { s.vol.clock with marks := s.vol.clock.marks + 1 })
    ∧ (s.vol.atMark = false → t.vol.gens = s.vol.gens ∧ t.vol.clock = s.vol.clock ∧ t.vol.evac.timer = s.vol.evac.timer
        ∧ t.vol.fclk.done = s.vol.fclk.done
        ∧ ∀ l < 16, (t.vol.line l).debounced = (s.vol.line l).debounced ∧ (t.vol.line l).shown = (s.vol.line l).shown)

/-- The step of a generator at a block mark: phase 0 at the first one after its reset; then one more at each, until the phase would
reach 10 times P, where the staged values, if there are any, are taken and the phase is 0 again (R147, R148). -/
def Sys2Proof.Statements.GeneratorSteps : Prop :=
  ∀ x : Generator,
    (x.started = false → x.step = { x with started := true, phase := 0 })
    ∧ (x.started = true → x.phase + 1 < 10 * x.p → x.step = { x with phase := x.phase + 1 })
    ∧ (x.started = true → 10 * x.p ≤ x.phase + 1 →
        (x.staged = none → x.step = { x with phase := 0 })
        ∧ ∀ p r f, x.staged = some (p, r, f) →
            x.step = { started := true, p := p, r := r, f := f, phase := 0, staged := none })

/-- What the down frames of a frame of the frame clock carry (R50, R162, R163). -/
def Sys2Proof.Statements.DownFramesSent : Prop :=
  ∀ (x : FrameInput) (s : State), s.running = true → ∃ t, exec (.frameClockFrame x) s = .next t
    ∧ ∀ p < 4, ∃ d, d = tget DownFrame.zero t.vol.sent.down p ∧ d.spare = false ∧ d.byte = 0
      ∧ d.headerCheck = headerCheck (headBits t.vol.fclk.count false false)
      ∧ ∀ q < 16, ((∀ z < 64, (t.vol.zone z).placement ≠ some (p, q)) → d.slots.getD q 0 = 0)
        ∧ (∀ z < 64, (t.vol.zone z).placement = some (p, q) → (∀ y < z, (t.vol.zone y).placement ≠ some (p, q)) →
            d.slots.getD q 0 = BitVec.ofInt 24 (t.vol.sent.mixed.getD z 0))

/-- The message byte of an upstream return frame: the next byte of the message in sending; with none, or one whose last byte has
gone, which is ended and whose reply place is free, and while UP is LOCKED and the last frame had its flag clear, the first byte of
the earliest reply, or else of the oldest notice, which is then in sending; else the flag clear and byte 0 (R172, R177). That the
frame itself ends a message and starts the next is the model's reading (log entry 8). -/
def Sys2Proof.Statements.MessageByteSent : Prop :=
  ∀ (x : FrameInput) (s : State), s.running = true → ∃ t, exec (.frameClockFrame x) s = .next t
    ∧ (∀ m b rest, s.vol.engine.sending = some m → m.rest = b :: rest →
        t.vol.sent.up.valid = true ∧ t.vol.sent.up.byte = b ∧ t.vol.engine.sending = some { m with rest := rest })
    ∧ (s.vol.engine.sending = none ∨ (∃ m, s.vol.engine.sending = some m ∧ m.rest = []) →
        (∀ m p, s.vol.engine.sending = some m → m.place = some p → tget none t.vol.engine.places p = none)
        ∧ ((s.vol.port 0).state ≠ .locked ∨ s.vol.sent.up.valid = true →
          t.vol.sent.up.valid = false ∧ t.vol.sent.up.byte = 0 ∧ t.vol.engine.sending = none)
        ∧ ((s.vol.port 0).state = .locked → s.vol.sent.up.valid = false →
          (∀ place rest r b bs, s.vol.engine.waiting = place :: rest → tget none s.vol.engine.places place = some r →
            (∀ m, s.vol.engine.sending = some m → m.place ≠ some place) → r.message = b :: bs →
            t.vol.sent.up.valid = true ∧ t.vol.sent.up.byte = b
              ∧ t.vol.engine.sending = some { rest := bs, place := some place } ∧ t.vol.engine.waiting = rest)
          ∧ (∀ source n rest b bs, s.vol.engine.waiting = [] → s.vol.engine.notices = (source, n) :: rest →
            noticeMessage source n = b :: bs →
            t.vol.sent.up.valid = true ∧ t.vol.sent.up.byte = b
              ∧ t.vol.engine.sending = some { rest := bs, place := none } ∧ rest <+: t.vol.engine.notices)
          ∧ (s.vol.engine.waiting = [] → s.vol.engine.notices = [] → s.vol.readDue = false →
            s.vol.store.op.overdue = false →
            t.vol.sent.up.valid = false ∧ t.vol.sent.up.byte = 0 ∧ t.vol.engine.sending = none)))

/-- The mixed output of every zone: the foreground audio of its holder and the audio of its background lane, each at its level,
added and saturated (R49, R50, R166). `v` is the part as the frame hands it to the voices, its block mark taken; `samples` is
what the eight voices produce on it, each by its own frame (`VoicePlays`), and `w` the part they leave, which is mixed: 0 for
a voice that does not play, and between block marks the audio of the fragment reached (R109, R111). That a clip's sample is read
from the store when it is played is the model's reading (log entry 29). What `toneValue` is stands in `TonesRounded`. -/
def Sys2Proof.Statements.FrameMixed : Prop :=
  ∀ (x : FrameInput) (s b : State) (v w : Vol) (samples : List Int), s.running = true → b = beforeFrame s x.verdict →
    v = b.vol.giveLanes.atSamples b.nv x.levels → (samples, w) = v.voiceFrames b.nv → ∃ t : State,
    exec (.frameClockFrame x) s = .next t ∧ samples.length = 8
    ∧ t.vol.sent.mixed = w.mixAll samples ∧ w.claims = v.claims ∧ w.zones = v.zones
    ∧ (∀ n < 8, samples.getD n 0 = (v.voiceFrame b.nv n).1 ∧ w.voice n = (v.voiceFrame b.nv n).2.voice n)
    ∧ (∀ z < 64, (w.zone z).fixed = (t.vol.zone z).fixed)
    ∧ (w.exhaustedVoice = none → w.claims = t.vol.claims ∧ w.voices = t.vol.voices
        ∧ ∀ z < 64, (w.zone z).holder = (t.vol.zone z).holder)
    ∧ (∀ n < 8, (w.voice n).state ≠ .playing → samples.getD n 0 = 0)
    ∧ (s.vol.atMark = false → s.vol.readDue = false → s.vol.store.op.overdue = false → ∀ k < 8, ∀ y, y = s.vol.voice k →
        y.state = .playing → y.finished = false →
        (∀ n, y.frags[y.cur]? = some (.pause n) → samples.getD k 0 = 0)
        ∧ (∀ a n, y.frags[y.cur]? = some (.tone a n) → samples.getD k 0 = toneValue a y.pos)
        ∧ (∀ c n q rest run, y.frags[y.cur]? = some (.clip c n) → y.buffer = q :: rest →
            q.ref = { frag := y.cur, clip := c, page := y.pos / 3 / Config.pageSamples } → (s.nv.clip c).run = some run →
            samples.getD k 0 = if q.readable then (s.nv.sample run.1 run.2.1 (y.pos / 3)).toInt * 256 else 0))
    ∧ ∀ z < 64, ∃ fg bg : Int,
      t.vol.sent.mixed.getD z 0 = max (-8388608) (min 8388607
          (attenuate fg (t.vol.gain z).fgLevel + attenuate bg (t.vol.gain z).bgLevel))
      ∧ ((w.zone z).holder.bind w.claim = none → fg = 0)
      ∧ (∀ h c k, (w.zone z).holder = some h → w.claim h = some c → c.owner = .voice k → fg = samples.getD k 0)
      ∧ (∀ h c l, (w.zone z).holder = some h → w.claim h = some c → c.owner = .live l →
          fg = if t.vol.align.out.presence.getLsbD l = true then (tget 0 t.vol.align.out.slots l).toInt else 0)
      ∧ ((t.vol.zone z).bgLane = none → bg = 0)
      ∧ (∀ l, (t.vol.zone z).bgLane = some l →
          bg = if t.vol.align.out.presence.getLsbD l = true then (tget 0 t.vol.align.out.slots l).toInt else 0)

/-- The block mark takes every part that no command has taken ahead, in one fixed order, which is the model's choice (log entry
6). -/
def Sys2Proof.Statements.MarkRuns : Prop :=
  ∀ (w w1 w2 w3 w4 w5 w6 w7 : Vol) (nv : Nonvolatile) (levels : BitVec 16),
    w1 = (if w.taken .list = true then w else w.listEvent nv) →
    w2 = (List.range 64).foldl (fun v z => if w.taken (.silence z) = true then v else v.silenceMark nv z) (w1.clockMark nv) →
    w3 = (if w.taken .alert = true then w2 else w2.alertEvent nv) →
    w4 = (List.range 32).foldl (fun v l => if w.taken (.talk l) = true then v else v.talkEvent nv l) w3 →
    w5 = (List.range 32).foldl
      (fun v l => if w.taken (.absence l) = true then v else v.absenceMark (v.align.out.presence.getLsbD l) l) w4 →
    w6 = (List.range 16).foldl (fun v l => if w.taken (.line l) = true then v else v.lineMark nv l (levels.getLsbD l)) w5 →
    w7 = (List.range 8).foldl (fun v n => if w.taken (.voice n) = true then v else (v.voiceMark nv n).finish nv) w6 →
    w.markParts nv levels = w7
    ∧ w.blockMark nv levels =
        (let m := (w.atOutputs nv levels).showLines.setVoice 7
          { (w.atOutputs nv levels).showLines.voice 7 with newListWaits := false }
        { m with fclk := { m.fclk with done := [] } })
    ∧ (w.listDue = true → w.listEvent nv = (w.takeList nv 7).finish nv) ∧ (w.listDue = false → w.listEvent nv = w)

/-- What a block mark does to a silence timer, the alert timer, a talk time, an absence time, a line's stand count and the station
clock, with an event and without (R14, R38, R39, R54, R141, R143, R154). A second that a command has taken ahead leaves the queue's
tests of the new time to the mark (log entry 6). That an OUTPUT line keeps the raw level last read while it was an input is the
model's reading of 8.1 (log entry 40). -/
def Sys2Proof.Statements.MarksCount : Prop :=
  (∀ (w : Vol) (nv : Nonvolatile) (z : Nat) (x : Zone), x = w.zone z →
      (x.enabled = false ∨ x.placement = none ∨ 5000 ≤ x.silence → w.silenceMark nv z = w)
      ∧ (x.enabled = true → x.placement ≠ none → x.silence < 4999 →
          w.silenceMark nv z = w.setZone z { x with silence := x.silence + 1 })
      ∧ (x.enabled = true → x.placement ≠ none → x.silence = 4999 → w.silenceMark nv z = (w.zoneEvent nv z fun y =>
          { y with silence := 5000, cond := .silent, history := y.history.join .silent, normals := 0, ambient := none }).finish nv))
    ∧ (∀ (w w1 : Vol) (nv : Nonvolatile), w1 = { w with evac := { w.evac with timer := w.evac.timer + 1 } } →
      (w.evac.state ≠ .alert → w.alertEvent nv = w)
      ∧ (w.evac.state = .alert → w.evac.timer + 1 < w.evac.duration * 1000 → w.alertEvent nv = w1)
      ∧ (w.evac.state = .alert → w.evac.duration * 1000 ≤ w.evac.timer + 1 →
          w.alertEvent nv = (w1.enterEvacuate nv .timer).finish nv))
    ∧ (∀ (w : Vol) (nv : Nonvolatile) (l : Nat), (w.source l = none → w.talkEvent nv l = w)
      ∧ ∀ x w1, w.source l = some x → w1 = w.setSource l (some { x with talkTime := x.talkTime + 1 }) →
        (x.limit = 0 ∨ x.talkTime + 1 < x.limit * 1000 → w.talkEvent nv l = w1)
        ∧ (x.limit ≠ 0 → x.limit * 1000 ≤ x.talkTime + 1 → w.talkEvent nv l = (w1.closeSource l .talkLimit).finish nv))
    ∧ (∀ (w : Vol) (present : Bool) (l : Nat), (w.source l = none → w.absenceMark present l = w)
      ∧ ∀ x, w.source l = some x →
        (present = true → w.absenceMark present l = w.setSource l (some { x with absence := 0, absenceReported := false }))
        ∧ (present = false → x.absence + 1 < 2000 ∨ x.absenceReported = true →
            w.absenceMark present l = w.setSource l (some { x with absence := min 2000 (x.absence + 1) }))
        ∧ (present = false → 2000 ≤ x.absence + 1 → x.absenceReported = false → w.absenceMark present l =
            (w.setSource l (some { x with absence := 2000, absenceReported := true })).notify (.laneAbsent l)))
    ∧ (∀ (w : Vol) (nv : Nonvolatile) (l : Nat) (raw r : Bool) (x : Line), x = w.line l → r = x.polarity.reading raw →
      (x.fn.isOutput = true → w.lineMark nv l raw = w)
      ∧ (∀ d, x.fn.isOutput = false → x.debounced = some d →
        (r = d → w.lineMark nv l raw = w.setLine l { x with raw := raw, stand := 0 })
        ∧ (r ≠ d → x.stand < x.debounce → w.lineMark nv l raw = w.setLine l { x with raw := raw, stand := x.stand + 1 })
        ∧ (r ≠ d → x.debounce ≤ x.stand → w.lineMark nv l raw =
            ((w.setLine l { x with raw := raw, stand := x.stand + 1 }).takeEdge nv l r).finish nv))
      ∧ (∀ n, x.fn.isOutput = false → x.debounced = none →
        n = (if r = x.polarity.reading x.raw then x.stand + 1 else 1) →
        (n ≤ x.debounce → w.lineMark nv l raw = w.setLine l { x with raw := raw, stand := n })
        ∧ (x.debounce < n → w.lineMark nv l raw =
            ((w.setLine l { x with raw := raw, stand := n }).takeSettling nv l r).finish nv)))
    ∧ ∀ (w : Vol) (nv : Nonvolatile),
      (w.taken .second = true → w.clockMark nv = (w.queueTime nv).finish nv)
      ∧ (w.taken .second = false → w.clock.isSet = false → w.clockMark nv = w)
      ∧ (w.taken .second = false → w.clock.isSet = true → w.clock.marks + 1 < 1000 →
          w.clockMark nv = { w with clock := { w.clock with marks := w.clock.marks + 1 } })
      ∧ (w.taken .second = false → w.clock.isSet = true → 999 ≤ w.clock.marks → w.clock.time < 4294967295 →
          w.clockMark nv = ((({ w with clock := { w.clock with time := w.clock.time + 1, marks := 0 } }).walkAll nv).queueTime
            nv).finish nv)
      ∧ (w.taken .second = false → w.clock.isSet = true → 999 ≤ w.clock.marks → 4294967295 ≤ w.clock.time →
          w.clockMark nv = (({ w with clock := { w.clock with marks := 0 } }).queueTime nv).finish nv)

/-- The silence timers of a frame that carries a block mark and the counts that stand in one that does not; the alignment buffer,
which every frame reads, and the underflow slips (R14, R38, R39, R141, R166, R167, R169). -/
def Sys2Proof.Statements.FrameCounts : Prop :=
  ∀ (x : FrameInput) (s : State), s.running = true → ∃ t, exec (.frameClockFrame x) s = .next t
    ∧ (s.vol.atMark = true → ∀ z < 64, (t.vol.zone z).silence =
        if s.vol.taken (.silence z) = false ∧ (s.vol.zone z).enabled = true ∧ (s.vol.zone z).placement ≠ none
            ∧ (s.vol.zone z).silence < 5000 then (s.vol.zone z).silence + 1
        else (s.vol.zone z).silence)
    ∧ (s.vol.atMark = false → (∀ z < 64, (t.vol.zone z).silence = (s.vol.zone z).silence) ∧ t.vol.live = s.vol.live
        ∧ t.vol.lines = s.vol.lines)
    ∧ t.vol.align = s.vol.align.give.2
    ∧ (t.vol.port 0).counts.underflowSlip =
        (if s.vol.align.give.1 = true then min 255 ((s.vol.port 0).counts.underflowSlip + 1)
        else (s.vol.port 0).counts.underflowSlip)
    ∧ { (t.vol.port 0) with counts := { (t.vol.port 0).counts with
          underflowSlip := (s.vol.port 0).counts.underflowSlip } } = s.vol.port 0
    ∧ ∀ p < 5, p ≠ 0 → t.vol.port p = s.vol.port p

/-- The alignment buffer: an arrival enters at its tail, and when 2 D frames are held the oldest leaves unread, an overflow slip; at D
frames held the buffer is PASSING and stays so; it gives out the oldest frame, again the last one when it is empty, an underflow
slip, and silence in SILENT and FILLING (R167). -/
def Sys2Proof.Statements.BufferAligns : Prop :=
  ∀ (x : AlignBuffer) (f : LaneFrame),
    (x.frames.length < 2 * x.delay → x.push f =
      (false, { x with
        frames := x.frames ++ [f], state := if x.delay ≤ x.frames.length + 1 then .passing else x.state }))
    ∧ (∀ o rest, x.frames = o :: rest → 2 * x.delay ≤ x.frames.length → x.push f =
        (true, { x with frames := rest ++ [f], state := .passing }))
    ∧ (x.frames.length ≤ 2 * x.delay → 1 ≤ x.delay → (x.push f).2.frames.length ≤ 2 * x.delay)
    ∧ (∀ o rest, x.state = .passing → x.frames = o :: rest → x.give = (false, { x with frames := rest, out := o }))
    ∧ (x.state = .passing → x.frames = [] → x.give = (true, x))
    ∧ (x.state = .silent ∨ x.state = .filling → x.give =
        (false, { x with out := { presence := 0#32, slots := Vector.replicate 32 0#24 } }))

/-- `x` stands in the bits from place `i` on, most significant bit first (R162). -/
def Sys2Proof.Statements.FieldAt {n : Nat} (bits : List Bool) (i : Nat) (x : BitVec n) : Prop :=
  ∀ k < n, bits[i + k]? = some (x.getMsbD k)

/-- What every frame begins with: the sync word, the frame index, the message-valid flag and the spare bit (R162). -/
def Sys2Proof.Statements.OpensWith (bits : List Bool) (sync : BitVec 16) (index : BitVec 6) (valid spare : Bool) : Prop :=
  FieldAt bits 0 sync ∧ FieldAt bits 16 index ∧ bits[22]? = some valid ∧ bits[23]? = some spare

/-- What every frame ends with, from place `i` on: the message byte, the header check and the slot check (R162). -/
def Sys2Proof.Statements.ClosesWith (bits : List Bool) (i : Nat) (byte check : BitVec 8) (slotCheck : BitVec 16) : Prop :=
  FieldAt bits i byte ∧ FieldAt bits (i + 8) check ∧ FieldAt bits (i + 16) slotCheck ∧ bits.length = i + 32

/-- The four frames as bits in the order of sending: the fields one after another without gaps, each most significant bit first,
the presence flags lane 0 first and the slots slot or lane 0 first, 856, 440, 56 and 80 bits in all (R162). A received frame is
read back from its bits. -/
def Sys2Proof.Statements.FramesAsBits : Prop :=
  (∀ f : UpFrame, OpensWith f.bits f.sync f.index f.valid f.spare
      ∧ (∀ l < 32, f.bits[24 + l]? = some (f.presence.getLsbD l))
      ∧ (∀ l : Fin 32, FieldAt f.bits (56 + 24 * l.val) f.slots[l])
      ∧ ClosesWith f.bits 824 f.byte f.headerCheck f.slotCheck ∧ f.bits.length = 856 ∧ UpFrame.ofBits f.bits = f)
    ∧ (∀ f : DownFrame, f.slots.length = 16 → OpensWith f.bits f.sync (BitVec.ofNat 6 f.index) f.valid f.spare
      ∧ (∀ q x, f.slots[q]? = some x → FieldAt f.bits (24 + 24 * q) x)
      ∧ ClosesWith f.bits 408 f.byte f.headerCheck f.slotCheck ∧ f.bits.length = 440)
    ∧ (∀ f : NodeFrame, OpensWith f.bits f.sync f.index f.valid f.spare
      ∧ ClosesWith f.bits 24 f.byte f.headerCheck f.slotCheck ∧ f.bits.length = 56 ∧ NodeFrame.ofBits f.bits = f)
    ∧ ∀ f : ReturnFrame, OpensWith f.bits f.sync (BitVec.ofNat 6 f.index) f.valid f.spare ∧ FieldAt f.bits 24 f.monitor
      ∧ ClosesWith f.bits 48 f.byte f.headerCheck f.slotCheck ∧ f.bits.length = 80

/-- The bits that a frame of the frame clock sends on UP and on DN0 to DN3: the sync word E4B1 and the frame count first, 80 bits on
UP and 440 on each of the others (R162, R163). -/
def Sys2Proof.Statements.BitsSent : Prop :=
  ∀ (x : FrameInput) (s : State), s.running = true → ∃ t, exec (.frameClockFrame x) s = .next t
    ∧ (∀ p < 5, FieldAt (t.vol.sentBits p) 0 0xE4B1#16 ∧ FieldAt (t.vol.sentBits p) 16 (BitVec.ofNat 6 t.vol.fclk.count))
    ∧ (t.vol.sentBits 0).length = 80 ∧ ∀ p < 4, (t.vol.sentBits (p + 1)).length = 440

/-- What a frame of the frame clock leaves (R169). Every frame: mode, tables and settings, the day base, the configured fields of
zones (less the two bases that GAIN SET stages), platforms, lines and evacuation, the counts and settings of the message engine, and
the arms. One with neither a read nor an operation due: the store controller but for its one frame of work. One without a block
mark: the calls, the due list, the platforms, the live sources, the lines, the generators, the clock, the evacuation state and timer,
the QUEUE latch, and each zone and gain record less holder, waiters and cut; and, when no claim of a voice is EXHAUSTED, the
claims, the request queue, and each zone and gain record whole. -/
def Sys2Proof.Statements.FrameLeaves : Prop :=
  ∀ (x : FrameInput) (s : State) (w : Vol), s.running = true → w = s.vol → ∃ t w', exec (.frameClockFrame x) s = .next t
    ∧ w' = t.vol
    ∧ w'.mode = w.mode ∧ w'.groups = w.groups ∧ w'.reportDiscards = w.reportDiscards ∧ w'.rampRate = w.rampRate
    ∧ w'.monitor = w.monitor ∧ w'.profiles = w.profiles ∧ w'.templates = w.templates ∧ PhrasesKept w w'
    ∧ w'.clock.isSet = w.clock.isSet ∧ w'.clock.dayBase = w.clock.dayBase
    ∧ (∀ z, { (w'.zone z).configured with fgBase := 0, bgBase := 0 } = { (w.zone z).configured with fgBase := 0, bgBase := 0 })
    ∧ (∀ p, (w'.platform p).configured = (w.platform p).configured) ∧ (∀ l, (w'.line l).configured = (w.line l).configured)
    ∧ w'.evac.configured = w.evac.configured
    ∧ w'.engine.address = w.engine.address ∧ w'.engine.mask = w.engine.mask ∧ w'.engine.cause = w.engine.cause
    ∧ w'.engine.classDiscards = w.engine.classDiscards ∧ w'.engine.addressDiscards = w.engine.addressDiscards
    ∧ w'.engine.placeDiscards = w.engine.placeDiscards
    ∧ w'.store.eraseArm = w.store.eraseArm ∧ w'.store.abortArm = w.store.abortArm
    ∧ (w.readDue = false → w.store.op.overdue = false → w'.store.fixed = (w.storeTick s.nv).store.fixed)
    ∧ (w.atMark = false →
        w'.calls = w.calls ∧ w'.due = w.due ∧ w'.platforms = w.platforms ∧ w'.live = w.live ∧ w'.lines = w.lines
        ∧ w'.gens = w.gens ∧ w'.clock = w.clock ∧ w'.evac.fixed = w.evac.fixed
        ∧ w'.engine.queueLatch = w.engine.queueLatch
        ∧ (∀ z, (w'.zone z).fixed = (w.zone z).fixed) ∧ (∀ z, (w'.gain z).fixed = (w.gain z).fixed)
        ∧ ((∀ v, ¬ Reported w v) → w'.claims = w.claims ∧ w'.stampCounter = w.stampCounter ∧ w'.queue = w.queue
          ∧ w'.zones = w.zones ∧ w'.gains = w.gains))

/-- A frame of the frame clock: the count, the block mark and its counts, the alignment buffer, the frames sent and all that they
carry, the mixed outputs, and what the frame leaves (R14, R38, R39, R49, R50, R54, R109, R111, R141, R143, R147, R148, R154, R162, R163, R166, R167, R169, R172).
The monitor slot stands in `MonitorCarried`; the frames as bits in `FramesAsBits`. -/
def Obligations.FrameProduced : Prop :=
  FrameTaken ∧ GeneratorSteps ∧ FrameCounts ∧ MarkRuns ∧ MarksCount ∧ BufferAligns ∧ DownFramesSent ∧ MessageByteSent ∧ FrameMixed
    ∧ FramesAsBits ∧ BitsSent ∧ FrameLeaves
end

