-- ==== Sys2Proof/Laws/Tables.lean ====
section
/-! SUPPORT. Tables of fixed size: reading after writing, mapping after writing, folding. -/

namespace Sys2Proof.Laws

open Sys2Proof.Machine

theorem tget_of_lt {α : Type} {n : Nat} (d : α) (v : Vector α n) {i : Nat} (hi : i < n) : tget d v i = v[i] := by
  simp [tget, hi]

theorem tget_of_ge {α : Type} {n : Nat} (d : α) (v : Vector α n) {i : Nat} (hi : n ≤ i) : tget d v i = d := by
  simp [tget, Nat.not_lt.mpr hi]

theorem tset_of_ge {α : Type} {n : Nat} (v : Vector α n) {i : Nat} (hi : n ≤ i) (x : α) : tset v i x = v := by
  ext j hj
  have : i ≠ j := by omega
  simp [tset, this]

/-- Reading a table after one write. -/
theorem tget_tset {α : Type} {n : Nat} (d : α) (v : Vector α n) (i j : Nat) (x : α) :
    tget d (tset v i x) j = if i = j ∧ j < n then x else tget d v j := by
  by_cases hj : j < n
  · by_cases hij : i = j
    · subst hij
      simp [tget_of_lt d _ hj, tset, hj]
    · simp [tget_of_lt d _ hj, tset, hij]
  · simp [tget_of_ge d _ (Nat.not_lt.mp hj), hj]

@[simp] theorem tget_tset_self {α : Type} {n : Nat} (d : α) (v : Vector α n) {i : Nat} (x : α) (hi : i < n) :
    tget d (tset v i x) i = x := by simp [tget_tset, hi]

theorem tget_tset_ne {α : Type} {n : Nat} (d : α) (v : Vector α n) {i j : Nat} (x : α) (h : i ≠ j) :
    tget d (tset v i x) j = tget d v j := by simp [tget_tset, h]

/-- Of two writes of one entry the later stands. -/
@[simp] theorem tset_tset {α : Type} {n : Nat} (v : Vector α n) (i : Nat) (x y : α) :
    tset (tset v i x) i y = tset v i y := by
  simp [tset]

/-- A write of a value that `f` reads as it reads the entry overwritten. -/
theorem map_tset {α β : Type} {n : Nat} (f : α → β) (d : α) (v : Vector α n) (i : Nat) (x : α)
    (h : f x = f (tget d v i)) : (tset v i x).map f = v.map f := by
  ext j hj
  by_cases hij : i = j
  · subst hij
    rw [tget_of_lt d v hj] at h
    simpa [tset] using h
  · simp [tset, hij]

theorem tget_map {α β : Type} {n : Nat} (f : α → β) (d : α) (v : Vector α n) (i : Nat) :
    tget (f d) (v.map f) i = f (tget d v i) := by
  by_cases hi : i < n
  · simp [tget_of_lt _ _ hi]
  · simp [tget_of_ge _ _ (Nat.not_lt.mp hi)]

/-- A property that one step keeps is kept by a fold. -/
theorem foldl_keeps {α β : Type} (P : α → Prop) (f : α → β → α) (l : List β) (a : α) (ha : P a)
    (h : ∀ a b, P a → P (f a b)) : P (l.foldl f a) := by
  induction l generalizing a with
  | nil => exact ha
  | cons b t ih => exact ih _ (h _ _ ha)

end Sys2Proof.Laws
end

