-- ==== Sys2Proof/Laws/Events.lean ====
section
/-! SUPPORT. What the end of an event leaves unchanged: one lemma for each operation that the end of an event runs. -/

namespace Sys2Proof.Machine

theorem Vol.Within.refl (w : Vol) : w.Within w := ⟨rfl, List.prefix_refl _, id⟩

theorem Vol.Within.trans {a b c : Vol} (h : a.Within b) (k : b.Within c) : a.Within c :=
  ⟨k.fixed.trans h.fixed, h.notices.trans k.notices, k.bound ∘ h.bound⟩

/-- Steps that keep what the end of an event keeps, one after another. -/
theorem Vol.Within.foldl {β : Type} (f : Vol → β → Vol) (l : List β) (w : Vol) (h : ∀ w b, Vol.Within w (f w b)) :
    w.Within (l.foldl f w) :=
  Laws.foldl_keeps (fun x => w.Within x) f l w (.refl w) fun x b hx => hx.trans (h x b)

end Sys2Proof.Machine

namespace Sys2Proof.Laws

open Sys2Proof.Machine



theorem modZone_within (w : Vol) (z : Nat) (f : Zone → Zone) (h : ∀ x, (f x).fixed = x.fixed) :
    w.Within (w.modZone z f) := by
  refine ⟨?_, List.prefix_refl _, id⟩
  have := map_tset Zone.fixed .initial w.zones z (f (w.zone z)) (h _)
  simp [Vol.fixed, Vol.modZone, Vol.setZone, this]

theorem modGain_within (w : Vol) (z : Nat) (f : Gain → Gain) (h : ∀ x, (f x).fixed = x.fixed) :
    w.Within (w.modGain z f) := by
  refine ⟨?_, List.prefix_refl _, id⟩
  have := map_tset Gain.fixed .initial w.gains z (f (w.gain z)) (h _)
  simp [Vol.fixed, Vol.modGain, Vol.setGain, this]

theorem setVoice_within (w : Vol) (v : Nat) (x : Voice) (h : x.fixed = (w.voice v).fixed) : w.Within (w.setVoice v x) := by
  refine ⟨?_, List.prefix_refl _, id⟩
  have := map_tset Voice.fixed .initial w.voices v x h
  simp [Vol.fixed, Vol.setVoice, this]

theorem modVoice_within (w : Vol) (v : Nat) (f : Voice → Voice) (h : ∀ x, (f x).fixed = x.fixed) :
    w.Within (w.modVoice v f) := setVoice_within w v _ (h _)

theorem setClaim_within (w : Vol) (c : Nat) (x : Option Claim) : w.Within (w.setClaim c x) :=
  ⟨rfl, List.prefix_refl _, id⟩

theorem modClaim_within (w : Vol) (c : Nat) (f : Claim → Claim) : w.Within (w.modClaim c f) := setClaim_within _ _ _

theorem stampCounter_within (w : Vol) (n : Nat) : w.Within { w with stampCounter := n } :=
  ⟨rfl, List.prefix_refl _, id⟩

theorem modQueue_within (w : Vol) (f : RequestQueue → RequestQueue) : w.Within (w.modQueue f) :=
  ⟨rfl, List.prefix_refl _, id⟩

theorem modStore_within (w : Vol) (f : StoreCtl → StoreCtl) (h : ∀ x, (f x).fixed = x.fixed) : w.Within (w.modStore f) := by
  refine ⟨?_, List.prefix_refl _, id⟩
  simp [Vol.fixed, Vol.modStore, h]

theorem modEvac_within (w : Vol) (f : Evac → Evac) (h : ∀ x, (f x).fixed = x.fixed) : w.Within (w.modEvac f) := by
  refine ⟨?_, List.prefix_refl _, id⟩
  simp [Vol.fixed, Vol.modEvac, h]

theorem notify_within (w : Vol) (n : Notice) : w.Within (w.notify n) := by
  unfold Vol.notify
  split
  · rename_i h
    refine ⟨rfl, ⟨_, rfl⟩, fun _ => ?_⟩
    simp only [Config.noticeCapacity] at h
    simp only [List.length_append, List.length_cons, List.length_nil]
    omega
  · exact ⟨rfl, List.prefix_refl _, id⟩

/-! ### The arbiter -/

theorem setStatus_within (w : Vol) (c z : Nat) (st : Status) : w.Within (w.setStatus c z st) := modClaim_within _ _ _

theorem enterWait_within (w : Vol) (c z : Nat) : w.Within (w.enterWait c z) := modZone_within _ _ _ fun _ => rfl

theorem leaveWait_within (w : Vol) (c z : Nat) : w.Within (w.leaveWait c z) := modZone_within _ _ _ fun _ => rfl

theorem preempt_within (w : Vol) (h z : Nat) : w.Within (w.preempt h z) := by
  unfold Vol.preempt
  split
  · split
    · exact (setStatus_within _ _ _ _).trans (enterWait_within _ _ _)
    · exact setStatus_within _ _ _ _
  · exact .refl w

theorem takeZone_within (w : Vol) (c z : Nat) : w.Within (w.takeZone c z) := by
  unfold Vol.takeZone
  refine Vol.Within.trans ?_ ((modZone_within _ _ _ ?_).trans ((setStatus_within _ _ _ _).trans (modGain_within _ _ _ ?_)))
  · split
    · split
      · exact .refl w
      · exact preempt_within _ _ _
    · exact .refl w
  · intro x; rfl
  · intro x; rfl

theorem missZone_within (w : Vol) (c z : Nat) (m : MissCause) : w.Within (w.missZone c z m) :=
  (setStatus_within _ _ _ _).trans (leaveWait_within _ _ _)

theorem joinTake_within (w : Vol) (c : Nat) : w.Within (w.joinTake c) := by
  unfold Vol.joinTake
  split
  · refine Vol.Within.foldl _ _ _ fun w z => ?_
    split
    · exact takeZone_within _ _ _
    · exact .refl _
  · exact .refl w

theorem wholeTake_within (w : Vol) (c : Nat) : w.Within (w.wholeTake c) := by
  unfold Vol.wholeTake
  split
  · split
    · exact Vol.Within.foldl _ _ _ fun w z => takeZone_within _ _ _
    · exact .refl w
  · exact .refl w

theorem partTake_within (w : Vol) (c : Nat) : w.Within (w.partTake c) := by
  unfold Vol.partTake
  split
  · split
    · refine Vol.Within.foldl _ _ _ fun w z => ?_
      split
      · exact takeZone_within _ _ _
      · exact missZone_within _ _ _ _
    · exact .refl w
  · exact .refl w

theorem modeTake_within (w : Vol) (c : Nat) : w.Within (w.modeTake c) := by
  unfold Vol.modeTake
  split
  · split
    · exact joinTake_within _ _
    · exact wholeTake_within _ _
    · exact partTake_within _ _
  · exact .refl w

theorem walk_within (w : Vol) (freed : List Nat) : w.Within (w.walk freed) :=
  Vol.Within.foldl _ _ _ fun w c => modeTake_within w c

theorem releaseClaim_within (w : Vol) (c : Nat) : w.Within (w.releaseClaim c) := by
  unfold Vol.releaseClaim
  split
  · rename_i x _
    have h1 := Vol.Within.foldl (fun w z => w.leaveWait c z) x.waitingZones w fun w z => leaveWait_within _ _ _
    have h2 := Vol.Within.foldl (fun (w : Vol) z => w.modZone z fun y => { y with holder := none }) x.heldZones
      (x.waitingZones.foldl (fun w z => w.leaveWait c z) w) fun w z => modZone_within _ _ _ fun _ => rfl
    exact h1.trans (h2.trans ((setClaim_within _ _ _).trans (walk_within _ _)))
  · exact .refl w

theorem renumberClaims_within (w : Vol) : w.Within w.renumberClaims := by
  unfold Vol.renumberClaims
  exact (Vol.Within.foldl _ _ _ fun w e => modClaim_within _ _ _).trans (stampCounter_within _ _)

theorem placeClaim_within (w : Vol) (o : Owner) (g p : Nat) (m : ClaimMode) : w.Within (w.placeClaim o g p m).2 := by
  unfold Vol.placeClaim
  dsimp only
  split
  · exact .refl w
  · exact .refl w
  · refine Vol.Within.trans ?_ (Vol.Within.trans (stampCounter_within _ _) (Vol.Within.trans (setClaim_within _ _ _)
      (Vol.Within.trans (Vol.Within.foldl _ _ _ fun w z => enterWait_within _ _ _) (modeTake_within _ _))))
    split
    · exact renumberClaims_within w
    · exact .refl w

/-! ### Voices -/

theorem makeDemand_within (w : Vol) (v : Nat) : w.Within (w.makeDemand v) := by
  unfold Vol.makeDemand
  dsimp only
  split
  · exact .refl w
  · split
    · exact setVoice_within _ _ _ rfl
    · exact .refl w

theorem withdrawDemand_within (w : Vol) (v : Nat) : w.Within (w.withdrawDemand v) := by
  unfold Vol.withdrawDemand
  dsimp only
  refine (modVoice_within w v (fun x => { x with demand := none }) fun _ => rfl).trans (modStore_within _ _ fun x => ?_)
  split
  · split <;> rfl
  · rfl

theorem raiseUses_within (w : Vol) (fs : List Fragment) : w.Within (w.raiseUses fs) := modStore_within _ _ fun _ => rfl

theorem lowerUses_within (w : Vol) (fs : List Fragment) : w.Within (w.lowerUses fs) := modStore_within _ _ fun _ => rfl

/-- An operation that keeps the counts of every voice. -/
theorem voice_fixed {w w' : Vol} (h : w.Within w') (v : Nat) : (w'.voice v).fixed = (w.voice v).fixed := by
  have := congrArg (fun x : Vol => tget (Voice.fixed .initial) x.voices v) h.fixed
  simpa [Vol.fixed, tget_map, Vol.voice] using this

theorem releaseVoice_within (w : Vol) (v : Nat) : w.Within (w.releaseVoice v) := by
  unfold Vol.releaseVoice
  dsimp only
  have step : ∀ w' : Vol, w.Within w' →
      w.Within (((w'.lowerUses (w.voice v).frags).withdrawDemand v).setVoice v
        { Voice.initial with stalls := (w.voice v).stalls, damaged := (w.voice v).damaged }) := by
    intro w' h
    have h' := h.trans ((lowerUses_within w' (w.voice v).frags).trans (withdrawDemand_within _ v))
    refine h'.trans (setVoice_within _ _ _ ?_)
    rw [voice_fixed h' v]
    rfl
  apply step
  split
  · exact releaseClaim_within _ _
  · exact .refl w

/-! ### The request queue -/

theorem modRequest_within (w : Vol) (n : Nat) (f : Request → Request) : w.Within (w.modRequest n f) :=
  modQueue_within _ _

theorem endNotice_within (w : Vol) (r : Request) (o : ReqOutcome) : w.Within (w.endNotice r o) := notify_within _ _

theorem removeRequest_within (w : Vol) (n : Nat) (o : ReqOutcome) : w.Within (w.removeRequest n o) := by
  unfold Vol.removeRequest
  split
  · exact .refl w
  · dsimp only
    split
    · exact (modQueue_within _ _).trans ((endNotice_within _ _ _).trans (releaseVoice_within _ _))
    · exact (modQueue_within _ _).trans (endNotice_within _ _ _)

theorem failBegin_within (w : Vol) (r : Request) (o : ReqOutcome) : w.Within (w.failBegin r o) := by
  unfold Vol.failBegin
  dsimp only
  split
  · exact (removeRequest_within _ _ _).trans (modEvac_within _ _ fun _ => rfl)
  · exact removeRequest_within _ _ _

theorem beginVoice_within (w : Vol) (nv : Nonvolatile) (r : Request) (v : Nat) : w.Within (w.beginVoice nv r v) := by
  unfold Vol.beginVoice
  generalize (if r.origin = .evac then expandEvac nv w.listInForce else w.expandTemplate nv r) = e
  obtain ⟨fs, incomplete⟩ := e
  dsimp only
  have h1 : w.Within (if incomplete = true then w.modRequest r.number fun x => { x with incomplete := true } else w) := by
    split
    · exact modRequest_within _ _ _
    · exact .refl w
  generalize (if incomplete = true then w.modRequest r.number fun x => { x with incomplete := true } else w) = w1 at h1
  refine h1.trans ?_
  split
  · exact failBegin_within _ _ _
  · split
    · exact failBegin_within _ _ _
    · rename_i g _
      have h2 := placeClaim_within w1 (.voice v) g r.priority r.mode
      generalize w1.placeClaim (.voice v) g r.priority r.mode = p at h2
      obtain ⟨c, w2⟩ := p
      cases c with
      | none => exact h2.trans (failBegin_within _ _ _)
      | some c =>
        refine h2.trans ((raiseUses_within _ fs).trans (Vol.Within.trans ?_ (makeDemand_within _ _)))
        exact modVoice_within _ _ _ fun _ => rfl

theorem handOutFuel_within (nv : Nonvolatile) (n : Nat) (w : Vol) : w.Within (Vol.handOutFuel nv n w) := by
  induction n generalizing w with
  | zero => exact .refl w
  | succ n ih =>
    unfold Vol.handOutFuel
    split
    · exact .refl w
    · rename_i w' h
      refine Vol.Within.trans ?_ (ih w')
      unfold Vol.handOutOne at h
      split at h
      · simp at h
      · split at h
        · simp at h
        · simp only [Option.some.injEq] at h
          subst h
          exact (modRequest_within _ _ _).trans (beginVoice_within _ _ _ _)

theorem handOut_within (w : Vol) (nv : Nonvolatile) : w.Within (w.handOut nv) := handOutFuel_within _ _ _

theorem settleLost_within (w : Vol) (n : Nat) : w.Within (w.settleLost n) := by
  unfold Vol.settleLost
  split
  · exact .refl w
  · split
    · exact removeRequest_within _ _ _
    · split
      · exact removeRequest_within _ _ _
      · split
        · exact removeRequest_within _ _ _
        · split
          · exact removeRequest_within _ _ _
          · exact modRequest_within _ _ _

theorem voiceExhausted_within (w : Vol) (v : Nat) : w.Within (w.voiceExhausted v) := by
  unfold Vol.voiceExhausted
  dsimp only
  split
  · exact releaseVoice_within _ _
  · refine (releaseVoice_within w v).trans ?_
    split
    · exact removeRequest_within _ _ _
    · split
      · exact .refl _
      · split
        · exact settleLost_within _ _
        · exact removeRequest_within _ _ _

theorem reportExhausted_within (nv : Nonvolatile) (n : Nat) (w : Vol) : w.Within (Vol.reportExhausted nv n w) := by
  induction n generalizing w with
  | zero => exact .refl w
  | succ n ih =>
    unfold Vol.reportExhausted
    split
    · exact .refl w
    · exact ((voiceExhausted_within _ _).trans (handOut_within _ _)).trans (ih _)

/-- The reports of exhausted claims (R33). -/
theorem settle_within (w : Vol) (nv : Nonvolatile) : w.Within (w.settle nv) := reportExhausted_within _ _ _

/-- Without an exhausted claim the reports do nothing. -/
theorem settle_quiet {w : Vol} (nv : Nonvolatile) (h : w.exhaustedVoice = none) : w.settle nv = w := by
  simp [Vol.settle, Vol.reportExhausted, h]

/-! ### The start of a read, the alert, the end of an event -/

/-- The read arbiter changes the read in progress and nothing else (R122). -/
theorem pump_read (w : Vol) (nv : Nonvolatile) : ∃ r, w.pump nv = { w with store := { w.store with read := r } } := by
  unfold Vol.pump
  split
  · exact ⟨w.store.read, rfl⟩
  · split
    · split
      · split
        · exact ⟨_, rfl⟩
        · exact ⟨w.store.read, rfl⟩
      · exact ⟨w.store.read, rfl⟩
    · split
      · split
        · split
          · exact ⟨_, rfl⟩
          · exact ⟨w.store.read, rfl⟩
        · exact ⟨w.store.read, rfl⟩
      · exact ⟨w.store.read, rfl⟩

/-- A busy read path takes no other read (R122). -/
theorem pump_busy {w : Vol} (nv : Nonvolatile) (h : w.store.read.isSome = true) : w.pump nv = w := by
  simp [Vol.pump, h]

/-- The alert changes the raised state and the notice queue and nothing else (R182). -/
theorem evalAlert_engine (w : Vol) (nv : Nonvolatile) :
    w.Within (w.evalAlert nv) ∧ ∃ e : Engine, w.evalAlert nv = { w with engine := e } ∧ e.fixed = w.engine.fixed := by
  have note : ∀ (w : Vol) (n : Notice), ∃ e : Engine, w.notify n = { w with engine := e } ∧ e.fixed = w.engine.fixed := by
    intro w n
    unfold Vol.notify
    split
    · exact ⟨_, rfl, rfl⟩
    · exact ⟨_, rfl, rfl⟩
  have raise : ∀ b : Bool, w.Within (w.modEngine fun e => { e with raised := b }) := fun b =>
    ⟨rfl, List.prefix_refl _, id⟩
  unfold Vol.evalAlert
  dsimp only
  split
  · split
    · obtain ⟨e, h1, h2⟩ := note (w.modEngine fun e => { e with raised := false }) .alertCleared
      exact ⟨(raise false).trans (notify_within _ _), e, h1, h2⟩
    · exact ⟨.refl w, _, rfl, rfl⟩
  · split
    · exact ⟨.refl w, _, rfl, rfl⟩
    · obtain ⟨e, h1, h2⟩ := note (w.modEngine fun e => { e with raised := true }) (.alertRaised (w.heldConds nv))
      exact ⟨(raise true).trans (notify_within _ _), e, h1, h2⟩

theorem pump_within (w : Vol) (nv : Nonvolatile) : w.Within (w.pump nv) := by
  obtain ⟨r, h⟩ := pump_read w nv
  rw [h]
  exact modStore_within w (fun x => { x with read := r }) fun _ => rfl

theorem finish_within (w : Vol) (nv : Nonvolatile) : w.Within (w.finish nv) :=
  (settle_within w nv).trans ((pump_within _ nv).trans (evalAlert_engine _ nv).1)

theorem finish_endsAs (w : Vol) (nv : Nonvolatile) : w.EndsAs (w.finish nv) := by
  refine ⟨finish_within w nv, ?_, ?_⟩
  all_goals
    obtain ⟨r, h2⟩ := pump_read (w.settle nv) nv
    obtain ⟨-, e, h3, h4⟩ := evalAlert_engine ((w.settle nv).pump nv) nv
    unfold Vol.finish
  · intro hq
    rw [settle_quiet nv hq] at h2 h3 h4
    rw [settle_quiet nv hq, h3]
    rw [h2] at h4 ⊢
    unfold Vol.unread
    rw [h4]
  · intro hq hr
    rw [settle_quiet nv hq] at h3
    rw [settle_quiet nv hq, h3, pump_busy nv hr]

/-- The end of an event over the whole state: all it can do. -/
theorem finish_ends (s : State) : s.EndsAs s.finish := ⟨rfl, rfl, rfl, finish_endsAs _ _, rfl⟩

end Sys2Proof.Laws
end

