-- ==== Sys2Proof/Laws/Around.lean ====
section
/-! SUPPORT. What the events of the arbiter, the request queue, the timetable, the live sources, the evacuation controller
and the contact lines leave unchanged: one lemma for each operation. -/

namespace Sys2Proof.Machine

theorem Vol.Around.refl (w : Vol) : w.Around w := ⟨rfl, List.prefix_refl _, id⟩

theorem Vol.Around.trans {a b c : Vol} (h : a.Around b) (k : b.Around c) : a.Around c :=
  ⟨k.outer.trans h.outer, h.notices.trans k.notices, k.bound ∘ h.bound⟩

theorem Vol.Around.foldl {β : Type} (f : Vol → β → Vol) (l : List β) (w : Vol) (h : ∀ w b, Vol.Around w (f w b)) :
    w.Around (l.foldl f w) :=
  Laws.foldl_keeps (fun x => w.Around x) f l w (.refl w) fun x b hx => hx.trans (h x b)

theorem Vol.outer_fixed (w : Vol) : w.fixed.outer = w.outer := by
  have hz : Zone.configured ∘ Zone.fixed = Zone.configured := rfl
  have hg : Gain.fixed ∘ Gain.fixed = Gain.fixed := rfl
  have hv : Voice.fixed ∘ Voice.fixed = Voice.fixed := rfl
  simp only [Vol.outer, Vol.fixed, Vector.map_map, hz, hg, hv]
  rfl

/-- What the end of an event keeps is kept by the events of the station. -/
theorem Vol.Within.around {w w' : Vol} (h : w.Within w') : w.Around w' :=
  ⟨by rw [← Vol.outer_fixed w', h.fixed, Vol.outer_fixed], h.notices, h.bound⟩

end Sys2Proof.Machine

namespace Sys2Proof.Laws

open Sys2Proof.Machine

theorem modZone_around (w : Vol) (z : Nat) (f : Zone → Zone) (h : ∀ x, (f x).configured = x.configured) :
    w.Around (w.modZone z f) := by
  refine ⟨?_, List.prefix_refl _, id⟩
  have := map_tset Zone.configured .initial w.zones z (f (w.zone z)) (h _)
  simp [Vol.outer, Vol.fixed, Vol.modZone, Vol.setZone, this]

theorem modPlatform_around (w : Vol) (p : Nat) (f : Platform → Platform) (h : ∀ x, (f x).configured = x.configured) :
    w.Around (w.modPlatform p f) := by
  refine ⟨?_, List.prefix_refl _, id⟩
  have := map_tset Platform.configured .initial w.platforms (p - 1) (f (w.platform p)) (h _)
  simp [Vol.outer, Vol.fixed, Vol.modPlatform, Vol.setPlatform, this]

theorem setLine_around (w : Vol) (l : Nat) (x : Line) (h : x.configured = (w.line l).configured) :
    w.Around (w.setLine l x) := by
  refine ⟨?_, List.prefix_refl _, id⟩
  have := map_tset Line.configured .initial w.lines l x h
  simp [Vol.outer, Vol.fixed, Vol.setLine, this]

theorem modLine_around (w : Vol) (l : Nat) (f : Line → Line) (h : ∀ x, (f x).configured = x.configured) :
    w.Around (w.modLine l f) := setLine_around w l _ (h _)

theorem setCall_around (w : Vol) (c : Nat) (x : Option Call) : w.Around (w.setCall c x) := ⟨rfl, List.prefix_refl _, id⟩

theorem modCall_around (w : Vol) (c : Nat) (f : Call → Call) : w.Around (w.modCall c f) := setCall_around _ _ _

theorem due_around (w : Vol) (d : List DueEntry) : w.Around { w with due := d } := ⟨rfl, List.prefix_refl _, id⟩

theorem setSource_around (w : Vol) (l : Nat) (x : Option LiveSource) : w.Around (w.setSource l x) :=
  ⟨rfl, List.prefix_refl _, id⟩

theorem latch_around (w : Vol) : w.Around (w.modEngine fun e => { e with queueLatch := true }) :=
  ⟨rfl, List.prefix_refl _, id⟩

theorem modEvac_around (w : Vol) (f : Evac → Evac) (h : ∀ x, (f x).configured = x.configured) : w.Around (w.modEvac f) := by
  refine ⟨?_, List.prefix_refl _, id⟩
  simp [Vol.outer, Vol.fixed, Vol.modEvac, h]

theorem notify_around (w : Vol) (n : Notice) : w.Around (w.notify n) := (notify_within w n).around

/-! ### The arbiter: withdrawal, fault, recovery -/

theorem loseZone_within (w : Vol) (c z : Nat) (m : MissCause) : w.Within (w.loseZone c z m) := by
  unfold Vol.loseZone
  refine (setStatus_within w c z _).trans (modZone_within _ _ _ ?_)
  intro x
  rfl

theorem withdrawZone_within (w : Vol) (z : Nat) : w.Within (w.withdrawZone z) := by
  unfold Vol.withdrawZone
  dsimp only
  refine Vol.Within.trans (Vol.Within.foldl _ _ _ fun w c => loseZone_within _ _ _ _) (Vol.Within.foldl _ _ _ fun w c => ?_)
  split
  · split
    · exact wholeTake_within _ _
    · exact .refl _
  · exact .refl _

theorem arbitrateSubstitute_within (w : Vol) (c z y : Nat) (st : ClaimState) :
    w.Within (w.arbitrateSubstitute c z y st) := by
  unfold Vol.arbitrateSubstitute
  dsimp only
  refine (modClaim_within w c (fun x => { x with elems := x.elems ++ [{ zone := y, via := some z, status := .waiting }] })).trans ?_
  split
  · exact .refl _
  · split
    · split
      · exact takeZone_within _ _ _
      · split
        · exact enterWait_within _ _ _
        · exact setStatus_within _ _ _ _
    · refine (enterWait_within _ c y).trans ?_
      split
      · split
        · exact takeZone_within _ _ _
        · exact .refl _
      · split
        · exact partTake_within _ _
        · exact .refl _
      · exact wholeTake_within _ _

theorem settleFault_within (w : Vol) (z c : Nat) : w.Within (w.settleFault z c) := by
  unfold Vol.settleFault
  split
  · exact .refl w
  · dsimp only
    refine (loseZone_within w c z .fault).trans ?_
    split
    · split
      · split
        · exact wholeTake_within _ _
        · exact .refl _
      · exact arbitrateSubstitute_within _ _ _ _ _
    · split
      · exact wholeTake_within _ _
      · exact .refl _

theorem faultZone_within (w : Vol) (z : Nat) : w.Within (w.faultZone z) :=
  Vol.Within.foldl _ _ _ fun w c => settleFault_within w z c

theorem recoverZone_within (w : Vol) (z : Nat) : w.Within (w.recoverZone z) := by
  unfold Vol.recoverZone
  exact Vol.Within.trans (Vol.Within.foldl _ _ _ fun w c => (setStatus_within _ _ _ _).trans (enterWait_within _ _ _))
    (walk_within _ _)

/-- A change of a zone record, and what the arbiter makes of it (R1). -/
theorem changeZone_within (w : Vol) (z : Nat) (f : Zone → Zone) : (w.modZone z f).Within (w.changeZone z f) := by
  unfold Vol.changeZone
  dsimp only
  split
  · exact withdrawZone_within _ _
  · exact withdrawZone_within _ _
  · exact faultZone_within _ _
  · exact faultZone_within _ _
  · exact recoverZone_within _ _
  · exact recoverZone_within _ _
  · exact .refl _

theorem zoneNotice_within (w : Vol) (z : Nat) (x : Zone) : w.Within (w.zoneNotice z x) := by
  unfold Vol.zoneNotice
  dsimp only
  split
  · exact notify_within _ _
  · exact .refl w

/-- A zone event (R1, R2): the record changed, the rest as the end of an event leaves it. -/
theorem zoneEvent_within (w : Vol) (nv : Nonvolatile) (z : Nat) (f : Zone → Zone) :
    (w.modZone z f).Within (w.zoneEvent nv z f) :=
  (changeZone_within w z f).trans ((settle_within _ _).trans (zoneNotice_within _ _ _))

theorem zoneEvent_around (w : Vol) (nv : Nonvolatile) (z : Nat) (f : Zone → Zone)
    (h : ∀ x, (f x).configured = x.configured) : w.Around (w.zoneEvent nv z f) :=
  (modZone_around w z f h).trans (zoneEvent_within w nv z f).around

/-! ### The request queue -/

theorem renumberRequests_within (w : Vol) : w.Within w.renumberRequests := by
  unfold Vol.renumberRequests
  exact modQueue_within _ _

theorem replaceMoment_within (w : Vol) (r : Request) : w.Within (w.replaceMoment r) := by
  unfold Vol.replaceMoment
  split
  · exact removeRequest_within _ _ _
  · exact .refl w

theorem makeRoom_within {w w' : Vol} {p : Nat} (h : w.makeRoom p = some w') : w.Within w' := by
  unfold Vol.makeRoom at h
  split at h
  · simp only [Option.some.injEq] at h
    subst h
    exact .refl w
  · split at h
    · simp only [Option.some.injEq] at h
      subst h
      exact removeRequest_within _ _ _
    · simp at h

theorem numberRequest_within (w : Vol) (r : Request) : w.Within (w.numberRequest r).2 := by
  unfold Vol.numberRequest
  dsimp only
  refine Vol.Within.trans ?_ (modQueue_within _ _)
  split
  · exact renumberRequests_within w
  · exact .refl w

theorem enterQueue_within (w : Vol) (nv : Nonvolatile) (r : Request) : w.Within (w.enterQueue nv r) :=
  (modQueue_within _ _).trans (handOut_within _ _)

theorem createRequest_around (w : Vol) (nv : Nonvolatile) (r : Request) : w.Around (w.createRequest nv r).2 := by
  unfold Vol.createRequest
  dsimp only
  have h0 := replaceMoment_within w r
  generalize w.replaceMoment r = w0 at h0
  split
  · rename_i w1 h
    exact (h0.trans ((makeRoom_within h).trans ((numberRequest_within w1 r).trans (enterQueue_within _ _ _)))).around
  · exact ((h0.trans (numberRequest_within w0 r)).trans (endNotice_within _ _ _)).around.trans
      ((latch_around _).trans (handOut_within _ _).around)

theorem createRequest_around_of {w w' : Vol} {nv : Nonvolatile} {r : Request} {o : Option Nat}
    (h : w.createRequest nv r = (o, w')) : w.Around w' := by
  have := createRequest_around w nv r
  rw [h] at this
  exact this

theorem settleEnd_within (w : Vol) (n : Nat) : w.Within (w.settleEnd n) := by
  unfold Vol.settleEnd
  split
  · exact .refl w
  · split
    · exact removeRequest_within _ _ _
    · split
      · exact removeRequest_within _ _ _
      · split
        · exact removeRequest_within _ _ _
        · split
          · exact removeRequest_within _ _ _
          · split
            · exact removeRequest_within _ _ _
            · exact modRequest_within _ _ _

theorem returnToReady_within (w : Vol) (n : Nat) : w.Within (w.returnToReady n) := by
  unfold Vol.returnToReady
  split
  · exact .refl w
  · dsimp only
    split
    · exact (modRequest_within _ _ _).trans (releaseVoice_within _ _)
    · exact modRequest_within _ _ _

theorem withdrawRequest_within (w : Vol) (r : Request) (m : FinishMark) : w.Within (w.withdrawRequest r m) := by
  unfold Vol.withdrawRequest
  split
  · exact removeRequest_within _ _ _
  · split
    · exact removeRequest_within _ _ _
    · exact modRequest_within _ _ _

theorem withdrawRequests_within (w : Vol) (p : Request → Bool) (m : FinishMark) : w.Within (w.withdrawRequests p m) :=
  Vol.Within.foldl _ _ _ fun w r => withdrawRequest_within w r m

theorem queueTime_within (w : Vol) (nv : Nonvolatile) : w.Within (w.queueTime nv) := by
  unfold Vol.queueTime
  dsimp only
  exact Vol.Within.trans (Vol.Within.foldl _ _ _ fun w r => removeRequest_within _ _ _)
    (Vol.Within.trans (Vol.Within.foldl _ _ _ fun w r => modRequest_within _ _ _) (handOut_within _ _))

/-! ### The call table -/

theorem dropDue_around (w : Vol) (c : Nat) : w.Around (w.dropDue c) := due_around _ _

theorem remakeDue_around (w : Vol) (c : Nat) : w.Around (w.remakeDue c) := by
  unfold Vol.remakeDue
  dsimp only
  refine (dropDue_around w c).trans ?_
  split
  · exact .refl _
  · split
    · exact .refl _
    · exact due_around _ _

theorem fireTrigger_around (w : Vol) (nv : Nonvolatile) (c : Nat) (t : Trigger) (stale : Bool) :
    w.Around (w.fireTrigger nv c t stale).2 := by
  unfold Vol.fireTrigger
  split
  · exact .refl w
  · split
    · exact .refl w
    · split
      · exact .refl w
      · split
        · exact notify_around _ _
        · split
          · rename_i hc
            exact (createRequest_around_of hc).trans (modCall_around _ _ _)
          · rename_i hc
            exact createRequest_around_of hc

theorem callNotice_around (w : Vol) (c : Nat) (t : Option Trigger) (stale made : Bool) :
    w.Around (w.callNotice c t stale made) := by
  unfold Vol.callNotice
  split
  · exact .refl w
  · exact notify_around _ _

theorem endTransition_around (w : Vol) (nv : Nonvolatile) (c : Nat) (t : Option Trigger) (stale : Bool) :
    w.Around (w.endTransition nv c t stale) := by
  unfold Vol.endTransition
  dsimp only
  split
  · exact (fireTrigger_around w nv c _ stale).trans ((callNotice_around _ _ _ _ _).trans (remakeDue_around _ _))
  · exact (callNotice_around _ _ _ _ _).trans (remakeDue_around _ _)

theorem supersede_within (w : Vol) (nv : Nonvolatile) (c : Nat) (k : Option Trigger) (m : FinishMark) :
    w.Within (w.supersede nv c k m) := (withdrawRequests_within _ _ _).trans (handOut_within _ _)

/-- Withdrawals leave the call table, the platforms and the station clock. -/
theorem supersede_keeps (w : Vol) (nv : Nonvolatile) (c : Nat) (k : Option Trigger) (m : FinishMark) :
    (w.supersede nv c k m).calls = w.calls ∧ (w.supersede nv c k m).platforms = w.platforms
      ∧ (w.supersede nv c k m).clock = w.clock := by
  have h := (supersede_within w nv c k m).fixed
  have calls := congrArg (fun v : Vol => v.calls) h
  have platforms := congrArg (fun v : Vol => v.platforms) h
  have clock := congrArg (fun v : Vol => v.clock) h
  exact ⟨calls, platforms, clock⟩

theorem supersede_around (w : Vol) (nv : Nonvolatile) (c : Nat) (k : Option Trigger) (m : FinishMark) :
    w.Around (w.supersede nv c k m) := (supersede_within w nv c k m).around

theorem enterPlatform_around (w : Vol) (nv : Nonvolatile) (c p : Nat) (h : HeldTransition) (stale : Bool) :
    w.Around (w.enterPlatform nv c p h stale) := by
  unfold Vol.enterPlatform
  dsimp only
  refine .trans ?_ (endTransition_around _ _ _ _ _)
  split
  · refine .trans ?_ (supersede_around _ _ _ _ _)
    exact .trans (modPlatform_around _ _ _ (by intro _; rfl)) (modCall_around _ _ _)
  · exact .trans (modPlatform_around _ _ _ (by intro _; rfl)) (modCall_around _ _ _)

theorem holdCall_around (w : Vol) (c p o : Nat) (h : HeldTransition) : w.Around (w.holdCall c p o h) := by
  unfold Vol.holdCall
  dsimp only
  refine .trans ?_ (remakeDue_around _ _)
  refine .trans ?_ (notify_around _ _)
  refine .trans ?_ (modPlatform_around _ _ _ (by intro _; rfl))
  exact modCall_around _ _ _

theorem tryPlatform_around (w : Vol) (nv : Nonvolatile) (c : Nat) (h : HeldTransition) (stale : Bool) :
    w.Around (w.tryPlatform nv c h stale) := by
  unfold Vol.tryPlatform
  split
  · exact remakeDue_around _ _
  · split
    · exact enterPlatform_around _ _ _ _ _ _
    · exact holdCall_around _ _ _ _ _

theorem offerPlatform_around (w : Vol) (nv : Nonvolatile) (p : Nat) : w.Around (w.offerPlatform nv p) := by
  unfold Vol.offerPlatform
  split
  · exact .refl w
  · split
    · dsimp only
      split
      · exact enterPlatform_around _ _ _ _ _ _
      · exact (enterPlatform_around _ _ _ _ _ _).trans (modPlatform_around _ _ _ (by intro _; rfl))
    · exact .refl w

theorem freePlatform_around (w : Vol) (c : Nat) : w.Around (w.freePlatform c).2 := by
  unfold Vol.freePlatform
  split
  · split
    · dsimp only
      exact modPlatform_around _ _ _ (by intro _; rfl)
    · exact .refl w
  · exact .refl w

theorem enterGone_around (w : Vol) (nv : Nonvolatile) (c : Nat) (stale : Bool) : w.Around (w.enterGone nv c stale) := by
  unfold Vol.enterGone
  dsimp only
  split
  · refine .trans ?_ (offerPlatform_around _ _ _)
    refine .trans ?_ (endTransition_around _ _ _ _ _)
    refine .trans ?_ (supersede_around _ _ _ _ _)
    refine .trans ?_ (freePlatform_around _ _)
    exact modCall_around _ _ _
  · refine .trans ?_ (endTransition_around _ _ _ _ _)
    refine .trans ?_ (supersede_around _ _ _ _ _)
    refine .trans ?_ (freePlatform_around _ _)
    exact modCall_around _ _ _

theorem enterFinal_around (w : Vol) (nv : Nonvolatile) (c : Nat) (stale : Bool) : w.Around (w.enterFinal nv c stale) := by
  unfold Vol.enterFinal
  dsimp only
  refine .trans ?_ (endTransition_around _ _ _ _ _)
  refine .trans ?_ (supersede_around _ _ _ _ _)
  exact modCall_around _ _ _

theorem enterApproaching_around (w : Vol) (nv : Nonvolatile) (c : Nat) (stale : Bool) :
    w.Around (w.enterApproaching nv c stale) := by
  unfold Vol.enterApproaching
  dsimp only
  refine .trans ?_ (endTransition_around _ _ _ _ _)
  exact modCall_around _ _ _

theorem removeCall_around (w : Vol) (nv : Nonvolatile) (c : Nat) : w.Around (w.removeCall nv c) := by
  unfold Vol.removeCall
  split
  · exact .refl w
  · dsimp only
    refine .trans ?_ (notify_around _ _)
    refine .trans ?_ (setCall_around _ _ _)
    split
    · refine .trans ?_ (offerPlatform_around _ _ _)
      refine .trans ?_ (modCall_around _ _ _)
      refine .trans ?_ (freePlatform_around _ _)
      refine .trans ?_ (dropDue_around _ _)
      refine .trans ?_ (modQueue_within _ _).around
      exact supersede_around _ _ _ _ _
    · refine .trans ?_ (modCall_around _ _ _)
      refine .trans ?_ (freePlatform_around _ _)
      refine .trans ?_ (dropDue_around _ _)
      refine .trans ?_ (modQueue_within _ _).around
      exact supersede_around _ _ _ _ _

theorem takeDue_around (w : Vol) (nv : Nonvolatile) (e : DueEntry) : w.Around (w.takeDue nv e) := by
  unfold Vol.takeDue
  dsimp only
  refine (dropDue_around w e.slot).trans ?_
  split
  · exact .refl _
  · split
    · exact tryPlatform_around _ _ _ _ _
    · exact enterFinal_around _ _ _ _
    · exact enterGone_around _ _ _ _
    · exact enterApproaching_around _ _ _ _
    · exact enterGone_around _ _ _ _
    · exact removeCall_around _ _ _
    · exact removeCall_around _ _ _
    all_goals exact .refl _

theorem walkFuel_around (nv : Nonvolatile) (p : Nat → Bool) (n : Nat) (w : Vol) : w.Around (Vol.walkFuel nv p n w) := by
  induction n generalizing w with
  | zero => exact .refl w
  | succ n ih =>
    unfold Vol.walkFuel
    split
    · exact .refl w
    · exact (takeDue_around _ _ _).trans (ih _)

theorem walkDue_around (w : Vol) (nv : Nonvolatile) (p : Nat → Bool) : w.Around (w.walkDue nv p) := by
  unfold Vol.walkDue
  split
  · exact walkFuel_around _ _ _ _
  · exact .refl w

theorem walkAll_around (w : Vol) (nv : Nonvolatile) : w.Around (w.walkAll nv) := walkDue_around _ _ _

theorem walkOne_around (w : Vol) (nv : Nonvolatile) (c : Nat) : w.Around (w.walkOne nv c) := walkDue_around _ _ _

theorem revoice_around (w : Vol) (nv : Nonvolatile) (c : Nat) : w.Around (w.revoice nv c) := by
  unfold Vol.revoice
  exact ((Vol.Within.foldl _ _ _ fun w r => returnToReady_within _ _).trans (handOut_within _ _)).around

theorem fireAndNotify_around (w : Vol) (nv : Nonvolatile) (c : Nat) (t : Trigger) : w.Around (w.fireAndNotify nv c t) := by
  unfold Vol.fireAndNotify
  dsimp only
  refine .trans ?_ (callNotice_around _ _ _ _ _)
  exact fireTrigger_around _ _ _ _ _

theorem updatePlatform_around (w : Vol) (nv : Nonvolatile) (c : Nat) (p : Option Nat) :
    w.Around (w.updatePlatform nv c p) := by
  have leave : ∀ (w : Vol) (q : Option Nat) (o : Option Nat), w.Around (match q with
      | some q => w.modPlatform q fun x => { x with occupant := o }
      | none => w) := by
    intro w q o
    split
    · exact modPlatform_around _ _ _ (by intro _; rfl)
    · exact .refl w
  unfold Vol.updatePlatform
  split
  · exact .refl w
  · rename_i call _
    split
    · exact .refl w
    · have moved : ∀ w : Vol, w.Around ((((match p with
            | some new => Vol.modPlatform w new fun x => { x with occupant := some c }
            | none => w).modCall c fun c => { c with platform := p }).remakeDue c).revoice nv c) := by
        intro w
        refine .trans ?_ (revoice_around _ _ _)
        refine .trans ?_ (remakeDue_around _ _)
        refine .trans ?_ (modCall_around _ _ _)
        exact leave w p (some c)
      have stays : w.Around (((w.modCall c fun c => { c with platform := p, held := none }).remakeDue c).revoice nv c) := by
        refine .trans ?_ (revoice_around _ _ _)
        refine .trans ?_ (remakeDue_around _ _)
        exact modCall_around _ _ _
      have next : ∀ w : Vol, w.Around (match call.held with
          | some (.atPlatform, _) => w.tryPlatform nv c .atPlatform false
          | some (.boarding, _) => w.walkOne nv c
          | none => w.walkOne nv c) := by
        intro w
        split
        · exact tryPlatform_around _ _ _ _ _
        · exact walkOne_around _ _ _
        · exact walkOne_around _ _ _
      have fire : ∀ (w : Vol) (b : Bool), w.Around (if b = true then w.fireAndNotify nv c .platformChange else w) := by
        intro w b
        split
        · exact fireAndNotify_around _ _ _ _
        · exact .refl w
      have offer : ∀ (w : Vol), w.Around (match call.platform with
          | some old => w.offerPlatform nv old
          | none => w) := by
        intro w
        split
        · exact offerPlatform_around _ _ _
        · exact .refl w
      split
      · exact ((leave w call.platform none).trans (moved _)).trans ((fire _ _).trans (offer _))
      · exact (stays.trans (next _)).trans (fire _ _)

theorem updateExpected_around (w : Vol) (nv : Nonvolatile) (c : Nat) (e : Option Nat) :
    w.Around (w.updateExpected nv c e) := by
  unfold Vol.updateExpected
  dsimp only
  have h : w.Around (((w.modCall c fun c => { c with expected := e }).remakeDue c).walkOne nv c) := by
    refine .trans ?_ (walkOne_around _ _ _)
    refine .trans ?_ (remakeDue_around _ _)
    exact modCall_around _ _ _
  refine h.trans ?_
  split
  · exact .refl _
  · split
    · refine .trans ?_ (fireAndNotify_around _ _ _ _)
      exact modCall_around _ _ _
    · exact .refl _

theorem cancelCall_around (w : Vol) (nv : Nonvolatile) (c : Nat) : w.Around (w.cancelCall nv c) := by
  unfold Vol.cancelCall
  dsimp only
  split
  · refine .trans ?_ (offerPlatform_around _ _ _)
    refine .trans ?_ (freePlatform_around _ _)
    refine .trans ?_ (endTransition_around _ _ _ _ _)
    refine .trans ?_ (modCall_around _ _ _)
    exact supersede_around _ _ _ _ _
  · refine .trans ?_ (freePlatform_around _ _)
    refine .trans ?_ (endTransition_around _ _ _ _ _)
    refine .trans ?_ (modCall_around _ _ _)
    exact supersede_around _ _ _ _ _

/-! ### Live sources -/

theorem openSource_around {w w' : Vol} {l : Nat} {o : Opener} {g p n : Nat} (h : w.openSource l o g p n = some w') :
    w.Around w' := by
  unfold Vol.openSource at h
  have hc := placeClaim_within w (.live l) g p .join
  split at h
  · simp at h
  · rename_i c w1 he
    rw [he] at hc
    simp only [Option.some.injEq] at h
    subst h
    exact hc.around.trans (setSource_around _ _ _)

theorem closeSource_around (w : Vol) (l : Nat) (c : LiveCause) : w.Around (w.closeSource l c) := by
  unfold Vol.closeSource
  split
  · exact .refl w
  · exact (releaseClaim_within _ _).around.trans ((setSource_around _ _ _).trans (notify_around _ _))

theorem closeSources_around (w : Vol) (p : LiveSource → Bool) (c : LiveCause) : w.Around (w.closeSources p c) := by
  refine Vol.Around.foldl _ _ _ fun w l => ?_
  split
  · split
    · exact closeSource_around _ _ _
    · exact .refl _
  · exact .refl _

theorem openEvacSource_around {w w' : Vol} {l : Nat} {n : Option Nat} (h : w.openEvacSource l n = some w') :
    w.Around w' := (closeSource_around w l .stopped).trans (openSource_around h)

theorem getD_around {w w' : Vol} (o : Option Vol) (h : ∀ x, o = some x → w.Around x) (hw : w.Around w') :
    w.Around (o.getD w') := by
  cases o with
  | none => exact hw
  | some x => exact h x rfl

theorem talkPressed_around (w : Vol) (n l g p : Nat) : w.Around (w.talkPressed n l g p).2 := by
  unfold Vol.talkPressed
  split
  · exact .refl w
  · split
    · exact notify_around _ _
    · split
      · exact notify_around _ _
      · exact getD_around _ (fun x h => openSource_around h) (.refl w)

theorem talkReleased_around (w : Vol) (n l : Nat) : w.Around (w.talkReleased n l) := by
  unfold Vol.talkReleased
  split
  · split
    · exact closeSource_around _ _ _
    · exact .refl w
  · exact .refl w

theorem evacTalkPressed_around (w : Vol) (n : Nat) : w.Around (w.evacTalkPressed n).2 := by
  unfold Vol.evacTalkPressed
  split
  · exact .refl w
  · split
    · exact .refl w
    · split
      · exact notify_around _ _
      · exact getD_around _ (fun x h => openEvacSource_around h) (.refl w)

theorem evacTalkReleased_around (w : Vol) (n : Nat) : w.Around (w.evacTalkReleased n) := by
  unfold Vol.evacTalkReleased
  split
  · exact .refl w
  · split
    · split
      · exact closeSource_around _ _ _
      · exact .refl w
    · exact .refl w

theorem talkMark_around (w : Vol) (l : Nat) : w.Around (w.talkMark l) := by
  unfold Vol.talkMark
  split
  · exact .refl w
  · dsimp only
    split
    · refine .trans ?_ (closeSource_around _ _ _)
      exact setSource_around _ _ _
    · exact setSource_around _ _ _

theorem absenceMark_around (w : Vol) (b : Bool) (l : Nat) : w.Around (w.absenceMark b l) := by
  unfold Vol.absenceMark
  split
  · exact .refl w
  · split
    · exact setSource_around _ _ _
    · dsimp only
      split
      · refine .trans ?_ (notify_around _ _)
        exact setSource_around _ _ _
      · exact setSource_around _ _ _

/-! ### The evacuation controller -/

theorem changeList_around (w : Vol) (b : Bool) : w.Around (w.changeList b) := by
  unfold Vol.changeList
  dsimp only
  refine .trans ?_ (modVoice_within _ _ _ ?_).around
  · exact modEvac_around _ _ (by intro _; rfl)
  · intro _
    rfl

theorem makeEvacRequest_around (w : Vol) (nv : Nonvolatile) : w.Around (w.makeEvacRequest nv) := by
  unfold Vol.makeEvacRequest
  dsimp only
  have h1 := modEvac_around w (fun e => { e with list := some w.rowList }) (by intro _; rfl)
  generalize w.modEvac (fun e => { e with list := some w.rowList }) = w1 at h1
  have h2 := createRequest_around w1 nv w1.evacRequest
  refine h1.trans (h2.trans ?_)
  split
  · split
    · exact modEvac_around _ _ (by intro _; rfl)
    · exact .refl _
  · exact .refl _

theorem setEvac_around (w : Vol) (st : EvacState) (c : EvacCause) : w.Around (w.setEvac st c) := by
  unfold Vol.setEvac
  refine .trans ?_ (notify_around _ _)
  exact modEvac_around _ _ (by intro _; rfl)

theorem suppressLow_around (w : Vol) (nv : Nonvolatile) : w.Around (w.suppressLow nv) :=
  ((Vol.Within.foldl _ _ _ fun _ _ => removeRequest_within _ _ _).trans (handOut_within _ _)).around

theorem enterEvacuate_around (w : Vol) (nv : Nonvolatile) (c : EvacCause) : w.Around (w.enterEvacuate nv c) := by
  unfold Vol.enterEvacuate
  dsimp only
  refine Vol.Around.trans ((setEvac_around w .evacuate c).trans (suppressLow_around _ nv)) ?_
  split
  · exact makeEvacRequest_around _ _
  · split
    · exact changeList_around _ _
    · exact .refl _

theorem enterAlert_around (w : Vol) (nv : Nonvolatile) (c : EvacCause) : w.Around (w.enterAlert nv c) := by
  unfold Vol.enterAlert
  split
  · exact enterEvacuate_around _ _ _
  · exact (modEvac_around w (fun e => { e with timer := 0 }) (by intro _; rfl)).trans
      ((setEvac_around _ _ _).trans (makeEvacRequest_around _ _))

theorem returnNormal_around (w : Vol) (nv : Nonvolatile) (c : EvacCause) : w.Around (w.returnNormal nv c) := by
  have remove : ∀ (w : Vol) (r : Option Nat), w.Around (match r with
      | some n => w.removeRequest n .cancelled
      | none => w) := by
    intro w r
    split
    · exact (removeRequest_within _ _ _).around
    · exact .refl w
  have close : ∀ w : Vol, w.Around (match w.evac.lane with
      | some lane => if w.evacSourceOpen then w.closeSource lane .stopped else w
      | none => w) := by
    intro w
    split
    · split
      · exact closeSource_around _ _ _
      · exact .refl w
    · exact .refl w
  unfold Vol.returnNormal
  dsimp only
  refine Vol.Around.trans ((setEvac_around w .normal c).trans (remove _ w.evac.request)) ?_
  exact Vol.Around.trans (modEvac_around _ (fun e => { e with request := none, list := none }) (by intro _; rfl))
    ((close _).trans (handOut_within _ _).around)

theorem alertMark_around (w : Vol) (nv : Nonvolatile) : w.Around (w.alertMark nv) := by
  unfold Vol.alertMark
  split
  · dsimp only
    refine (modEvac_around w (fun e => { e with timer := e.timer + 1 }) (by intro _; rfl)).trans ?_
    split
    · exact enterEvacuate_around _ _ _
    · exact .refl _
  · exact .refl w

theorem scanDoneEvac_around (w : Vol) : w.Around w.scanDoneEvac := by
  unfold Vol.scanDoneEvac
  split
  · exact changeList_around _ _
  · exact .refl w

theorem evacRise_around (w : Vol) (nv : Nonvolatile) (n : Nat) (f : EvacFn) : w.Around (w.evacRise nv n f).2 := by
  unfold Vol.evacRise
  split
  · split
    · exact enterAlert_around _ _ _
    · exact .refl w
  · split
    · exact .refl w
    · exact enterEvacuate_around _ _ _
  · split
    · exact .refl w
    · exact returnNormal_around _ _ _
  · exact evacTalkPressed_around _ _

theorem evacFall_around (w : Vol) (n : Nat) (f : EvacFn) : w.Around (w.evacFall n f) := by
  cases f
  · exact .refl w
  · exact .refl w
  · exact evacTalkReleased_around _ _
  · exact .refl w

theorem evacSettle_around (w : Vol) (nv : Nonvolatile) (n : Nat) (f : EvacFn) : w.Around (w.evacSettle nv n f) := by
  cases f
  · exact evacRise_around _ _ _ _
  · exact evacRise_around _ _ _ _
  · exact .refl w
  · exact .refl w

/-! ### Contact lines -/

theorem updateTrain_around (w : Vol) (p : Nat) : w.Around (w.updateTrain p) := modPlatform_around _ _ _ (by intro _; rfl)

theorem warnPlatform_around (w : Vol) (nv : Nonvolatile) (p : Nat) : w.Around (w.warnPlatform nv p).2 := by
  unfold Vol.warnPlatform
  split
  · exact .refl w
  · split
    · exact .refl w
    · exact createRequest_around _ _ _

theorem markTrain_around (w : Vol) (nv : Nonvolatile) (p : Nat) : w.Around (w.markTrain nv p).2 := by
  unfold Vol.markTrain
  split
  · exact tryPlatform_around _ _ _ _ _
  · exact .refl w

theorem closeDoors_around (w : Vol) (nv : Nonvolatile) (p : Nat) : w.Around (w.closeDoors nv p) := by
  unfold Vol.closeDoors
  split
  · exact enterGone_around _ _ _ _
  · exact .refl w

theorem setExternal_configured (b : Bool) (x : Zone) : (x.setExternal b).configured = x.configured := by
  cases b <;> rfl

theorem riseAct_around (w : Vol) (nv : Nonvolatile) (n : Nat) (f : LineFn) : w.Around (w.riseAct nv n f).2 := by
  cases f with
  | plain => exact .refl w
  | talk l g p => exact talkPressed_around _ _ _ _ _
  | trainPresent p => exact (updateTrain_around w p).trans (markTrain_around _ _ _)
  | doorsClosed p => exact closeDoors_around _ _ _
  | platformWarn p => exact warnPlatform_around _ _ _
  | zoneFault z => exact zoneEvent_around _ _ _ _ (setExternal_configured true)
  | output a b c d => exact .refl w
  | evac f => exact evacRise_around _ _ _ _

theorem fallAct_around (w : Vol) (nv : Nonvolatile) (n : Nat) (f : LineFn) : w.Around (w.fallAct nv n f) := by
  cases f with
  | plain => exact .refl w
  | talk l g p => exact talkReleased_around _ _ _
  | trainPresent p => exact updateTrain_around _ _
  | doorsClosed p => exact .refl w
  | platformWarn p => exact .refl w
  | zoneFault z => exact zoneEvent_around _ _ _ _ (setExternal_configured false)
  | output a b c d => exact .refl w
  | evac f => exact evacFall_around _ _ _

theorem takeEdge_around (w : Vol) (nv : Nonvolatile) (n : Nat) (rising : Bool) : w.Around (w.takeEdge nv n rising) := by
  unfold Vol.takeEdge
  dsimp only
  have h1 := setLine_around w n { w.line n with debounced := some rising, stand := 0 } rfl
  generalize w.setLine n { w.line n with debounced := some rising, stand := 0 } = w1 at h1
  have h2 : w1.Around (if rising = true then w1.riseAct nv n (w.line n).fn
      else (EdgeResult.none, w1.fallAct nv n (w.line n).fn)).2 := by
    cases rising
    · exact fallAct_around _ _ _ _
    · exact riseAct_around _ _ _ _
  revert h2
  generalize (if rising = true then w1.riseAct nv n (w.line n).fn
      else (EdgeResult.none, w1.fallAct nv n (w.line n).fn)) = p
  obtain ⟨result, w2⟩ := p
  intro h2
  refine h1.trans (h2.trans ?_)
  dsimp only
  split
  · refine .trans ?_ (notify_around _ _)
    exact modLine_around _ _ _ (by intro _; rfl)
  · split
    · exact notify_around _ _
    · exact .refl _

theorem settleAct_around (w : Vol) (nv : Nonvolatile) (n : Nat) (b : Bool) (f : LineFn) :
    w.Around (w.settleAct nv n b f) := by
  cases f with
  | trainPresent p => exact updateTrain_around _ _
  | zoneFault z =>
    cases b
    · exact .refl _
    · exact zoneEvent_around _ _ _ _ (setExternal_configured true)
  | evac f =>
    cases b
    · exact .refl _
    · exact evacSettle_around _ _ _ _
  | plain => exact .refl _
  | talk l g p => exact .refl _
  | doorsClosed p => exact .refl _
  | platformWarn p => exact .refl _
  | output a b c d => exact .refl _

theorem takeSettling_around (w : Vol) (nv : Nonvolatile) (n : Nat) (b : Bool) : w.Around (w.takeSettling nv n b) := by
  have h1 := setLine_around w n { w.line n with debounced := some b, stand := 0 } rfl
  exact h1.trans (settleAct_around _ _ _ _ _)

theorem sampleLine_around (w : Vol) (nv : Nonvolatile) (n : Nat) (raw : Bool) : w.Around (w.sampleLine nv n raw) := by
  unfold Vol.sampleLine
  dsimp only
  split
  · exact .refl w
  · have h := setLine_around w n { w.line n with raw := raw, stand := (w.line n).nextStand raw } rfl
    split
    · split
      · exact h.trans (takeEdge_around _ _ _ _)
      · exact h.trans (takeSettling_around _ _ _ _)
    · exact h

/-- The end of an event. -/
theorem finish_around (w : Vol) (nv : Nonvolatile) : w.Around (w.finish nv) := (finish_within w nv).around

end Sys2Proof.Laws
end

