-- ==== Sys2Proof/Laws/Codec.lean ====
section
/-! SUPPORT. The lengths of the fields and of the body of STORE DONE (R174). -/

namespace Sys2Proof.Machine

@[simp] theorem length_twoOr (x : Option Nat) : (twoOr x).length = 2 := rfl

@[simp] theorem length_storeDoneFields (operation : Nat) (clip : Option Nat) (sector : Option (ClipBank × Nat)) (result : Byte)
    (written : Option Nat) (scan : Option (Bool × Nat × Nat)) :
    (storeDoneFields operation clip sector result written scan).length = 12 := rfl

@[simp] theorem length_storeDoneBytes (d : StoreDone) : (storeDoneBytes d).length = 12 := by
  cases d <;> rfl

end Sys2Proof.Machine
end

