-- ==== Sys2Proof/Laws/Frame.lean ====
section
/-! SUPPORT. What a frame of the frame clock leaves as it was: the nonvolatile store, the tables and settings, and, between
block marks, the station. One lemma for each operation that a frame runs. -/

namespace Sys2Proof.Laws

open Sys2Proof.Machine

/-! ### Three views of the part -/

/-- Of what the events of the station leave, that which no frame changes. -/
def frameKeeps (o : Vol) : Vol :=
  { o with
    ports := Vector.replicate 5 .initial, align := .initial, fclk := .initial, sent := .zero
    engine := { o.engine with places := Vector.replicate 8 none, waiting := [], sending := none }
    zones := o.zones.map fun x => { x with fgBase := 0, bgBase := 0 }
    gains := Vector.replicate 64 .initial, voices := Vector.replicate 8 .initial, gens := Vector.replicate 4 .initial
    clock := { o.clock with time := 0, marks := 0 }, store := .initial }

/-- Of what the end of an event leaves, that which no frame without a block mark changes, but for its count. -/
def betweenMarks (o : Vol) : Vol :=
  { o with
    ports := Vector.replicate 5 .initial, align := .initial, sent := .zero
    engine := { o.engine with places := Vector.replicate 8 none, waiting := [], sending := none }
    voices := Vector.replicate 8 .initial, store := .initial }

/-- A voice less all but its claim and where its list came from. -/
def Voice.claiming (x : Voice) : Voice := { Voice.initial with source := x.source, claim := x.claim }

/-- The arbiter, the request queue and all that decides on EXHAUSTED reports. -/
def arbitration (w : Vol) : Vol :=
  { w with
    ports := Vector.replicate 5 .initial, align := .initial, fclk := .initial, sent := .zero, engine := .initial
    voices := w.voices.map Voice.claiming, store := .initial, evac := .initial }

theorem frameKeeps_of_around {w w' : Vol} (h : w.Around w') : frameKeeps w'.outer = frameKeeps w.outer := by rw [h.outer]

theorem frameKeeps_of_betweenMarks {w w' : Vol} (h : betweenMarks w'.fixed = betweenMarks w.fixed) :
    frameKeeps w'.outer = frameKeeps w.outer := by
  have hx : ∀ x : Vol, frameKeeps x.outer = frameKeeps (betweenMarks x.fixed).outer := by
    intro x
    rw [← Vol.outer_fixed x]
    rfl
  rw [hx w', hx w, h]

theorem betweenMarks_of_within {w w' : Vol} (h : w.Within w') : betweenMarks w'.fixed = betweenMarks w.fixed := by rw [h.fixed]

/-! ### Voices -/

theorem arbitration_setVoice (w : Vol) (v : Nat) (x : Voice) (hs : x.source = (w.voice v).source)
    (hc : x.claim = (w.voice v).claim) : arbitration (w.setVoice v x) = arbitration w := by
  have : (tset w.voices v x).map Voice.claiming = w.voices.map Voice.claiming :=
    map_tset _ .initial _ _ _ (by
      show Voice.claiming x = Voice.claiming (w.voice v)
      simp only [Voice.claiming, hs, hc])
  show ({ arbitration w with voices := (tset w.voices v x).map Voice.claiming } : Vol) = arbitration w
  rw [this]
  rfl

theorem arbitration_voice {w w' : Vol} (h : arbitration w' = arbitration w) (v : Nat) :
    (w'.voice v).source = (w.voice v).source ∧ (w'.voice v).claim = (w.voice v).claim := by
  have hv : w'.voices.map Voice.claiming = w.voices.map Voice.claiming := congrArg Vol.voices h
  have := congrArg (fun t => tget (Voice.claiming .initial) t v) hv
  simp only [tget_map] at this
  exact ⟨by simpa [Voice.claiming, Vol.voice] using congrArg Voice.source this,
    by simpa [Voice.claiming, Vol.voice] using congrArg Voice.claim this⟩

/-- Whether a voice has an EXHAUSTED report to act on is a fact of the arbitration alone. -/
theorem exhaustedVoice_of_arbitration {w w' : Vol} (h : arbitration w' = arbitration w) :
    w'.exhaustedVoice = w.exhaustedVoice := by
  have hc : w'.claims = w.claims := by simpa [arbitration] using congrArg Vol.claims h
  unfold Vol.exhaustedVoice Vol.claim
  simp only [(arbitration_voice h _).1, (arbitration_voice h _).2, hc]

/-- No voice acts on a report when none of the pool with a template's list has an EXHAUSTED claim. -/
theorem exhaustedVoice_eq_none {w : Vol}
    (h : ∀ v < 8, (w.voice v).source = some .template → ∀ c x, (w.voice v).claim = some c → w.claim c = some x →
      x.state ≠ .exhausted) : w.exhaustedVoice = none := by
  unfold Vol.exhaustedVoice
  rw [List.find?_eq_none]
  intro v hv hx
  simp only [Bool.and_eq_true, decide_eq_true_eq] at hx
  obtain ⟨hs, h2⟩ := hx
  rcases hb : (w.voice v).claim with _ | c
  · rw [hb] at h2
    cases h2
  · rw [hb] at h2
    simp only [Option.bind_some] at h2
    rcases hc : w.claim c with _ | x
    · rw [hc] at h2
      cases h2
    · rw [hc] at h2
      exact h v (List.mem_range.1 hv) hs c x hb hc (of_decide_eq_true h2)

theorem arbitration_makeDemand (w : Vol) (v : Nat) : arbitration (w.makeDemand v) = arbitration w := by
  unfold Vol.makeDemand
  dsimp only
  split
  · rfl
  · split
    · exact arbitration_setVoice _ _ _ rfl rfl
    · rfl

theorem betweenMarks_makeDemand (w : Vol) (v : Nat) : betweenMarks (w.makeDemand v).fixed = betweenMarks w.fixed :=
  betweenMarks_of_within (makeDemand_within w v)

theorem advance_claim (x : Voice) : x.advance.1.source = x.source ∧ x.advance.1.claim = x.claim := by
  unfold Voice.advance
  split
  · exact ⟨rfl, rfl⟩
  · dsimp only
    split
    · exact ⟨rfl, rfl⟩
    · split
      · exact ⟨rfl, rfl⟩
      · exact ⟨rfl, rfl⟩

theorem makeDemand_store (w : Vol) (v : Nat) : (w.makeDemand v).store = w.store := by
  unfold Vol.makeDemand
  dsimp only
  split
  · rfl
  · split
    · rfl
    · rfl

/-- What the production of samples changes: the voices' places, buffers, demands and counts. -/
theorem playFrame_keeps (w : Vol) (nv : Nonvolatile) (v : Nat) :
    betweenMarks (w.playFrame nv v).2.fixed = betweenMarks w.fixed
      ∧ arbitration (w.playFrame nv v).2 = arbitration w ∧ (w.playFrame nv v).2.store = w.store := by
  have ha := advance_claim (w.voice v)
  unfold Vol.playFrame
  dsimp only
  split
  · exact ⟨rfl, arbitration_setVoice _ _ _ rfl rfl, rfl⟩
  · split
    · exact ⟨(betweenMarks_makeDemand _ _).trans rfl,
        (arbitration_makeDemand _ _).trans (arbitration_setVoice _ _ _ ha.1 ha.2), (makeDemand_store _ _).trans rfl⟩
    · exact ⟨rfl, arbitration_setVoice _ _ _ ha.1 ha.2, rfl⟩

theorem voiceFrame_keeps (w : Vol) (nv : Nonvolatile) (v : Nat) :
    betweenMarks (w.voiceFrame nv v).2.fixed = betweenMarks w.fixed
      ∧ arbitration (w.voiceFrame nv v).2 = arbitration w ∧ (w.voiceFrame nv v).2.store = w.store := by
  unfold Vol.voiceFrame
  dsimp only
  split
  · exact ⟨rfl, rfl, rfl⟩
  · split
    · exact playFrame_keeps w nv v
    · split
      · obtain ⟨h1, h2, h3⟩ := playFrame_keeps ((w.setVoice v (w.voice v).restart).makeDemand v) nv v
        exact ⟨h1.trans ((betweenMarks_makeDemand _ _).trans rfl),
          h2.trans ((arbitration_makeDemand _ _).trans (arbitration_setVoice _ _ _ rfl rfl)),
          h3.trans ((makeDemand_store _ _).trans rfl)⟩
      · exact ⟨rfl, rfl, rfl⟩

theorem voiceFrames_keeps (w : Vol) (nv : Nonvolatile) :
    betweenMarks (w.voiceFrames nv).2.fixed = betweenMarks w.fixed
      ∧ arbitration (w.voiceFrames nv).2 = arbitration w ∧ (w.voiceFrames nv).2.store = w.store := by
  unfold Vol.voiceFrames
  refine foldl_keeps (fun a : List Int × Vol => betweenMarks a.2.fixed = betweenMarks w.fixed
    ∧ arbitration a.2 = arbitration w ∧ a.2.store = w.store) _ _ _ ⟨rfl, rfl, rfl⟩ ?_
  intro a v ⟨h1, h2, h3⟩
  obtain ⟨k1, k2, k3⟩ := voiceFrame_keeps a.2 nv v
  exact ⟨k1.trans h1, k2.trans h2, k3.trans h3⟩

/-! ### The frames sent, the messages on UP, the store's count of a frame -/

theorem popByte_keeps (w : Vol) : betweenMarks w.popByte.2.2.fixed = betweenMarks w.fixed
    ∧ arbitration w.popByte.2.2 = arbitration w ∧ w.popByte.2.2.store = w.store := by
  unfold Vol.popByte
  split
  · split
    · exact ⟨rfl, rfl, rfl⟩
    · exact ⟨rfl, rfl, rfl⟩
  · exact ⟨rfl, rfl, rfl⟩

theorem sendFrames_keeps (w : Vol) (mixed : List Int) : betweenMarks (w.sendFrames mixed).fixed = betweenMarks w.fixed
    ∧ arbitration (w.sendFrames mixed) = arbitration w ∧ (w.sendFrames mixed).store = w.store := by
  unfold Vol.sendFrames
  have h := popByte_keeps w
  generalize w.popByte = x at h
  obtain ⟨valid, byte, w1⟩ := x
  exact h

theorem produce_keeps (w : Vol) (nv : Nonvolatile) : betweenMarks (w.produce nv).fixed = betweenMarks w.fixed
    ∧ arbitration (w.produce nv) = arbitration w ∧ (w.produce nv).store = w.store := by
  unfold Vol.produce
  have h := voiceFrames_keeps w nv
  generalize w.voiceFrames nv = x at h
  obtain ⟨samples, w1⟩ := x
  obtain ⟨k1, k2, k3⟩ := sendFrames_keeps w1 (w1.mixAll samples)
  exact ⟨k1.trans h.1, k2.trans h.2.1, k3.trans h.2.2⟩

theorem endSending_keeps (w : Vol) : betweenMarks w.endSending.fixed = betweenMarks w.fixed
    ∧ arbitration w.endSending = arbitration w ∧ w.endSending.store = w.store := by
  unfold Vol.endSending
  split
  · split
    · exact ⟨rfl, rfl, rfl⟩
    · exact ⟨rfl, rfl, rfl⟩
  · exact ⟨rfl, rfl, rfl⟩

theorem startSending_keeps (w : Vol) : betweenMarks w.startSending.fixed = betweenMarks w.fixed
    ∧ arbitration w.startSending = arbitration w ∧ w.startSending.store = w.store := by
  unfold Vol.startSending
  split
  · split
    · split
      · exact ⟨rfl, rfl, rfl⟩
      · exact ⟨rfl, rfl, rfl⟩
    · exact ⟨rfl, rfl, rfl⟩
    · exact ⟨rfl, rfl, rfl⟩
  · exact ⟨rfl, rfl, rfl⟩

theorem giveLanes_keeps (w : Vol) : betweenMarks w.giveLanes.fixed = betweenMarks w.fixed
    ∧ arbitration w.giveLanes = arbitration w ∧ w.giveLanes.store = w.store := by
  unfold Vol.giveLanes
  dsimp only
  split
  · exact ⟨rfl, rfl, rfl⟩
  · exact ⟨rfl, rfl, rfl⟩

/-! ### What is due before a frame -/

/-- What the completion of a read or of an operation leaves of the volatile state, but for notices, buffers, the list given
to voice 7 and the store controller, whose arms stand. -/
structure DueKeeps (w w' : Vol) : Prop where
  between : betweenMarks w'.fixed = betweenMarks w.fixed
  arbitration : arbitration w' = arbitration w
  arms : (w'.store.eraseArm, w'.store.abortArm) = (w.store.eraseArm, w.store.abortArm)

theorem DueKeeps.refl (w : Vol) : DueKeeps w w := ⟨rfl, rfl, rfl⟩

theorem DueKeeps.trans {a b c : Vol} (h : DueKeeps a b) (k : DueKeeps b c) : DueKeeps a c :=
  ⟨k.between.trans h.between, k.arbitration.trans h.arbitration, k.arms.trans h.arms⟩

theorem dueKeeps_notify (w : Vol) (n : Notice) : DueKeeps w (w.notify n) := by
  unfold Vol.notify
  split
  · exact ⟨rfl, rfl, rfl⟩
  · exact ⟨rfl, rfl, rfl⟩

theorem dueKeeps_modStore (w : Vol) (f : StoreCtl → StoreCtl)
    (h : ((f w.store).eraseArm, (f w.store).abortArm) = (w.store.eraseArm, w.store.abortArm)) : DueKeeps w (w.modStore f) :=
  ⟨rfl, rfl, h⟩

theorem dueKeeps_countRead (w : Vol) (r : ReadOp) (v : ReadVerdict) (b : Bool) : DueKeeps w (w.countRead r v b) := by
  unfold Vol.countRead
  split
  · split
    · exact dueKeeps_modStore _ _ rfl
    · exact .refl w
  · dsimp only
    split
    · exact dueKeeps_modStore _ _ rfl
    · exact (dueKeeps_modStore w _ rfl).trans ((dueKeeps_modStore _ _ rfl).trans (dueKeeps_notify _ _))

theorem notify_store (w : Vol) (n : Notice) : (w.notify n).store = w.store := by
  unfold Vol.notify
  split
  · rfl
  · rfl

theorem countRead_op (w : Vol) (r : ReadOp) (v : ReadVerdict) (b : Bool) : (w.countRead r v b).store.op = w.store.op := by
  unfold Vol.countRead
  split
  · split
    · rfl
    · rfl
  · dsimp only
    split
    · rfl
    · rw [notify_store]
      rfl

theorem dueKeeps_deliver (w : Vol) (v : Nat) (b : Bool) : DueKeeps w (w.deliver v b) := by
  unfold Vol.deliver
  dsimp only
  split
  · exact .refl w
  · refine DueKeeps.trans (b := w.setVoice v _) ⟨rfl, arbitration_setVoice _ _ _ ?_ ?_, rfl⟩
      ⟨betweenMarks_makeDemand _ _, arbitration_makeDemand _ _, by rw [makeDemand_store]⟩
    · rfl
    · rfl

theorem deliver_store (w : Vol) (v : Nat) (b : Bool) : (w.deliver v b).store = w.store := by
  unfold Vol.deliver
  dsimp only
  split
  · rfl
  · rw [makeDemand_store]
    rfl

theorem dueKeeps_verifyTakes (w : Vol) (b : Bool) : DueKeeps w (w.verifyTakes b) := by
  unfold Vol.verifyTakes
  split
  · exact dueKeeps_modStore _ _ rfl
  · exact .refl w

/-- The end of a verify writes the directory alone (R128). -/
theorem endVerify_keeps (s : State) : DueKeeps s.vol (endVerify s).vol
    ∧ { (endVerify s).nv with dir := s.nv.dir } = s.nv ∧ (endVerify s).power = s.power ∧ (endVerify s).pending = s.pending := by
  unfold endVerify
  split
  · dsimp only
    split
    · exact ⟨.refl _, rfl, rfl, rfl⟩
    · split
      · exact ⟨.refl _, rfl, rfl, rfl⟩
      · split
        · exact ⟨(dueKeeps_modStore _ _ rfl).trans (dueKeeps_notify _ _), rfl, rfl, rfl⟩
        · exact ⟨(dueKeeps_modStore _ _ rfl).trans ((dueKeeps_modStore _ _ rfl).trans (dueKeeps_notify _ _)), rfl, rfl, rfl⟩
  · exact ⟨.refl _, rfl, rfl, rfl⟩

/-- No verify is in flight. -/
def notVerifying (op : StoreOp) : Prop := ∀ c n k i x, op ≠ .verifying c n k i x

theorem endVerify_idle {s : State} (h : notVerifying s.vol.store.op) : endVerify s = s := by
  unfold endVerify
  split
  · exact absurd ‹_› (h _ _ _ _ _)
  · rfl

theorem verifyTakes_idle {w : Vol} (b : Bool) (h : notVerifying w.store.op) : w.verifyTakes b = w := by
  unfold Vol.verifyTakes
  split
  · exact absurd ‹_› (h _ _ _ _ _)
  · rfl

/-- The completion of a read: of the nonvolatile store it can write the directory alone, and that only while a verify is in
flight; the operation stands otherwise (R107, R122, R124, R128). -/
theorem completeRead_keeps (s : State) (v : ReadVerdict) : DueKeeps s.vol (completeRead s v).vol
    ∧ { (completeRead s v).nv with dir := s.nv.dir } = s.nv ∧ (completeRead s v).power = s.power
    ∧ (completeRead s v).pending = s.pending
    ∧ (notVerifying s.vol.store.op → (completeRead s v).nv = s.nv ∧ (completeRead s v).vol.store.op = s.vol.store.op) := by
  unfold completeRead
  split
  · exact ⟨.refl _, rfl, rfl, rfl, fun _ => ⟨rfl, rfl⟩⟩
  · rename_i r hr
    dsimp only
    generalize (decide (s.nv.page r.bank r.page = PageState.written) && decide (v ≠ ReadVerdict.unreadable)) = b
    have h0 := dueKeeps_modStore s.vol (fun c => { c with read := none }) rfl
    have h1 := h0.trans (dueKeeps_countRead (s.vol.modStore fun c => { c with read := none }) r v b)
    have hop := countRead_op (s.vol.modStore fun c => { c with read := none }) r v b
    generalize (s.vol.modStore fun c => { c with read := none }).countRead r v b = w at h1 hop
    have hop : w.store.op = s.vol.store.op := hop
    split
    · exact ⟨h1.trans (dueKeeps_deliver _ _ _), rfl, rfl, rfl, fun _ => ⟨rfl, by rw [deliver_store, hop]⟩⟩
    · obtain ⟨k1, k2, k3, k4⟩ := endVerify_keeps { s with vol := w.verifyTakes b }
      refine ⟨h1.trans ((dueKeeps_verifyTakes w b).trans k1), k2, k3, k4, fun hn => ?_⟩
      have hw : notVerifying w.store.op := by rw [hop]; exact hn
      rw [verifyTakes_idle b hw, endVerify_idle hw]
      exact ⟨rfl, hop⟩
    · exact ⟨h1, rfl, rfl, rfl, fun _ => ⟨rfl, hop⟩⟩

/-- No operation becomes overdue by the completion of a read: it stands, or its verify goes on or ends. -/
theorem completeRead_overdue (s : State) (v : ReadVerdict) (h : s.vol.store.op.overdue = false) :
    (completeRead s v).vol.store.op.overdue = false := by
  have ended : ∀ s : State, (endVerify s).vol.store.op = s.vol.store.op ∨ (endVerify s).vol.store.op = .ready := by
    intro s
    unfold endVerify
    split
    · dsimp only
      split
      · exact .inl rfl
      · split
        · exact .inl rfl
        · split
          · exact .inr (congrArg StoreCtl.op (notify_store _ _))
          · exact .inr (congrArg StoreCtl.op (notify_store _ _))
    · exact .inl rfl
  have taken : ∀ (w : Vol) (b : Bool), w.store.op.overdue = false → (w.verifyTakes b).store.op.overdue = false := by
    intro w b hw
    unfold Vol.verifyTakes
    split
    · rfl
    · exact hw
  unfold completeRead
  split
  · exact h
  · rename_i r hr
    dsimp only
    generalize (decide (s.nv.page r.bank r.page = PageState.written) && decide (v ≠ ReadVerdict.unreadable)) = b
    have hop : ((s.vol.modStore fun c => { c with read := none }).countRead r v b).store.op = s.vol.store.op := countRead_op _ r v b
    generalize (s.vol.modStore fun c => { c with read := none }).countRead r v b = w at hop
    split
    · rw [deliver_store, hop]
      exact h
    · have hw := taken w b (by rw [hop]; exact h)
      obtain k | k := ended { s with vol := w.verifyTakes b }
      · rw [k]
        exact hw
      · rw [k]
        rfl
    · rw [hop]
      exact h

theorem dueKeeps_scanDoneEvac (w : Vol) : DueKeeps w w.scanDoneEvac := by
  unfold Vol.scanDoneEvac Vol.changeList
  split
  · exact ⟨rfl, arbitration_setVoice _ _ _ rfl rfl, rfl⟩
  · exact .refl w

/-- The end of an overdue operation, of the volatile state (R127, R131, R136, R137, R156). -/
theorem endOverdue_keeps (s : State) : DueKeeps s.vol (endOverdue s).vol ∧ (endOverdue s).power = s.power
    ∧ (endOverdue s).pending = s.pending := by
  unfold endOverdue
  split
  · split
    · unfold endScan
      split
      · dsimp only
        exact ⟨(dueKeeps_modStore _ _ rfl).trans ((dueKeeps_notify _ _).trans (dueKeeps_scanDoneEvac _)), rfl, rfl⟩
      · exact ⟨.refl _, rfl, rfl⟩
    · unfold endProgramming
      split
      · exact ⟨(dueKeeps_modStore _ _ rfl).trans (dueKeeps_notify _ _), rfl, rfl⟩
      · exact ⟨.refl _, rfl, rfl⟩
    · unfold endErase
      split
      · exact ⟨(dueKeeps_modStore _ _ rfl).trans (dueKeeps_notify _ _), rfl, rfl⟩
      · exact ⟨.refl _, rfl, rfl⟩
    · unfold endProgramWrite storeProgramme
      split
      · exact ⟨(dueKeeps_modStore _ _ rfl).trans (dueKeeps_notify _ _), rfl, rfl⟩
      · exact ⟨.refl _, rfl, rfl⟩
    · exact ⟨.refl _, rfl, rfl⟩
    · exact ⟨.refl _, rfl, rfl⟩
  · exact ⟨.refl _, rfl, rfl⟩

/-- What the end of an overdue operation writes of the nonvolatile store depends on that store and the operation alone. -/
theorem endOverdue_nv {s s' : State} (hn : s'.nv = s.nv) (ho : s'.vol.store.op = s.vol.store.op) :
    (endOverdue s').nv = (endOverdue s).nv := by
  unfold endOverdue endScan endProgramming endErase endProgramWrite storeProgramme Vol.storeStarting
  rw [ho, hn]
  cases s.vol.store.op <;> simp only [] <;> split <;> first | rfl | exact hn

/-! ### The block mark -/

/-- `w'` keeps of `w` what no frame changes, and the store controller but for its read and its use counts. -/
structure MarkKeeps (w w' : Vol) : Prop where
  keeps : frameKeeps w'.outer = frameKeeps w.outer
  store : w'.store.fixed = w.store.fixed

theorem MarkKeeps.refl (w : Vol) : MarkKeeps w w := ⟨rfl, rfl⟩

theorem MarkKeeps.trans {a b c : Vol} (h : MarkKeeps a b) (k : MarkKeeps b c) : MarkKeeps a c :=
  ⟨k.keeps.trans h.keeps, k.store.trans h.store⟩

theorem MarkKeeps.foldl {β : Type} (f : Vol → β → Vol) (l : List β) (w : Vol) (h : ∀ w b, MarkKeeps w (f w b)) :
    MarkKeeps w (l.foldl f w) := foldl_keeps (MarkKeeps w) f l w (.refl w) fun _ b ha => ha.trans (h _ b)

theorem marks_of_around {w w' : Vol} (h : w.Around w') : MarkKeeps w w' :=
  ⟨frameKeeps_of_around h, congrArg Vol.store h.outer⟩

theorem marks_of_within {w w' : Vol} (h : w.Within w') : MarkKeeps w w' := marks_of_around h.around

theorem MarkKeeps.guard {w w' : Vol} (b : Bool) (h : MarkKeeps w w') : MarkKeeps w (if b then w' else w) := by
  cases b
  · exact .refl w
  · exact h

/-- A voice that takes other fields than its two counts. -/
theorem setVoice_counts (w : Vol) (v : Nat) (x : Voice) (h1 : x.stalls = (w.voice v).stalls)
    (h2 : x.damaged = (w.voice v).damaged) : w.Within (w.setVoice v x) :=
  setVoice_within _ _ _ (by simp only [Voice.fixed, h1, h2])

theorem takeList_within (w : Vol) (nv : Nonvolatile) (v : Nat) : w.Within (w.takeList nv v) := by
  have flag : ∀ (w : Vol) (r : Option Nat) (b : Bool), w.Within (match r with
      | some n => if b then w.modRequest n fun r => { r with incomplete := true } else w
      | none => w) := by
    intro w r b
    split
    · split
      · exact modRequest_within _ _ _
      · exact .refl w
    · exact .refl w
  unfold Vol.takeList
  dsimp only
  split
  · exact .refl w
  · split
    · exact setVoice_counts _ _ _ rfl rfl
    · refine Vol.Within.trans ?_ (makeDemand_within _ v)
      refine Vol.Within.trans ?_ (setVoice_counts _ v _ rfl rfl)
      refine Vol.Within.trans ?_ (raiseUses_within _ _)
      refine Vol.Within.trans ?_ (lowerUses_within _ _)
      refine Vol.Within.trans ?_ (withdrawDemand_within _ v)
      exact flag w (w.voice v).request (expandEvac nv _).2

theorem voiceMark_within (w : Vol) (nv : Nonvolatile) (v : Nat) : w.Within (w.voiceMark nv v) := by
  unfold Vol.voiceMark Vol.stopCancelled Vol.takeEnd Vol.startVoice Vol.resumeVoice
  dsimp only
  split
  · split
    · exact (removeRequest_within _ _ _).trans (handOut_within _ _)
    · exact .refl w
  · split
    · split
      · exact (releaseVoice_within _ _).trans ((settleEnd_within _ _).trans (handOut_within _ _))
      · exact (releaseVoice_within _ _).trans (handOut_within _ _)
    · have starts := setVoice_counts w v { w.voice v with state := .playing } rfl rfl
      split
      · split
        · exact starts.trans (modRequest_within _ _ _)
        · exact starts
      · split
        · exact starts
        · exact .refl w

theorem clockMark_keeps (w : Vol) (nv : Nonvolatile) : MarkKeeps w (w.clockMark nv) := by
  have after : ∀ w : Vol, MarkKeeps w ((w.queueTime nv).finish nv) := fun w =>
    marks_of_within ((queueTime_within _ _).trans (finish_within _ _))
  have tick : ∀ (w : Vol) (c : StationClock), c.isSet = w.clock.isSet → c.dayBase = w.clock.dayBase →
      MarkKeeps w { w with clock := c } := by
    intro w c h1 h2
    refine ⟨?_, rfl⟩
    show ({ frameKeeps w.outer with clock := { c with time := 0, marks := 0 } } : Vol) = frameKeeps w.outer
    rw [show ({ c with time := 0, marks := 0 } : StationClock) = { w.clock with time := 0, marks := 0 } by rw [h1, h2]]
    rfl
  unfold Vol.clockMark
  split
  · exact after w
  · split
    · refine MarkKeeps.trans ?_ (after _)
      unfold Vol.advanceSecond
      dsimp only
      split
      · exact (tick w { w.clock with time := w.clock.time + 1, marks := 0 } rfl rfl).trans (marks_of_around (walkAll_around _ _))
      · exact tick w { w.clock with marks := 0 } rfl rfl
    · split
      · exact tick w _ rfl rfl
      · exact .refl w

theorem silenceMark_keeps (w : Vol) (nv : Nonvolatile) (z : Nat) : MarkKeeps w (w.silenceMark nv z) := by
  unfold Vol.silenceMark
  dsimp only
  split
  · exact marks_of_around ((zoneEvent_around w nv z Zone.goSilent fun _ => rfl).trans (finish_around _ _))
  · split
    · exact marks_of_around (modZone_around w z (fun x => { x with silence := x.silence + 1 }) fun _ => rfl)
    · exact .refl w

theorem applyStaged_keeps (w : Vol) (z : Nat) : MarkKeeps w (w.applyStaged z) := by
  refine ⟨?_, rfl⟩
  have hz : ∀ x : Zone, x.configured = (w.zone z).configured → ∀ a b : Nat,
      (((tset w.zones z { x with fgBase := a, bgBase := b }).map Zone.configured).map
        fun x => ({ x with fgBase := 0, bgBase := 0 } : Zone))
      = (w.zones.map Zone.configured).map fun x => ({ x with fgBase := 0, bgBase := 0 } : Zone) := by
    intro x hx a b
    simp only [Vector.map_map]
    refine map_tset _ .initial _ _ _ ?_
    show ({ x.configured with fgBase := 0, bgBase := 0 } : Zone) = { (w.zone z).configured with fgBase := 0, bgBase := 0 }
    rw [hx]
  have := hz (w.zone z) rfl ((w.gain z).stagedFg.getD (w.zone z).fgBase) ((w.gain z).stagedBg.getD (w.zone z).bgBase)
  exact congrArg (fun t => ({ frameKeeps w.outer with zones := t } : Vol)) this

theorem showLine_keeps (w : Vol) (l : Nat) : MarkKeeps w (w.showLine l) := by
  unfold Vol.showLine
  split
  · exact marks_of_around (modLine_around _ _ _ (by intro _; rfl))
  · exact .refl w

theorem marks_fclk (w : Vol) (c : FrameClock) : MarkKeeps w { w with fclk := c } := ⟨rfl, rfl⟩

theorem marks_setVoice (w : Vol) (v : Nat) (x : Voice) : MarkKeeps w (w.setVoice v x) := ⟨rfl, rfl⟩

theorem markParts_keeps (w : Vol) (nv : Nonvolatile) (levels : BitVec 16) : MarkKeeps w (w.markParts nv levels) := by
  have list : ∀ w : Vol, MarkKeeps w (w.listEvent nv) := by
    intro w
    unfold Vol.listEvent
    split
    · exact marks_of_within ((takeList_within _ _ _).trans (finish_within _ _))
    · exact .refl w
  have alert : ∀ w : Vol, MarkKeeps w (w.alertEvent nv) := by
    intro w
    unfold Vol.alertEvent
    split
    · exact marks_of_around ((alertMark_around _ _).trans (finish_around _ _))
    · exact marks_of_around (alertMark_around _ _)
  have talk : ∀ (w : Vol) (l : Nat), MarkKeeps w (w.talkEvent nv l) := by
    intro w l
    unfold Vol.talkEvent
    split
    · exact marks_of_around ((talkMark_around _ _).trans (finish_around _ _))
    · exact marks_of_around (talkMark_around _ _)
  have line : ∀ (w : Vol) (l : Nat), MarkKeeps w (w.lineMark nv l (levels.getLsbD l)) := by
    intro w l
    unfold Vol.lineMark
    split
    · exact marks_of_around ((sampleLine_around _ _ _ _).trans (finish_around _ _))
    · exact marks_of_around (sampleLine_around _ _ _ _)
  unfold Vol.markParts
  refine MarkKeeps.trans ?_ (.foldl _ _ _ fun w v => .guard _ (marks_of_within
    ((voiceMark_within w nv v).trans (finish_within _ nv))))
  refine MarkKeeps.trans ?_ (.foldl _ _ _ fun w l => .guard _ (line w l))
  refine MarkKeeps.trans ?_ (.foldl _ _ _ fun w l => .guard _ (marks_of_around (absenceMark_around w _ l)))
  refine MarkKeeps.trans ?_ (.foldl _ _ _ fun w l => .guard _ (talk w l))
  refine MarkKeeps.trans ?_ (.guard _ (alert _))
  refine MarkKeeps.trans ?_ (.foldl _ _ _ fun w z => .guard _ (silenceMark_keeps w nv z))
  exact (MarkKeeps.guard _ (list w)).trans (clockMark_keeps _ nv)

/-- A block mark, of all that no frame changes (R169). -/
theorem blockMark_keeps (w : Vol) (nv : Nonvolatile) (levels : BitVec 16) : MarkKeeps w (w.blockMark nv levels) := by
  have outputs : MarkKeeps w (w.atOutputs nv levels) := by
    unfold Vol.atOutputs Vol.mixerMark
    refine MarkKeeps.trans ?_ (.foldl _ _ _ fun w g => .guard _ ⟨rfl, rfl⟩)
    refine MarkKeeps.trans ?_ (.foldl _ _ _ fun w z => ⟨rfl, rfl⟩)
    exact (markParts_keeps w nv levels).trans (.foldl _ _ _ fun w z => applyStaged_keeps w z)
  have lines : MarkKeeps w (w.atOutputs nv levels).showLines := by
    unfold Vol.showLines
    exact outputs.trans (.foldl _ _ _ fun w l => showLine_keeps w l)
  unfold Vol.blockMark Vol.modVoice
  exact (lines.trans (marks_setVoice _ _ _)).trans (marks_fclk _ _)

theorem atSamples_keeps (w : Vol) (nv : Nonvolatile) (levels : BitVec 16) : MarkKeeps w (w.atSamples nv levels) := by
  unfold Vol.atSamples
  dsimp only
  split
  · exact (blockMark_keeps w nv levels).trans (marks_fclk _ _)
  · exact marks_fclk _ _

/-! ### The end of an event without EXHAUSTED reports, and the whole frame -/

theorem arbitration_finish {w : Vol} (nv : Nonvolatile) (h : w.exhaustedVoice = none) :
    arbitration (w.finish nv) = arbitration w := by
  have hu : ∀ x : Vol, arbitration x = arbitration x.unread := fun _ => rfl
  rw [hu (w.finish nv), hu w, (finish_endsAs w nv).quiet h]

theorem betweenMarks_finish (w : Vol) (nv : Nonvolatile) : betweenMarks (w.finish nv).fixed = betweenMarks w.fixed :=
  betweenMarks_of_within (finish_within w nv)

theorem arms_of_fixed {c c' : StoreCtl} (h : c'.fixed = c.fixed) : (c'.eraseArm, c'.abortArm) = (c.eraseArm, c.abortArm) := by
  simpa [StoreCtl.fixed] using congrArg (fun c : StoreCtl => (c.eraseArm, c.abortArm)) h

theorem finish_store (w : Vol) (nv : Nonvolatile) : (w.finish nv).store.fixed = w.store.fixed :=
  congrArg Vol.store (finish_within w nv).fixed

theorem arms_finish (w : Vol) (nv : Nonvolatile) : ((w.finish nv).store.eraseArm, (w.finish nv).store.abortArm)
    = (w.store.eraseArm, w.store.abortArm) := arms_of_fixed (finish_store w nv)

/-- `w'` is what a frame's own work can make of `w` outside a block mark: what is due, its messages, its samples, and the end of
its events. -/
structure FrameWork (w w' : Vol) : Prop where
  between : betweenMarks w'.fixed = betweenMarks w.fixed
  arbitration : w.exhaustedVoice = none → arbitration w' = arbitration w

theorem FrameWork.refl (w : Vol) : FrameWork w w := ⟨rfl, fun _ => rfl⟩

theorem FrameWork.trans {a b c : Vol} (h : FrameWork a b) (k : FrameWork b c) : FrameWork a c :=
  ⟨k.between.trans h.between, fun hq =>
    (k.arbitration ((exhaustedVoice_of_arbitration (h.arbitration hq)).trans hq)).trans (h.arbitration hq)⟩

theorem frameWork_finish (w : Vol) (nv : Nonvolatile) : FrameWork w (w.finish nv) :=
  ⟨betweenMarks_finish w nv, arbitration_finish nv⟩

theorem DueKeeps.work {w w' : Vol} (h : DueKeeps w w') : FrameWork w w' := ⟨h.between, fun _ => h.arbitration⟩

theorem sending_voices (w : Vol) : w.endSending.startSending.voices = w.voices
    ∧ w.endSending.startSending.store = w.store := by
  have ends : w.endSending.voices = w.voices := by
    unfold Vol.endSending
    split
    · split
      · rfl
      · rfl
    · rfl
  have starts : ∀ w : Vol, w.startSending.voices = w.voices := by
    intro w
    unfold Vol.startSending
    split
    · split
      · split
        · rfl
        · rfl
      · rfl
      · rfl
    · rfl
  exact ⟨(starts _).trans ends, (startSending_keeps _).2.2.trans (endSending_keeps w).2.2⟩

/-- The count of a frame for the store looks at the voices and the store controller alone. -/
theorem storeTick_store {w w' : Vol} (nv : Nonvolatile) (hv : w'.voices = w.voices) (hs : w'.store = w.store) :
    (w'.storeTick nv).store = (w.storeTick nv).store := by
  have : w'.suspended nv = w.suspended nv := by
    unfold Vol.suspended Vol.suspendedOn Vol.waitsFor Vol.voice
    rw [hv, hs]
  unfold Vol.storeTick Vol.modStore
  dsimp only
  rw [this, hs]

theorem frameWork_storeTick (w : Vol) (nv : Nonvolatile) : FrameWork w (w.storeTick nv) := ⟨rfl, fun _ => rfl⟩

theorem arms_storeTick (w : Vol) (nv : Nonvolatile) : ((w.storeTick nv).store.eraseArm, (w.storeTick nv).store.abortArm)
    = (w.store.eraseArm, w.store.abortArm) := rfl

theorem op_finish (w : Vol) (nv : Nonvolatile) : (w.finish nv).store.op = w.store.op := by
  simpa [StoreCtl.fixed] using congrArg StoreCtl.op (finish_store w nv)

/-- An operation that is overdue is no verify, whose end is its last read. -/
theorem notVerifying_of_overdue {op : StoreOp} (h : op.overdue = true) : notVerifying op := by
  intro c n k i x hx
  rw [hx] at h
  exact absurd h (by simp [StoreOp.overdue])

/-- What is due before a frame (log entry 8): all that it can do to the store, and what it leaves of the rest. -/
theorem beforeFrame_keeps (s : State) (v : ReadVerdict) : FrameWork s.vol (beforeFrame s v).vol
    ∧ ((beforeFrame s v).vol.store.eraseArm, (beforeFrame s v).vol.store.abortArm)
      = (s.vol.store.eraseArm, s.vol.store.abortArm)
    ∧ (beforeFrame s v).power = s.power ∧ (beforeFrame s v).pending = s.pending
    ∧ (s.vol.store.op.overdue = false → { (beforeFrame s v).nv with dir := s.nv.dir } = s.nv)
    ∧ (s.vol.readDue = false → s.vol.store.op.overdue = false →
        (beforeFrame s v).nv = s.nv ∧ (beforeFrame s v).vol.store = (s.vol.storeTick s.nv).store)
    ∧ (s.vol.store.op.overdue = true → (beforeFrame s v).nv = (endOverdue s).nv) := by
  have reads : ∃ s1, s1 = (if s.vol.readDue then (completeRead s v).finish else s) ∧ FrameWork s.vol s1.vol
      ∧ (s1.vol.store.eraseArm, s1.vol.store.abortArm) = (s.vol.store.eraseArm, s.vol.store.abortArm)
      ∧ s1.power = s.power ∧ s1.pending = s.pending ∧ { s1.nv with dir := s.nv.dir } = s.nv
      ∧ (notVerifying s.vol.store.op → s1.nv = s.nv ∧ s1.vol.store.op = s.vol.store.op)
      ∧ (s.vol.store.op.overdue = false → s1.vol.store.op.overdue = false) ∧ (s.vol.readDue = false → s1 = s) := by
    refine ⟨_, rfl, ?_⟩
    split
    · rename_i hd
      obtain ⟨h1, h2, h3, h4, h5⟩ := completeRead_keeps s v
      refine ⟨h1.work.trans (frameWork_finish _ _), (arms_finish _ _).trans h1.arms, h3, h4, h2,
        fun hn => ⟨(h5 hn).1, (op_finish _ _).trans (h5 hn).2⟩, ?_, fun hr => absurd hd (by simp [hr])⟩
      intro ho
      show ((completeRead s v).vol.finish (completeRead s v).nv).store.op.overdue = false
      rw [op_finish]
      exact completeRead_overdue s v ho
    · exact ⟨.refl _, rfl, rfl, rfl, rfl, fun _ => ⟨rfl, rfl⟩, id, fun _ => rfl⟩
  obtain ⟨s1, e1, w1, a1, p1, q1, n1, v1, o1, i1⟩ := reads
  have ends : ∃ s2, s2 = (if s1.vol.store.op.overdue then (endOverdue s1).finish else s1) ∧ FrameWork s1.vol s2.vol
      ∧ (s2.vol.store.eraseArm, s2.vol.store.abortArm) = (s1.vol.store.eraseArm, s1.vol.store.abortArm)
      ∧ s2.power = s1.power ∧ s2.pending = s1.pending ∧ (s1.vol.store.op.overdue = false → s2 = s1)
      ∧ (s1.vol.store.op.overdue = true → s2.nv = (endOverdue s1).nv) := by
    refine ⟨_, rfl, ?_⟩
    split
    · rename_i ho
      obtain ⟨h1, h2, h3⟩ := endOverdue_keeps s1
      exact ⟨h1.work.trans (frameWork_finish _ _), (arms_finish _ _).trans h1.arms, h2, h3,
        fun h => absurd ho (by simp [h]), fun _ => rfl⟩
    · rename_i ho
      exact ⟨.refl _, rfl, rfl, rfl, fun _ => rfl, fun h => absurd h ho⟩
  obtain ⟨s2, e2, w2, a2, p2, q2, i2, n2⟩ := ends
  have hb : beforeFrame s v = { s2 with vol := s2.vol.endSending.startSending.storeTick s2.nv } := by
    rw [e2, e1]
    rfl
  have hs := sending_voices s2.vol
  have work : FrameWork s2.vol (s2.vol.endSending.startSending.storeTick s2.nv) := by
    refine FrameWork.trans ?_ (frameWork_storeTick _ _)
    obtain ⟨h1, h2, -⟩ := endSending_keeps s2.vol
    obtain ⟨k1, k2, -⟩ := startSending_keeps s2.vol.endSending
    exact ⟨k1.trans h1, fun _ => k2.trans h2⟩
  rw [hb]
  refine ⟨w1.trans (w2.trans work), ?_, p2.trans p1, q2.trans q1, ?_, ?_, ?_⟩
  · rw [arms_storeTick, hs.2, a2, a1]
  · intro ho
    rw [i2 (o1 ho)]
    exact n1
  · intro hr ho
    rw [i2 (o1 ho), i1 hr]
    exact ⟨rfl, storeTick_store _ (sending_voices s.vol).1 (sending_voices s.vol).2⟩
  · intro ho
    obtain ⟨h1, h2⟩ := v1 (notVerifying_of_overdue ho)
    exact (n2 (by rw [h2]; exact ho)).trans (endOverdue_nv h1 h2)

/-- A frame from its alignment buffer to its end. -/
def frameBody (nv : Nonvolatile) (levels : BitVec 16) (w : Vol) : Vol :=
  ((w.giveLanes.atSamples nv levels).produce nv).finish nv

theorem takeFrame_body (x : FrameInput) (s : State) (hr : s.running = true) :
    takeFrame x s = { beforeFrame s x.verdict with
      vol := frameBody (beforeFrame s x.verdict).nv x.levels (beforeFrame s x.verdict).vol } := by
  unfold takeFrame whenRunning
  rw [if_pos hr]
  rfl

theorem frameBody_store (nv : Nonvolatile) (levels : BitVec 16) (w : Vol) :
    (frameBody nv levels w).store.fixed = w.store.fixed := by
  unfold frameBody
  rw [finish_store, (produce_keeps _ nv).2.2, (atSamples_keeps _ nv levels).store, (giveLanes_keeps w).2.2]

theorem frameBody_keeps (nv : Nonvolatile) (levels : BitVec 16) (w : Vol) :
    frameKeeps (frameBody nv levels w).outer = frameKeeps w.outer := by
  unfold frameBody
  rw [frameKeeps_of_betweenMarks (betweenMarks_finish _ nv), frameKeeps_of_betweenMarks (produce_keeps _ nv).1,
    (atSamples_keeps _ nv levels).keeps, frameKeeps_of_betweenMarks (giveLanes_keeps w).1]

theorem fclk_betweenMarks (w : Vol) : (betweenMarks w.fixed).fclk = w.fclk := rfl

theorem betweenMarks_fclk {w w' : Vol} (h : betweenMarks w'.fixed = betweenMarks w.fixed) : w'.fclk = w.fclk := by
  rw [← fclk_betweenMarks w', h, fclk_betweenMarks]

/-- Without a block mark a frame moves its own count alone before it produces its samples. -/
theorem atSamples_between {w : Vol} (nv : Nonvolatile) (levels : BitVec 16) (h : w.atMark = false) :
    ∃ c : FrameClock, w.atSamples nv levels = { w with fclk := c } := by
  unfold Vol.atSamples
  rw [h]
  exact ⟨_, rfl⟩

theorem betweenMarks_count (w : Vol) (c d : FrameClock) :
    ({ betweenMarks ({ w with fclk := c } : Vol).fixed with fclk := d } : Vol)
      = { betweenMarks w.fixed with fclk := d } := rfl

theorem frameBody_between (nv : Nonvolatile) (levels : BitVec 16) {w : Vol} (h : w.atMark = false) (d : FrameClock) :
    ({ betweenMarks (frameBody nv levels w).fixed with fclk := d } : Vol) = { betweenMarks w.fixed with fclk := d }
    ∧ (w.exhaustedVoice = none → arbitration (frameBody nv levels w) = arbitration w) := by
  have hg := giveLanes_keeps w
  have hm : w.giveLanes.atMark = false := by
    unfold Vol.atMark at h ⊢
    rw [betweenMarks_fclk hg.1]
    exact h
  obtain ⟨c, hc⟩ := atSamples_between nv levels hm
  have hp := produce_keeps ({ w.giveLanes with fclk := c } : Vol) nv
  have ha : arbitration (({ w.giveLanes with fclk := c } : Vol).produce nv) = arbitration w :=
    hp.2.1.trans (Eq.trans rfl hg.2.1)
  unfold frameBody
  rw [hc]
  refine ⟨?_, fun hq => ?_⟩
  · rw [betweenMarks_finish, hp.1, betweenMarks_count, hg.1]
  · exact (arbitration_finish nv ((exhaustedVoice_of_arbitration ha).trans hq)).trans ha

/-- All that a frame of a running part does to the nonvolatile store, and what it leaves of the volatile state (R169): what no
frame changes; without a block mark what the end of an event cannot change, and the arbitration too when no claim is reported
EXHAUSTED. -/
theorem takeFrame_keeps (x : FrameInput) (s : State) (hr : s.running = true) :
    (takeFrame x s).nv = (beforeFrame s x.verdict).nv ∧ (takeFrame x s).power = s.power
    ∧ (takeFrame x s).pending = s.pending
    ∧ frameKeeps (takeFrame x s).vol.outer = frameKeeps s.vol.outer
    ∧ ((takeFrame x s).vol.store.eraseArm, (takeFrame x s).vol.store.abortArm)
      = (s.vol.store.eraseArm, s.vol.store.abortArm)
    ∧ (s.vol.readDue = false → s.vol.store.op.overdue = false →
        (takeFrame x s).vol.store.fixed = (s.vol.storeTick s.nv).store.fixed)
    ∧ (s.vol.atMark = false →
      ({ betweenMarks (takeFrame x s).vol.fixed with fclk := s.vol.fclk } : Vol)
        = { betweenMarks s.vol.fixed with fclk := s.vol.fclk }
      ∧ (s.vol.exhaustedVoice = none → arbitration (takeFrame x s).vol = arbitration s.vol)) := by
  obtain ⟨w1, a1, p1, q1, -, i1, -⟩ := beforeFrame_keeps s x.verdict
  rw [takeFrame_body x s hr]
  generalize beforeFrame s x.verdict = b at *
  have hk := frameBody_keeps b.nv x.levels b.vol
  have hs := frameBody_store b.nv x.levels b.vol
  have hb := fun h d => frameBody_between b.nv x.levels (w := b.vol) h d
  generalize frameBody b.nv x.levels b.vol = w' at *
  refine ⟨rfl, p1, q1, hk.trans (frameKeeps_of_betweenMarks w1.between), (arms_of_fixed hs).trans a1, ?_, ?_⟩
  · intro hd ho
    exact hs.trans (congrArg StoreCtl.fixed (i1 hd ho).2)
  · intro hm
    have hbm : b.vol.atMark = false := by
      unfold Vol.atMark at hm ⊢
      rw [betweenMarks_fclk w1.between]
      exact hm
    have h := hb hbm s.vol.fclk
    refine ⟨?_, fun hq => ?_⟩
    · show ({ betweenMarks w'.fixed with fclk := s.vol.fclk } : Vol) = _
      rw [h.1, w1.between]
    · have ha := w1.arbitration hq
      exact (h.2 ((exhaustedVoice_of_arbitration ha).trans hq)).trans ha

end Sys2Proof.Laws
end

