-- ==== Sys2Proof/Laws/FrameBits.lean ====
section
/-! SUPPORT. What a field is as bits, and the lengths of the parts of a frame (R162). -/

namespace Sys2Proof.Machine

@[simp] theorem length_msbBits (w n : Nat) : (msbBits w n).length = w := by simp [msbBits]

@[simp] theorem length_fieldBits {n : Nat} (x : BitVec n) : (fieldBits x).length = n := by simp [fieldBits]

/-- A field stands most significant bit first. -/
theorem fieldBits_getElem? {n : Nat} (x : BitVec n) {k : Nat} (h : k < n) : (fieldBits x)[k]? = some (x.getMsbD k) := by
  simp [fieldBits, msbBits, h, BitVec.getMsbD, BitVec.getLsbD]

@[simp] theorem length_openingBits (sync : BitVec 16) (index : Nat) (valid spare : Bool) :
    (openingBits sync index valid spare).length = 24 := by simp [openingBits, headBits]

@[simp] theorem length_closingBits (byte : Byte) (headerCheck : BitVec 8) (slotCheck : BitVec 16) :
    (closingBits byte headerCheck slotCheck).length = 32 := by simp [closingBits]

@[simp] theorem length_slotsBits (slots : List Audio) : (slotsBits slots).length = 24 * slots.length := by
  induction slots with
  | nil => rfl
  | cons x slots ih =>
    simp only [slotsBits, List.flatMap_cons, List.length_append, length_fieldBits, List.length_cons] at ih ⊢
    omega

@[simp] theorem length_presenceBits (p : BitVec 32) : (presenceBits p).length = 32 := by simp [presenceBits]

end Sys2Proof.Machine
end

