-- ==== Sys2Proof/Laws/Operands.lean ====
section
/-! SUPPORT. The range checks of operands as propositions: one lemma for each shape of check. -/

namespace Sys2Proof.Laws

open Sys2Proof.Machine

theorem optBelow_iff (n : Nat) (o : Option Nat) : optBelow n o = true ↔ ∀ x, o = some x → x < n := by
  cases o <;> simp [optBelow]

theorem within_iff (lo hi x : Nat) : within lo hi x = true ↔ lo ≤ x ∧ x ≤ hi := by simp [within]

theorem optWithin_iff (lo hi : Nat) (o : Option Nat) : optWithin lo hi o = true ↔ ∀ x, o = some x → lo ≤ x ∧ x ≤ hi := by
  cases o <;> simp [optWithin, within]

/-- A check of every entry of a table is a check of what every index reads. -/
theorem toList_all_iff {α : Type} (d : α) {n : Nat} (t : Vector α n) (f : α → Bool) :
    t.toList.all f = true ↔ ∀ k < n, f (tget d t k) = true := by
  rw [List.all_eq_true]
  simp only [tget]
  constructor
  · intro h k hk
    apply h
    simp [hk]
  · intro h y hy
    obtain ⟨k, hk, e⟩ := List.getElem_of_mem hy
    simp only [Vector.length_toList] at hk
    have := h k hk
    simp only [hk, getElem?_pos, Option.getD_some] at this
    simpa [← e] using this

end Sys2Proof.Laws
end

