-- ==== Sys2Proof/Laws/State.lean ====
section
/-! SUPPORT. What an update of the state leaves: every field but the one it names, and the record it writes. -/

namespace Sys2Proof.Machine

/-! ### Fields after an update, all by computation -/

@[simp] theorem Vol.setZone_fields (w : Vol) (z : Nat) (x : Zone) :
    (w.setZone z x).mode = w.mode ∧ (w.setZone z x).ports = w.ports ∧ (w.setZone z x).align = w.align ∧
      (w.setZone z x).fclk = w.fclk ∧ (w.setZone z x).sent = w.sent ∧ (w.setZone z x).engine = w.engine ∧
      (w.setZone z x).groups = w.groups ∧ (w.setZone z x).platforms = w.platforms ∧
      (w.setZone z x).reportDiscards = w.reportDiscards ∧ (w.setZone z x).claims = w.claims ∧
      (w.setZone z x).stampCounter = w.stampCounter ∧ (w.setZone z x).live = w.live ∧
      (w.setZone z x).gains = w.gains ∧ (w.setZone z x).rampRate = w.rampRate ∧ (w.setZone z x).monitor = w.monitor ∧
      (w.setZone z x).clock = w.clock ∧ (w.setZone z x).calls = w.calls ∧ (w.setZone z x).profiles = w.profiles ∧
      (w.setZone z x).due = w.due ∧ (w.setZone z x).queue = w.queue ∧ (w.setZone z x).templates = w.templates ∧
      (w.setZone z x).hours = w.hours ∧ (w.setZone z x).minutes = w.minutes ∧ (w.setZone z x).numbers = w.numbers ∧
      (w.setZone z x).platPhrases = w.platPhrases ∧ (w.setZone z x).dests = w.dests ∧
      (w.setZone z x).voices = w.voices ∧ (w.setZone z x).store = w.store ∧ (w.setZone z x).lines = w.lines ∧
      (w.setZone z x).gens = w.gens ∧ (w.setZone z x).evac = w.evac :=
  ⟨rfl, rfl, rfl, rfl, rfl, rfl, rfl, rfl, rfl, rfl, rfl, rfl, rfl, rfl, rfl, rfl, rfl, rfl, rfl, rfl, rfl, rfl, rfl, rfl, rfl, rfl, rfl, rfl, rfl, rfl, rfl⟩

@[simp] theorem Vol.modZone_fields (w : Vol) (z : Nat) (f : Zone → Zone) :
    (w.modZone z f).mode = w.mode ∧ (w.modZone z f).ports = w.ports ∧ (w.modZone z f).align = w.align ∧
      (w.modZone z f).fclk = w.fclk ∧ (w.modZone z f).sent = w.sent ∧ (w.modZone z f).engine = w.engine ∧
      (w.modZone z f).groups = w.groups ∧ (w.modZone z f).platforms = w.platforms ∧
      (w.modZone z f).reportDiscards = w.reportDiscards ∧ (w.modZone z f).claims = w.claims ∧
      (w.modZone z f).stampCounter = w.stampCounter ∧ (w.modZone z f).live = w.live ∧
      (w.modZone z f).gains = w.gains ∧ (w.modZone z f).rampRate = w.rampRate ∧ (w.modZone z f).monitor = w.monitor ∧
      (w.modZone z f).clock = w.clock ∧ (w.modZone z f).calls = w.calls ∧ (w.modZone z f).profiles = w.profiles ∧
      (w.modZone z f).due = w.due ∧ (w.modZone z f).queue = w.queue ∧ (w.modZone z f).templates = w.templates ∧
      (w.modZone z f).hours = w.hours ∧ (w.modZone z f).minutes = w.minutes ∧ (w.modZone z f).numbers = w.numbers ∧
      (w.modZone z f).platPhrases = w.platPhrases ∧ (w.modZone z f).dests = w.dests ∧
      (w.modZone z f).voices = w.voices ∧ (w.modZone z f).store = w.store ∧ (w.modZone z f).lines = w.lines ∧
      (w.modZone z f).gens = w.gens ∧ (w.modZone z f).evac = w.evac :=
  ⟨rfl, rfl, rfl, rfl, rfl, rfl, rfl, rfl, rfl, rfl, rfl, rfl, rfl, rfl, rfl, rfl, rfl, rfl, rfl, rfl, rfl, rfl, rfl, rfl, rfl, rfl, rfl, rfl, rfl, rfl, rfl⟩

@[simp] theorem Vol.setGroup_fields (w : Vol) (g : Nat) (m : List Nat) :
    (w.setGroup g m).mode = w.mode ∧ (w.setGroup g m).ports = w.ports ∧ (w.setGroup g m).align = w.align ∧
      (w.setGroup g m).fclk = w.fclk ∧ (w.setGroup g m).sent = w.sent ∧ (w.setGroup g m).engine = w.engine ∧
      (w.setGroup g m).zones = w.zones ∧ (w.setGroup g m).platforms = w.platforms ∧
      (w.setGroup g m).reportDiscards = w.reportDiscards ∧ (w.setGroup g m).claims = w.claims ∧
      (w.setGroup g m).stampCounter = w.stampCounter ∧ (w.setGroup g m).live = w.live ∧
      (w.setGroup g m).gains = w.gains ∧ (w.setGroup g m).rampRate = w.rampRate ∧
      (w.setGroup g m).monitor = w.monitor ∧ (w.setGroup g m).clock = w.clock ∧ (w.setGroup g m).calls = w.calls ∧
      (w.setGroup g m).profiles = w.profiles ∧ (w.setGroup g m).due = w.due ∧ (w.setGroup g m).queue = w.queue ∧
      (w.setGroup g m).templates = w.templates ∧ (w.setGroup g m).hours = w.hours ∧
      (w.setGroup g m).minutes = w.minutes ∧ (w.setGroup g m).numbers = w.numbers ∧
      (w.setGroup g m).platPhrases = w.platPhrases ∧ (w.setGroup g m).dests = w.dests ∧
      (w.setGroup g m).voices = w.voices ∧ (w.setGroup g m).store = w.store ∧ (w.setGroup g m).lines = w.lines ∧
      (w.setGroup g m).gens = w.gens ∧ (w.setGroup g m).evac = w.evac :=
  ⟨rfl, rfl, rfl, rfl, rfl, rfl, rfl, rfl, rfl, rfl, rfl, rfl, rfl, rfl, rfl, rfl, rfl, rfl, rfl, rfl, rfl, rfl, rfl, rfl, rfl, rfl, rfl, rfl, rfl, rfl, rfl⟩

@[simp] theorem Vol.setPlatform_fields (w : Vol) (p : Nat) (x : Platform) :
    (w.setPlatform p x).mode = w.mode ∧ (w.setPlatform p x).ports = w.ports ∧ (w.setPlatform p x).align = w.align ∧
      (w.setPlatform p x).fclk = w.fclk ∧ (w.setPlatform p x).sent = w.sent ∧ (w.setPlatform p x).engine = w.engine ∧
      (w.setPlatform p x).zones = w.zones ∧ (w.setPlatform p x).groups = w.groups ∧
      (w.setPlatform p x).reportDiscards = w.reportDiscards ∧ (w.setPlatform p x).claims = w.claims ∧
      (w.setPlatform p x).stampCounter = w.stampCounter ∧ (w.setPlatform p x).live = w.live ∧
      (w.setPlatform p x).gains = w.gains ∧ (w.setPlatform p x).rampRate = w.rampRate ∧
      (w.setPlatform p x).monitor = w.monitor ∧ (w.setPlatform p x).clock = w.clock ∧
      (w.setPlatform p x).calls = w.calls ∧ (w.setPlatform p x).profiles = w.profiles ∧
      (w.setPlatform p x).due = w.due ∧ (w.setPlatform p x).queue = w.queue ∧
      (w.setPlatform p x).templates = w.templates ∧ (w.setPlatform p x).hours = w.hours ∧
      (w.setPlatform p x).minutes = w.minutes ∧ (w.setPlatform p x).numbers = w.numbers ∧
      (w.setPlatform p x).platPhrases = w.platPhrases ∧ (w.setPlatform p x).dests = w.dests ∧
      (w.setPlatform p x).voices = w.voices ∧ (w.setPlatform p x).store = w.store ∧
      (w.setPlatform p x).lines = w.lines ∧ (w.setPlatform p x).gens = w.gens ∧ (w.setPlatform p x).evac = w.evac :=
  ⟨rfl, rfl, rfl, rfl, rfl, rfl, rfl, rfl, rfl, rfl, rfl, rfl, rfl, rfl, rfl, rfl, rfl, rfl, rfl, rfl, rfl, rfl, rfl, rfl, rfl, rfl, rfl, rfl, rfl, rfl, rfl⟩

@[simp] theorem Vol.modPlatform_fields (w : Vol) (p : Nat) (f : Platform → Platform) :
    (w.modPlatform p f).mode = w.mode ∧ (w.modPlatform p f).ports = w.ports ∧ (w.modPlatform p f).align = w.align ∧
      (w.modPlatform p f).fclk = w.fclk ∧ (w.modPlatform p f).sent = w.sent ∧ (w.modPlatform p f).engine = w.engine ∧
      (w.modPlatform p f).zones = w.zones ∧ (w.modPlatform p f).groups = w.groups ∧
      (w.modPlatform p f).reportDiscards = w.reportDiscards ∧ (w.modPlatform p f).claims = w.claims ∧
      (w.modPlatform p f).stampCounter = w.stampCounter ∧ (w.modPlatform p f).live = w.live ∧
      (w.modPlatform p f).gains = w.gains ∧ (w.modPlatform p f).rampRate = w.rampRate ∧
      (w.modPlatform p f).monitor = w.monitor ∧ (w.modPlatform p f).clock = w.clock ∧
      (w.modPlatform p f).calls = w.calls ∧ (w.modPlatform p f).profiles = w.profiles ∧
      (w.modPlatform p f).due = w.due ∧ (w.modPlatform p f).queue = w.queue ∧
      (w.modPlatform p f).templates = w.templates ∧ (w.modPlatform p f).hours = w.hours ∧
      (w.modPlatform p f).minutes = w.minutes ∧ (w.modPlatform p f).numbers = w.numbers ∧
      (w.modPlatform p f).platPhrases = w.platPhrases ∧ (w.modPlatform p f).dests = w.dests ∧
      (w.modPlatform p f).voices = w.voices ∧ (w.modPlatform p f).store = w.store ∧
      (w.modPlatform p f).lines = w.lines ∧ (w.modPlatform p f).gens = w.gens ∧ (w.modPlatform p f).evac = w.evac :=
  ⟨rfl, rfl, rfl, rfl, rfl, rfl, rfl, rfl, rfl, rfl, rfl, rfl, rfl, rfl, rfl, rfl, rfl, rfl, rfl, rfl, rfl, rfl, rfl, rfl, rfl, rfl, rfl, rfl, rfl, rfl, rfl⟩

@[simp] theorem Vol.setClaim_fields (w : Vol) (c : Nat) (x : Option Claim) :
    (w.setClaim c x).mode = w.mode ∧ (w.setClaim c x).ports = w.ports ∧ (w.setClaim c x).align = w.align ∧
      (w.setClaim c x).fclk = w.fclk ∧ (w.setClaim c x).sent = w.sent ∧ (w.setClaim c x).engine = w.engine ∧
      (w.setClaim c x).zones = w.zones ∧ (w.setClaim c x).groups = w.groups ∧
      (w.setClaim c x).platforms = w.platforms ∧ (w.setClaim c x).reportDiscards = w.reportDiscards ∧
      (w.setClaim c x).stampCounter = w.stampCounter ∧ (w.setClaim c x).live = w.live ∧
      (w.setClaim c x).gains = w.gains ∧ (w.setClaim c x).rampRate = w.rampRate ∧
      (w.setClaim c x).monitor = w.monitor ∧ (w.setClaim c x).clock = w.clock ∧ (w.setClaim c x).calls = w.calls ∧
      (w.setClaim c x).profiles = w.profiles ∧ (w.setClaim c x).due = w.due ∧ (w.setClaim c x).queue = w.queue ∧
      (w.setClaim c x).templates = w.templates ∧ (w.setClaim c x).hours = w.hours ∧
      (w.setClaim c x).minutes = w.minutes ∧ (w.setClaim c x).numbers = w.numbers ∧
      (w.setClaim c x).platPhrases = w.platPhrases ∧ (w.setClaim c x).dests = w.dests ∧
      (w.setClaim c x).voices = w.voices ∧ (w.setClaim c x).store = w.store ∧ (w.setClaim c x).lines = w.lines ∧
      (w.setClaim c x).gens = w.gens ∧ (w.setClaim c x).evac = w.evac :=
  ⟨rfl, rfl, rfl, rfl, rfl, rfl, rfl, rfl, rfl, rfl, rfl, rfl, rfl, rfl, rfl, rfl, rfl, rfl, rfl, rfl, rfl, rfl, rfl, rfl, rfl, rfl, rfl, rfl, rfl, rfl, rfl⟩

@[simp] theorem Vol.modClaim_fields (w : Vol) (c : Nat) (f : Claim → Claim) :
    (w.modClaim c f).mode = w.mode ∧ (w.modClaim c f).ports = w.ports ∧ (w.modClaim c f).align = w.align ∧
      (w.modClaim c f).fclk = w.fclk ∧ (w.modClaim c f).sent = w.sent ∧ (w.modClaim c f).engine = w.engine ∧
      (w.modClaim c f).zones = w.zones ∧ (w.modClaim c f).groups = w.groups ∧
      (w.modClaim c f).platforms = w.platforms ∧ (w.modClaim c f).reportDiscards = w.reportDiscards ∧
      (w.modClaim c f).stampCounter = w.stampCounter ∧ (w.modClaim c f).live = w.live ∧
      (w.modClaim c f).gains = w.gains ∧ (w.modClaim c f).rampRate = w.rampRate ∧
      (w.modClaim c f).monitor = w.monitor ∧ (w.modClaim c f).clock = w.clock ∧ (w.modClaim c f).calls = w.calls ∧
      (w.modClaim c f).profiles = w.profiles ∧ (w.modClaim c f).due = w.due ∧ (w.modClaim c f).queue = w.queue ∧
      (w.modClaim c f).templates = w.templates ∧ (w.modClaim c f).hours = w.hours ∧
      (w.modClaim c f).minutes = w.minutes ∧ (w.modClaim c f).numbers = w.numbers ∧
      (w.modClaim c f).platPhrases = w.platPhrases ∧ (w.modClaim c f).dests = w.dests ∧
      (w.modClaim c f).voices = w.voices ∧ (w.modClaim c f).store = w.store ∧ (w.modClaim c f).lines = w.lines ∧
      (w.modClaim c f).gens = w.gens ∧ (w.modClaim c f).evac = w.evac :=
  ⟨rfl, rfl, rfl, rfl, rfl, rfl, rfl, rfl, rfl, rfl, rfl, rfl, rfl, rfl, rfl, rfl, rfl, rfl, rfl, rfl, rfl, rfl, rfl, rfl, rfl, rfl, rfl, rfl, rfl, rfl, rfl⟩

@[simp] theorem Vol.setSource_fields (w : Vol) (l : Nat) (x : Option LiveSource) :
    (w.setSource l x).mode = w.mode ∧ (w.setSource l x).ports = w.ports ∧ (w.setSource l x).align = w.align ∧
      (w.setSource l x).fclk = w.fclk ∧ (w.setSource l x).sent = w.sent ∧ (w.setSource l x).engine = w.engine ∧
      (w.setSource l x).zones = w.zones ∧ (w.setSource l x).groups = w.groups ∧
      (w.setSource l x).platforms = w.platforms ∧ (w.setSource l x).reportDiscards = w.reportDiscards ∧
      (w.setSource l x).claims = w.claims ∧ (w.setSource l x).stampCounter = w.stampCounter ∧
      (w.setSource l x).gains = w.gains ∧ (w.setSource l x).rampRate = w.rampRate ∧
      (w.setSource l x).monitor = w.monitor ∧ (w.setSource l x).clock = w.clock ∧ (w.setSource l x).calls = w.calls ∧
      (w.setSource l x).profiles = w.profiles ∧ (w.setSource l x).due = w.due ∧ (w.setSource l x).queue = w.queue ∧
      (w.setSource l x).templates = w.templates ∧ (w.setSource l x).hours = w.hours ∧
      (w.setSource l x).minutes = w.minutes ∧ (w.setSource l x).numbers = w.numbers ∧
      (w.setSource l x).platPhrases = w.platPhrases ∧ (w.setSource l x).dests = w.dests ∧
      (w.setSource l x).voices = w.voices ∧ (w.setSource l x).store = w.store ∧ (w.setSource l x).lines = w.lines ∧
      (w.setSource l x).gens = w.gens ∧ (w.setSource l x).evac = w.evac :=
  ⟨rfl, rfl, rfl, rfl, rfl, rfl, rfl, rfl, rfl, rfl, rfl, rfl, rfl, rfl, rfl, rfl, rfl, rfl, rfl, rfl, rfl, rfl, rfl, rfl, rfl, rfl, rfl, rfl, rfl, rfl, rfl⟩

@[simp] theorem Vol.setGain_fields (w : Vol) (z : Nat) (x : Gain) :
    (w.setGain z x).mode = w.mode ∧ (w.setGain z x).ports = w.ports ∧ (w.setGain z x).align = w.align ∧
      (w.setGain z x).fclk = w.fclk ∧ (w.setGain z x).sent = w.sent ∧ (w.setGain z x).engine = w.engine ∧
      (w.setGain z x).zones = w.zones ∧ (w.setGain z x).groups = w.groups ∧ (w.setGain z x).platforms = w.platforms ∧
      (w.setGain z x).reportDiscards = w.reportDiscards ∧ (w.setGain z x).claims = w.claims ∧
      (w.setGain z x).stampCounter = w.stampCounter ∧ (w.setGain z x).live = w.live ∧
      (w.setGain z x).rampRate = w.rampRate ∧ (w.setGain z x).monitor = w.monitor ∧ (w.setGain z x).clock = w.clock ∧
      (w.setGain z x).calls = w.calls ∧ (w.setGain z x).profiles = w.profiles ∧ (w.setGain z x).due = w.due ∧
      (w.setGain z x).queue = w.queue ∧ (w.setGain z x).templates = w.templates ∧ (w.setGain z x).hours = w.hours ∧
      (w.setGain z x).minutes = w.minutes ∧ (w.setGain z x).numbers = w.numbers ∧
      (w.setGain z x).platPhrases = w.platPhrases ∧ (w.setGain z x).dests = w.dests ∧
      (w.setGain z x).voices = w.voices ∧ (w.setGain z x).store = w.store ∧ (w.setGain z x).lines = w.lines ∧
      (w.setGain z x).gens = w.gens ∧ (w.setGain z x).evac = w.evac :=
  ⟨rfl, rfl, rfl, rfl, rfl, rfl, rfl, rfl, rfl, rfl, rfl, rfl, rfl, rfl, rfl, rfl, rfl, rfl, rfl, rfl, rfl, rfl, rfl, rfl, rfl, rfl, rfl, rfl, rfl, rfl, rfl⟩

@[simp] theorem Vol.modGain_fields (w : Vol) (z : Nat) (f : Gain → Gain) :
    (w.modGain z f).mode = w.mode ∧ (w.modGain z f).ports = w.ports ∧ (w.modGain z f).align = w.align ∧
      (w.modGain z f).fclk = w.fclk ∧ (w.modGain z f).sent = w.sent ∧ (w.modGain z f).engine = w.engine ∧
      (w.modGain z f).zones = w.zones ∧ (w.modGain z f).groups = w.groups ∧ (w.modGain z f).platforms = w.platforms ∧
      (w.modGain z f).reportDiscards = w.reportDiscards ∧ (w.modGain z f).claims = w.claims ∧
      (w.modGain z f).stampCounter = w.stampCounter ∧ (w.modGain z f).live = w.live ∧
      (w.modGain z f).rampRate = w.rampRate ∧ (w.modGain z f).monitor = w.monitor ∧ (w.modGain z f).clock = w.clock ∧
      (w.modGain z f).calls = w.calls ∧ (w.modGain z f).profiles = w.profiles ∧ (w.modGain z f).due = w.due ∧
      (w.modGain z f).queue = w.queue ∧ (w.modGain z f).templates = w.templates ∧ (w.modGain z f).hours = w.hours ∧
      (w.modGain z f).minutes = w.minutes ∧ (w.modGain z f).numbers = w.numbers ∧
      (w.modGain z f).platPhrases = w.platPhrases ∧ (w.modGain z f).dests = w.dests ∧
      (w.modGain z f).voices = w.voices ∧ (w.modGain z f).store = w.store ∧ (w.modGain z f).lines = w.lines ∧
      (w.modGain z f).gens = w.gens ∧ (w.modGain z f).evac = w.evac :=
  ⟨rfl, rfl, rfl, rfl, rfl, rfl, rfl, rfl, rfl, rfl, rfl, rfl, rfl, rfl, rfl, rfl, rfl, rfl, rfl, rfl, rfl, rfl, rfl, rfl, rfl, rfl, rfl, rfl, rfl, rfl, rfl⟩

@[simp] theorem Vol.setCall_fields (w : Vol) (c : Nat) (x : Option Call) :
    (w.setCall c x).mode = w.mode ∧ (w.setCall c x).ports = w.ports ∧ (w.setCall c x).align = w.align ∧
      (w.setCall c x).fclk = w.fclk ∧ (w.setCall c x).sent = w.sent ∧ (w.setCall c x).engine = w.engine ∧
      (w.setCall c x).zones = w.zones ∧ (w.setCall c x).groups = w.groups ∧ (w.setCall c x).platforms = w.platforms ∧
      (w.setCall c x).reportDiscards = w.reportDiscards ∧ (w.setCall c x).claims = w.claims ∧
      (w.setCall c x).stampCounter = w.stampCounter ∧ (w.setCall c x).live = w.live ∧
      (w.setCall c x).gains = w.gains ∧ (w.setCall c x).rampRate = w.rampRate ∧ (w.setCall c x).monitor = w.monitor ∧
      (w.setCall c x).clock = w.clock ∧ (w.setCall c x).profiles = w.profiles ∧ (w.setCall c x).due = w.due ∧
      (w.setCall c x).queue = w.queue ∧ (w.setCall c x).templates = w.templates ∧ (w.setCall c x).hours = w.hours ∧
      (w.setCall c x).minutes = w.minutes ∧ (w.setCall c x).numbers = w.numbers ∧
      (w.setCall c x).platPhrases = w.platPhrases ∧ (w.setCall c x).dests = w.dests ∧
      (w.setCall c x).voices = w.voices ∧ (w.setCall c x).store = w.store ∧ (w.setCall c x).lines = w.lines ∧
      (w.setCall c x).gens = w.gens ∧ (w.setCall c x).evac = w.evac :=
  ⟨rfl, rfl, rfl, rfl, rfl, rfl, rfl, rfl, rfl, rfl, rfl, rfl, rfl, rfl, rfl, rfl, rfl, rfl, rfl, rfl, rfl, rfl, rfl, rfl, rfl, rfl, rfl, rfl, rfl, rfl, rfl⟩

@[simp] theorem Vol.modCall_fields (w : Vol) (c : Nat) (f : Call → Call) :
    (w.modCall c f).mode = w.mode ∧ (w.modCall c f).ports = w.ports ∧ (w.modCall c f).align = w.align ∧
      (w.modCall c f).fclk = w.fclk ∧ (w.modCall c f).sent = w.sent ∧ (w.modCall c f).engine = w.engine ∧
      (w.modCall c f).zones = w.zones ∧ (w.modCall c f).groups = w.groups ∧ (w.modCall c f).platforms = w.platforms ∧
      (w.modCall c f).reportDiscards = w.reportDiscards ∧ (w.modCall c f).claims = w.claims ∧
      (w.modCall c f).stampCounter = w.stampCounter ∧ (w.modCall c f).live = w.live ∧
      (w.modCall c f).gains = w.gains ∧ (w.modCall c f).rampRate = w.rampRate ∧ (w.modCall c f).monitor = w.monitor ∧
      (w.modCall c f).clock = w.clock ∧ (w.modCall c f).profiles = w.profiles ∧ (w.modCall c f).due = w.due ∧
      (w.modCall c f).queue = w.queue ∧ (w.modCall c f).templates = w.templates ∧ (w.modCall c f).hours = w.hours ∧
      (w.modCall c f).minutes = w.minutes ∧ (w.modCall c f).numbers = w.numbers ∧
      (w.modCall c f).platPhrases = w.platPhrases ∧ (w.modCall c f).dests = w.dests ∧
      (w.modCall c f).voices = w.voices ∧ (w.modCall c f).store = w.store ∧ (w.modCall c f).lines = w.lines ∧
      (w.modCall c f).gens = w.gens ∧ (w.modCall c f).evac = w.evac :=
  ⟨rfl, rfl, rfl, rfl, rfl, rfl, rfl, rfl, rfl, rfl, rfl, rfl, rfl, rfl, rfl, rfl, rfl, rfl, rfl, rfl, rfl, rfl, rfl, rfl, rfl, rfl, rfl, rfl, rfl, rfl, rfl⟩

@[simp] theorem Vol.setVoice_fields (w : Vol) (v : Nat) (x : Voice) :
    (w.setVoice v x).mode = w.mode ∧ (w.setVoice v x).ports = w.ports ∧ (w.setVoice v x).align = w.align ∧
      (w.setVoice v x).fclk = w.fclk ∧ (w.setVoice v x).sent = w.sent ∧ (w.setVoice v x).engine = w.engine ∧
      (w.setVoice v x).zones = w.zones ∧ (w.setVoice v x).groups = w.groups ∧
      (w.setVoice v x).platforms = w.platforms ∧ (w.setVoice v x).reportDiscards = w.reportDiscards ∧
      (w.setVoice v x).claims = w.claims ∧ (w.setVoice v x).stampCounter = w.stampCounter ∧
      (w.setVoice v x).live = w.live ∧ (w.setVoice v x).gains = w.gains ∧ (w.setVoice v x).rampRate = w.rampRate ∧
      (w.setVoice v x).monitor = w.monitor ∧ (w.setVoice v x).clock = w.clock ∧ (w.setVoice v x).calls = w.calls ∧
      (w.setVoice v x).profiles = w.profiles ∧ (w.setVoice v x).due = w.due ∧ (w.setVoice v x).queue = w.queue ∧
      (w.setVoice v x).templates = w.templates ∧ (w.setVoice v x).hours = w.hours ∧
      (w.setVoice v x).minutes = w.minutes ∧ (w.setVoice v x).numbers = w.numbers ∧
      (w.setVoice v x).platPhrases = w.platPhrases ∧ (w.setVoice v x).dests = w.dests ∧
      (w.setVoice v x).store = w.store ∧ (w.setVoice v x).lines = w.lines ∧ (w.setVoice v x).gens = w.gens ∧
      (w.setVoice v x).evac = w.evac :=
  ⟨rfl, rfl, rfl, rfl, rfl, rfl, rfl, rfl, rfl, rfl, rfl, rfl, rfl, rfl, rfl, rfl, rfl, rfl, rfl, rfl, rfl, rfl, rfl, rfl, rfl, rfl, rfl, rfl, rfl, rfl, rfl⟩

@[simp] theorem Vol.modVoice_fields (w : Vol) (v : Nat) (f : Voice → Voice) :
    (w.modVoice v f).mode = w.mode ∧ (w.modVoice v f).ports = w.ports ∧ (w.modVoice v f).align = w.align ∧
      (w.modVoice v f).fclk = w.fclk ∧ (w.modVoice v f).sent = w.sent ∧ (w.modVoice v f).engine = w.engine ∧
      (w.modVoice v f).zones = w.zones ∧ (w.modVoice v f).groups = w.groups ∧
      (w.modVoice v f).platforms = w.platforms ∧ (w.modVoice v f).reportDiscards = w.reportDiscards ∧
      (w.modVoice v f).claims = w.claims ∧ (w.modVoice v f).stampCounter = w.stampCounter ∧
      (w.modVoice v f).live = w.live ∧ (w.modVoice v f).gains = w.gains ∧ (w.modVoice v f).rampRate = w.rampRate ∧
      (w.modVoice v f).monitor = w.monitor ∧ (w.modVoice v f).clock = w.clock ∧ (w.modVoice v f).calls = w.calls ∧
      (w.modVoice v f).profiles = w.profiles ∧ (w.modVoice v f).due = w.due ∧ (w.modVoice v f).queue = w.queue ∧
      (w.modVoice v f).templates = w.templates ∧ (w.modVoice v f).hours = w.hours ∧
      (w.modVoice v f).minutes = w.minutes ∧ (w.modVoice v f).numbers = w.numbers ∧
      (w.modVoice v f).platPhrases = w.platPhrases ∧ (w.modVoice v f).dests = w.dests ∧
      (w.modVoice v f).store = w.store ∧ (w.modVoice v f).lines = w.lines ∧ (w.modVoice v f).gens = w.gens ∧
      (w.modVoice v f).evac = w.evac :=
  ⟨rfl, rfl, rfl, rfl, rfl, rfl, rfl, rfl, rfl, rfl, rfl, rfl, rfl, rfl, rfl, rfl, rfl, rfl, rfl, rfl, rfl, rfl, rfl, rfl, rfl, rfl, rfl, rfl, rfl, rfl, rfl⟩

@[simp] theorem Vol.setLine_fields (w : Vol) (l : Nat) (x : Line) :
    (w.setLine l x).mode = w.mode ∧ (w.setLine l x).ports = w.ports ∧ (w.setLine l x).align = w.align ∧
      (w.setLine l x).fclk = w.fclk ∧ (w.setLine l x).sent = w.sent ∧ (w.setLine l x).engine = w.engine ∧
      (w.setLine l x).zones = w.zones ∧ (w.setLine l x).groups = w.groups ∧ (w.setLine l x).platforms = w.platforms ∧
      (w.setLine l x).reportDiscards = w.reportDiscards ∧ (w.setLine l x).claims = w.claims ∧
      (w.setLine l x).stampCounter = w.stampCounter ∧ (w.setLine l x).live = w.live ∧
      (w.setLine l x).gains = w.gains ∧ (w.setLine l x).rampRate = w.rampRate ∧ (w.setLine l x).monitor = w.monitor ∧
      (w.setLine l x).clock = w.clock ∧ (w.setLine l x).calls = w.calls ∧ (w.setLine l x).profiles = w.profiles ∧
      (w.setLine l x).due = w.due ∧ (w.setLine l x).queue = w.queue ∧ (w.setLine l x).templates = w.templates ∧
      (w.setLine l x).hours = w.hours ∧ (w.setLine l x).minutes = w.minutes ∧ (w.setLine l x).numbers = w.numbers ∧
      (w.setLine l x).platPhrases = w.platPhrases ∧ (w.setLine l x).dests = w.dests ∧
      (w.setLine l x).voices = w.voices ∧ (w.setLine l x).store = w.store ∧ (w.setLine l x).gens = w.gens ∧
      (w.setLine l x).evac = w.evac :=
  ⟨rfl, rfl, rfl, rfl, rfl, rfl, rfl, rfl, rfl, rfl, rfl, rfl, rfl, rfl, rfl, rfl, rfl, rfl, rfl, rfl, rfl, rfl, rfl, rfl, rfl, rfl, rfl, rfl, rfl, rfl, rfl⟩

@[simp] theorem Vol.modLine_fields (w : Vol) (l : Nat) (f : Line → Line) :
    (w.modLine l f).mode = w.mode ∧ (w.modLine l f).ports = w.ports ∧ (w.modLine l f).align = w.align ∧
      (w.modLine l f).fclk = w.fclk ∧ (w.modLine l f).sent = w.sent ∧ (w.modLine l f).engine = w.engine ∧
      (w.modLine l f).zones = w.zones ∧ (w.modLine l f).groups = w.groups ∧ (w.modLine l f).platforms = w.platforms ∧
      (w.modLine l f).reportDiscards = w.reportDiscards ∧ (w.modLine l f).claims = w.claims ∧
      (w.modLine l f).stampCounter = w.stampCounter ∧ (w.modLine l f).live = w.live ∧
      (w.modLine l f).gains = w.gains ∧ (w.modLine l f).rampRate = w.rampRate ∧ (w.modLine l f).monitor = w.monitor ∧
      (w.modLine l f).clock = w.clock ∧ (w.modLine l f).calls = w.calls ∧ (w.modLine l f).profiles = w.profiles ∧
      (w.modLine l f).due = w.due ∧ (w.modLine l f).queue = w.queue ∧ (w.modLine l f).templates = w.templates ∧
      (w.modLine l f).hours = w.hours ∧ (w.modLine l f).minutes = w.minutes ∧ (w.modLine l f).numbers = w.numbers ∧
      (w.modLine l f).platPhrases = w.platPhrases ∧ (w.modLine l f).dests = w.dests ∧
      (w.modLine l f).voices = w.voices ∧ (w.modLine l f).store = w.store ∧ (w.modLine l f).gens = w.gens ∧
      (w.modLine l f).evac = w.evac :=
  ⟨rfl, rfl, rfl, rfl, rfl, rfl, rfl, rfl, rfl, rfl, rfl, rfl, rfl, rfl, rfl, rfl, rfl, rfl, rfl, rfl, rfl, rfl, rfl, rfl, rfl, rfl, rfl, rfl, rfl, rfl, rfl⟩

@[simp] theorem Vol.setGen_fields (w : Vol) (g : Nat) (x : Generator) :
    (w.setGen g x).mode = w.mode ∧ (w.setGen g x).ports = w.ports ∧ (w.setGen g x).align = w.align ∧
      (w.setGen g x).fclk = w.fclk ∧ (w.setGen g x).sent = w.sent ∧ (w.setGen g x).engine = w.engine ∧
      (w.setGen g x).zones = w.zones ∧ (w.setGen g x).groups = w.groups ∧ (w.setGen g x).platforms = w.platforms ∧
      (w.setGen g x).reportDiscards = w.reportDiscards ∧ (w.setGen g x).claims = w.claims ∧
      (w.setGen g x).stampCounter = w.stampCounter ∧ (w.setGen g x).live = w.live ∧ (w.setGen g x).gains = w.gains ∧
      (w.setGen g x).rampRate = w.rampRate ∧ (w.setGen g x).monitor = w.monitor ∧ (w.setGen g x).clock = w.clock ∧
      (w.setGen g x).calls = w.calls ∧ (w.setGen g x).profiles = w.profiles ∧ (w.setGen g x).due = w.due ∧
      (w.setGen g x).queue = w.queue ∧ (w.setGen g x).templates = w.templates ∧ (w.setGen g x).hours = w.hours ∧
      (w.setGen g x).minutes = w.minutes ∧ (w.setGen g x).numbers = w.numbers ∧
      (w.setGen g x).platPhrases = w.platPhrases ∧ (w.setGen g x).dests = w.dests ∧
      (w.setGen g x).voices = w.voices ∧ (w.setGen g x).store = w.store ∧ (w.setGen g x).lines = w.lines ∧
      (w.setGen g x).evac = w.evac :=
  ⟨rfl, rfl, rfl, rfl, rfl, rfl, rfl, rfl, rfl, rfl, rfl, rfl, rfl, rfl, rfl, rfl, rfl, rfl, rfl, rfl, rfl, rfl, rfl, rfl, rfl, rfl, rfl, rfl, rfl, rfl, rfl⟩

@[simp] theorem Vol.setPort_fields (w : Vol) (p : Nat) (x : Port) :
    (w.setPort p x).mode = w.mode ∧ (w.setPort p x).align = w.align ∧ (w.setPort p x).fclk = w.fclk ∧
      (w.setPort p x).sent = w.sent ∧ (w.setPort p x).engine = w.engine ∧ (w.setPort p x).zones = w.zones ∧
      (w.setPort p x).groups = w.groups ∧ (w.setPort p x).platforms = w.platforms ∧
      (w.setPort p x).reportDiscards = w.reportDiscards ∧ (w.setPort p x).claims = w.claims ∧
      (w.setPort p x).stampCounter = w.stampCounter ∧ (w.setPort p x).live = w.live ∧
      (w.setPort p x).gains = w.gains ∧ (w.setPort p x).rampRate = w.rampRate ∧ (w.setPort p x).monitor = w.monitor ∧
      (w.setPort p x).clock = w.clock ∧ (w.setPort p x).calls = w.calls ∧ (w.setPort p x).profiles = w.profiles ∧
      (w.setPort p x).due = w.due ∧ (w.setPort p x).queue = w.queue ∧ (w.setPort p x).templates = w.templates ∧
      (w.setPort p x).hours = w.hours ∧ (w.setPort p x).minutes = w.minutes ∧ (w.setPort p x).numbers = w.numbers ∧
      (w.setPort p x).platPhrases = w.platPhrases ∧ (w.setPort p x).dests = w.dests ∧
      (w.setPort p x).voices = w.voices ∧ (w.setPort p x).store = w.store ∧ (w.setPort p x).lines = w.lines ∧
      (w.setPort p x).gens = w.gens ∧ (w.setPort p x).evac = w.evac :=
  ⟨rfl, rfl, rfl, rfl, rfl, rfl, rfl, rfl, rfl, rfl, rfl, rfl, rfl, rfl, rfl, rfl, rfl, rfl, rfl, rfl, rfl, rfl, rfl, rfl, rfl, rfl, rfl, rfl, rfl, rfl, rfl⟩

@[simp] theorem Vol.modPort_fields (w : Vol) (p : Nat) (f : Port → Port) :
    (w.modPort p f).mode = w.mode ∧ (w.modPort p f).align = w.align ∧ (w.modPort p f).fclk = w.fclk ∧
      (w.modPort p f).sent = w.sent ∧ (w.modPort p f).engine = w.engine ∧ (w.modPort p f).zones = w.zones ∧
      (w.modPort p f).groups = w.groups ∧ (w.modPort p f).platforms = w.platforms ∧
      (w.modPort p f).reportDiscards = w.reportDiscards ∧ (w.modPort p f).claims = w.claims ∧
      (w.modPort p f).stampCounter = w.stampCounter ∧ (w.modPort p f).live = w.live ∧
      (w.modPort p f).gains = w.gains ∧ (w.modPort p f).rampRate = w.rampRate ∧ (w.modPort p f).monitor = w.monitor ∧
      (w.modPort p f).clock = w.clock ∧ (w.modPort p f).calls = w.calls ∧ (w.modPort p f).profiles = w.profiles ∧
      (w.modPort p f).due = w.due ∧ (w.modPort p f).queue = w.queue ∧ (w.modPort p f).templates = w.templates ∧
      (w.modPort p f).hours = w.hours ∧ (w.modPort p f).minutes = w.minutes ∧ (w.modPort p f).numbers = w.numbers ∧
      (w.modPort p f).platPhrases = w.platPhrases ∧ (w.modPort p f).dests = w.dests ∧
      (w.modPort p f).voices = w.voices ∧ (w.modPort p f).store = w.store ∧ (w.modPort p f).lines = w.lines ∧
      (w.modPort p f).gens = w.gens ∧ (w.modPort p f).evac = w.evac :=
  ⟨rfl, rfl, rfl, rfl, rfl, rfl, rfl, rfl, rfl, rfl, rfl, rfl, rfl, rfl, rfl, rfl, rfl, rfl, rfl, rfl, rfl, rfl, rfl, rfl, rfl, rfl, rfl, rfl, rfl, rfl, rfl⟩

@[simp] theorem Vol.modEngine_fields (w : Vol) (f : Engine → Engine) :
    (w.modEngine f).mode = w.mode ∧ (w.modEngine f).ports = w.ports ∧ (w.modEngine f).align = w.align ∧
      (w.modEngine f).fclk = w.fclk ∧ (w.modEngine f).sent = w.sent ∧ (w.modEngine f).zones = w.zones ∧
      (w.modEngine f).groups = w.groups ∧ (w.modEngine f).platforms = w.platforms ∧
      (w.modEngine f).reportDiscards = w.reportDiscards ∧ (w.modEngine f).claims = w.claims ∧
      (w.modEngine f).stampCounter = w.stampCounter ∧ (w.modEngine f).live = w.live ∧
      (w.modEngine f).gains = w.gains ∧ (w.modEngine f).rampRate = w.rampRate ∧ (w.modEngine f).monitor = w.monitor ∧
      (w.modEngine f).clock = w.clock ∧ (w.modEngine f).calls = w.calls ∧ (w.modEngine f).profiles = w.profiles ∧
      (w.modEngine f).due = w.due ∧ (w.modEngine f).queue = w.queue ∧ (w.modEngine f).templates = w.templates ∧
      (w.modEngine f).hours = w.hours ∧ (w.modEngine f).minutes = w.minutes ∧ (w.modEngine f).numbers = w.numbers ∧
      (w.modEngine f).platPhrases = w.platPhrases ∧ (w.modEngine f).dests = w.dests ∧
      (w.modEngine f).voices = w.voices ∧ (w.modEngine f).store = w.store ∧ (w.modEngine f).lines = w.lines ∧
      (w.modEngine f).gens = w.gens ∧ (w.modEngine f).evac = w.evac :=
  ⟨rfl, rfl, rfl, rfl, rfl, rfl, rfl, rfl, rfl, rfl, rfl, rfl, rfl, rfl, rfl, rfl, rfl, rfl, rfl, rfl, rfl, rfl, rfl, rfl, rfl, rfl, rfl, rfl, rfl, rfl, rfl⟩

@[simp] theorem Vol.modStore_fields (w : Vol) (f : StoreCtl → StoreCtl) :
    (w.modStore f).mode = w.mode ∧ (w.modStore f).ports = w.ports ∧ (w.modStore f).align = w.align ∧
      (w.modStore f).fclk = w.fclk ∧ (w.modStore f).sent = w.sent ∧ (w.modStore f).engine = w.engine ∧
      (w.modStore f).zones = w.zones ∧ (w.modStore f).groups = w.groups ∧ (w.modStore f).platforms = w.platforms ∧
      (w.modStore f).reportDiscards = w.reportDiscards ∧ (w.modStore f).claims = w.claims ∧
      (w.modStore f).stampCounter = w.stampCounter ∧ (w.modStore f).live = w.live ∧ (w.modStore f).gains = w.gains ∧
      (w.modStore f).rampRate = w.rampRate ∧ (w.modStore f).monitor = w.monitor ∧ (w.modStore f).clock = w.clock ∧
      (w.modStore f).calls = w.calls ∧ (w.modStore f).profiles = w.profiles ∧ (w.modStore f).due = w.due ∧
      (w.modStore f).queue = w.queue ∧ (w.modStore f).templates = w.templates ∧ (w.modStore f).hours = w.hours ∧
      (w.modStore f).minutes = w.minutes ∧ (w.modStore f).numbers = w.numbers ∧
      (w.modStore f).platPhrases = w.platPhrases ∧ (w.modStore f).dests = w.dests ∧
      (w.modStore f).voices = w.voices ∧ (w.modStore f).lines = w.lines ∧ (w.modStore f).gens = w.gens ∧
      (w.modStore f).evac = w.evac :=
  ⟨rfl, rfl, rfl, rfl, rfl, rfl, rfl, rfl, rfl, rfl, rfl, rfl, rfl, rfl, rfl, rfl, rfl, rfl, rfl, rfl, rfl, rfl, rfl, rfl, rfl, rfl, rfl, rfl, rfl, rfl, rfl⟩

@[simp] theorem Vol.modEvac_fields (w : Vol) (f : Evac → Evac) :
    (w.modEvac f).mode = w.mode ∧ (w.modEvac f).ports = w.ports ∧ (w.modEvac f).align = w.align ∧
      (w.modEvac f).fclk = w.fclk ∧ (w.modEvac f).sent = w.sent ∧ (w.modEvac f).engine = w.engine ∧
      (w.modEvac f).zones = w.zones ∧ (w.modEvac f).groups = w.groups ∧ (w.modEvac f).platforms = w.platforms ∧
      (w.modEvac f).reportDiscards = w.reportDiscards ∧ (w.modEvac f).claims = w.claims ∧
      (w.modEvac f).stampCounter = w.stampCounter ∧ (w.modEvac f).live = w.live ∧ (w.modEvac f).gains = w.gains ∧
      (w.modEvac f).rampRate = w.rampRate ∧ (w.modEvac f).monitor = w.monitor ∧ (w.modEvac f).clock = w.clock ∧
      (w.modEvac f).calls = w.calls ∧ (w.modEvac f).profiles = w.profiles ∧ (w.modEvac f).due = w.due ∧
      (w.modEvac f).queue = w.queue ∧ (w.modEvac f).templates = w.templates ∧ (w.modEvac f).hours = w.hours ∧
      (w.modEvac f).minutes = w.minutes ∧ (w.modEvac f).numbers = w.numbers ∧
      (w.modEvac f).platPhrases = w.platPhrases ∧ (w.modEvac f).dests = w.dests ∧ (w.modEvac f).voices = w.voices ∧
      (w.modEvac f).store = w.store ∧ (w.modEvac f).lines = w.lines ∧ (w.modEvac f).gens = w.gens :=
  ⟨rfl, rfl, rfl, rfl, rfl, rfl, rfl, rfl, rfl, rfl, rfl, rfl, rfl, rfl, rfl, rfl, rfl, rfl, rfl, rfl, rfl, rfl, rfl, rfl, rfl, rfl, rfl, rfl, rfl, rfl, rfl⟩

@[simp] theorem Vol.modQueue_fields (w : Vol) (f : RequestQueue → RequestQueue) :
    (w.modQueue f).mode = w.mode ∧ (w.modQueue f).ports = w.ports ∧ (w.modQueue f).align = w.align ∧
      (w.modQueue f).fclk = w.fclk ∧ (w.modQueue f).sent = w.sent ∧ (w.modQueue f).engine = w.engine ∧
      (w.modQueue f).zones = w.zones ∧ (w.modQueue f).groups = w.groups ∧ (w.modQueue f).platforms = w.platforms ∧
      (w.modQueue f).reportDiscards = w.reportDiscards ∧ (w.modQueue f).claims = w.claims ∧
      (w.modQueue f).stampCounter = w.stampCounter ∧ (w.modQueue f).live = w.live ∧ (w.modQueue f).gains = w.gains ∧
      (w.modQueue f).rampRate = w.rampRate ∧ (w.modQueue f).monitor = w.monitor ∧ (w.modQueue f).clock = w.clock ∧
      (w.modQueue f).calls = w.calls ∧ (w.modQueue f).profiles = w.profiles ∧ (w.modQueue f).due = w.due ∧
      (w.modQueue f).templates = w.templates ∧ (w.modQueue f).hours = w.hours ∧ (w.modQueue f).minutes = w.minutes ∧
      (w.modQueue f).numbers = w.numbers ∧ (w.modQueue f).platPhrases = w.platPhrases ∧
      (w.modQueue f).dests = w.dests ∧ (w.modQueue f).voices = w.voices ∧ (w.modQueue f).store = w.store ∧
      (w.modQueue f).lines = w.lines ∧ (w.modQueue f).gens = w.gens ∧ (w.modQueue f).evac = w.evac :=
  ⟨rfl, rfl, rfl, rfl, rfl, rfl, rfl, rfl, rfl, rfl, rfl, rfl, rfl, rfl, rfl, rfl, rfl, rfl, rfl, rfl, rfl, rfl, rfl, rfl, rfl, rfl, rfl, rfl, rfl, rfl, rfl⟩

@[simp] theorem Vol.modRequest_fields (w : Vol) (n : Nat) (f : Request → Request) :
    (w.modRequest n f).mode = w.mode ∧ (w.modRequest n f).ports = w.ports ∧ (w.modRequest n f).align = w.align ∧
      (w.modRequest n f).fclk = w.fclk ∧ (w.modRequest n f).sent = w.sent ∧ (w.modRequest n f).engine = w.engine ∧
      (w.modRequest n f).zones = w.zones ∧ (w.modRequest n f).groups = w.groups ∧
      (w.modRequest n f).platforms = w.platforms ∧ (w.modRequest n f).reportDiscards = w.reportDiscards ∧
      (w.modRequest n f).claims = w.claims ∧ (w.modRequest n f).stampCounter = w.stampCounter ∧
      (w.modRequest n f).live = w.live ∧ (w.modRequest n f).gains = w.gains ∧
      (w.modRequest n f).rampRate = w.rampRate ∧ (w.modRequest n f).monitor = w.monitor ∧
      (w.modRequest n f).clock = w.clock ∧ (w.modRequest n f).calls = w.calls ∧
      (w.modRequest n f).profiles = w.profiles ∧ (w.modRequest n f).due = w.due ∧
      (w.modRequest n f).templates = w.templates ∧ (w.modRequest n f).hours = w.hours ∧
      (w.modRequest n f).minutes = w.minutes ∧ (w.modRequest n f).numbers = w.numbers ∧
      (w.modRequest n f).platPhrases = w.platPhrases ∧ (w.modRequest n f).dests = w.dests ∧
      (w.modRequest n f).voices = w.voices ∧ (w.modRequest n f).store = w.store ∧
      (w.modRequest n f).lines = w.lines ∧ (w.modRequest n f).gens = w.gens ∧ (w.modRequest n f).evac = w.evac :=
  ⟨rfl, rfl, rfl, rfl, rfl, rfl, rfl, rfl, rfl, rfl, rfl, rfl, rfl, rfl, rfl, rfl, rfl, rfl, rfl, rfl, rfl, rfl, rfl, rfl, rfl, rfl, rfl, rfl, rfl, rfl, rfl⟩

@[simp] theorem Vol.setOp_fields (w : Vol) (op : StoreOp) :
    (w.setOp op).mode = w.mode ∧ (w.setOp op).ports = w.ports ∧ (w.setOp op).align = w.align ∧
      (w.setOp op).fclk = w.fclk ∧ (w.setOp op).sent = w.sent ∧ (w.setOp op).engine = w.engine ∧
      (w.setOp op).zones = w.zones ∧ (w.setOp op).groups = w.groups ∧ (w.setOp op).platforms = w.platforms ∧
      (w.setOp op).reportDiscards = w.reportDiscards ∧ (w.setOp op).claims = w.claims ∧
      (w.setOp op).stampCounter = w.stampCounter ∧ (w.setOp op).live = w.live ∧ (w.setOp op).gains = w.gains ∧
      (w.setOp op).rampRate = w.rampRate ∧ (w.setOp op).monitor = w.monitor ∧ (w.setOp op).clock = w.clock ∧
      (w.setOp op).calls = w.calls ∧ (w.setOp op).profiles = w.profiles ∧ (w.setOp op).due = w.due ∧
      (w.setOp op).queue = w.queue ∧ (w.setOp op).templates = w.templates ∧ (w.setOp op).hours = w.hours ∧
      (w.setOp op).minutes = w.minutes ∧ (w.setOp op).numbers = w.numbers ∧
      (w.setOp op).platPhrases = w.platPhrases ∧ (w.setOp op).dests = w.dests ∧ (w.setOp op).voices = w.voices ∧
      (w.setOp op).lines = w.lines ∧ (w.setOp op).gens = w.gens ∧ (w.setOp op).evac = w.evac :=
  ⟨rfl, rfl, rfl, rfl, rfl, rfl, rfl, rfl, rfl, rfl, rfl, rfl, rfl, rfl, rfl, rfl, rfl, rfl, rfl, rfl, rfl, rfl, rfl, rfl, rfl, rfl, rfl, rfl, rfl, rfl, rfl⟩

@[simp] theorem Vol.markTaken_fields (w : Vol) (m : MarkPart) :
    (w.markTaken m).mode = w.mode ∧ (w.markTaken m).ports = w.ports ∧ (w.markTaken m).align = w.align ∧
      (w.markTaken m).sent = w.sent ∧ (w.markTaken m).engine = w.engine ∧ (w.markTaken m).zones = w.zones ∧
      (w.markTaken m).groups = w.groups ∧ (w.markTaken m).platforms = w.platforms ∧
      (w.markTaken m).reportDiscards = w.reportDiscards ∧ (w.markTaken m).claims = w.claims ∧
      (w.markTaken m).stampCounter = w.stampCounter ∧ (w.markTaken m).live = w.live ∧
      (w.markTaken m).gains = w.gains ∧ (w.markTaken m).rampRate = w.rampRate ∧ (w.markTaken m).monitor = w.monitor ∧
      (w.markTaken m).clock = w.clock ∧ (w.markTaken m).calls = w.calls ∧ (w.markTaken m).profiles = w.profiles ∧
      (w.markTaken m).due = w.due ∧ (w.markTaken m).queue = w.queue ∧ (w.markTaken m).templates = w.templates ∧
      (w.markTaken m).hours = w.hours ∧ (w.markTaken m).minutes = w.minutes ∧ (w.markTaken m).numbers = w.numbers ∧
      (w.markTaken m).platPhrases = w.platPhrases ∧ (w.markTaken m).dests = w.dests ∧
      (w.markTaken m).voices = w.voices ∧ (w.markTaken m).store = w.store ∧ (w.markTaken m).lines = w.lines ∧
      (w.markTaken m).gens = w.gens ∧ (w.markTaken m).evac = w.evac :=
  ⟨rfl, rfl, rfl, rfl, rfl, rfl, rfl, rfl, rfl, rfl, rfl, rfl, rfl, rfl, rfl, rfl, rfl, rfl, rfl, rfl, rfl, rfl, rfl, rfl, rfl, rfl, rfl, rfl, rfl, rfl, rfl⟩

@[simp] theorem Vol.writeReply_fields (w : Vol) (place : Nat) (r : Reply) :
    (w.writeReply place r).mode = w.mode ∧ (w.writeReply place r).ports = w.ports ∧
      (w.writeReply place r).align = w.align ∧ (w.writeReply place r).fclk = w.fclk ∧
      (w.writeReply place r).sent = w.sent ∧ (w.writeReply place r).zones = w.zones ∧
      (w.writeReply place r).groups = w.groups ∧ (w.writeReply place r).platforms = w.platforms ∧
      (w.writeReply place r).reportDiscards = w.reportDiscards ∧ (w.writeReply place r).claims = w.claims ∧
      (w.writeReply place r).stampCounter = w.stampCounter ∧ (w.writeReply place r).live = w.live ∧
      (w.writeReply place r).gains = w.gains ∧ (w.writeReply place r).rampRate = w.rampRate ∧
      (w.writeReply place r).monitor = w.monitor ∧ (w.writeReply place r).clock = w.clock ∧
      (w.writeReply place r).calls = w.calls ∧ (w.writeReply place r).profiles = w.profiles ∧
      (w.writeReply place r).due = w.due ∧ (w.writeReply place r).queue = w.queue ∧
      (w.writeReply place r).templates = w.templates ∧ (w.writeReply place r).hours = w.hours ∧
      (w.writeReply place r).minutes = w.minutes ∧ (w.writeReply place r).numbers = w.numbers ∧
      (w.writeReply place r).platPhrases = w.platPhrases ∧ (w.writeReply place r).dests = w.dests ∧
      (w.writeReply place r).voices = w.voices ∧ (w.writeReply place r).store = w.store ∧
      (w.writeReply place r).lines = w.lines ∧ (w.writeReply place r).gens = w.gens ∧
      (w.writeReply place r).evac = w.evac :=
  ⟨rfl, rfl, rfl, rfl, rfl, rfl, rfl, rfl, rfl, rfl, rfl, rfl, rfl, rfl, rfl, rfl, rfl, rfl, rfl, rfl, rfl, rfl, rfl, rfl, rfl, rfl, rfl, rfl, rfl, rfl, rfl⟩

@[simp] theorem Vol.notify_fields (w : Vol) (n : Notice) :
    (w.notify n).mode = w.mode ∧ (w.notify n).ports = w.ports ∧ (w.notify n).align = w.align ∧
      (w.notify n).fclk = w.fclk ∧ (w.notify n).sent = w.sent ∧ (w.notify n).zones = w.zones ∧
      (w.notify n).groups = w.groups ∧ (w.notify n).platforms = w.platforms ∧
      (w.notify n).reportDiscards = w.reportDiscards ∧ (w.notify n).claims = w.claims ∧
      (w.notify n).stampCounter = w.stampCounter ∧ (w.notify n).live = w.live ∧ (w.notify n).gains = w.gains ∧
      (w.notify n).rampRate = w.rampRate ∧ (w.notify n).monitor = w.monitor ∧ (w.notify n).clock = w.clock ∧
      (w.notify n).calls = w.calls ∧ (w.notify n).profiles = w.profiles ∧ (w.notify n).due = w.due ∧
      (w.notify n).queue = w.queue ∧ (w.notify n).templates = w.templates ∧ (w.notify n).hours = w.hours ∧
      (w.notify n).minutes = w.minutes ∧ (w.notify n).numbers = w.numbers ∧
      (w.notify n).platPhrases = w.platPhrases ∧ (w.notify n).dests = w.dests ∧ (w.notify n).voices = w.voices ∧
      (w.notify n).store = w.store ∧ (w.notify n).lines = w.lines ∧ (w.notify n).gens = w.gens ∧
      (w.notify n).evac = w.evac:= by
  unfold Vol.notify
  split
  all_goals exact ⟨rfl, rfl, rfl, rfl, rfl, rfl, rfl, rfl, rfl, rfl, rfl, rfl, rfl, rfl, rfl, rfl, rfl, rfl, rfl, rfl, rfl, rfl, rfl, rfl, rfl, rfl, rfl, rfl, rfl, rfl, rfl⟩

/-! ### Records read after an update -/

@[simp] theorem Vol.zone_modZone (w : Vol) {z : Nat} (f : Zone → Zone) (hz : z < 64) :
    (w.modZone z f).zone z = f (w.zone z) := Laws.tget_tset_self _ _ _ hz

theorem Vol.zone_modZone_ne (w : Vol) {z y : Nat} (f : Zone → Zone) (h : z ≠ y) : (w.modZone z f).zone y = w.zone y :=
  Laws.tget_tset_ne _ _ _ h

@[simp] theorem Vol.voice_modVoice (w : Vol) {v : Nat} (f : Voice → Voice) (hv : v < 8) :
    (w.modVoice v f).voice v = f (w.voice v) := Laws.tget_tset_self _ _ _ hv

@[simp] theorem Vol.gen_setGen (w : Vol) {g : Nat} (x : Generator) (hg : g < 4) : (w.setGen g x).gen g = x :=
  Laws.tget_tset_self _ _ _ hg

@[simp] theorem Vol.line_setLine (w : Vol) {l : Nat} (x : Line) (hl : l < 16) : (w.setLine l x).line l = x :=
  Laws.tget_tset_self _ _ _ hl

@[simp] theorem Vol.port_setPort (w : Vol) {p : Nat} (x : Port) (hp : p < 5) : (w.setPort p x).port p = x :=
  Laws.tget_tset_self _ _ _ hp

@[simp] theorem Vol.call_setCall (w : Vol) {c : Nat} (x : Option Call) (hc : c < 256) : (w.setCall c x).call c = x :=
  Laws.tget_tset_self _ _ _ hc

@[simp] theorem Vol.source_setSource (w : Vol) {l : Nat} (x : Option LiveSource) (hl : l < 32) :
    (w.setSource l x).source l = x := Laws.tget_tset_self _ _ _ hl

@[simp] theorem Vol.claim_setClaim (w : Vol) {c : Nat} (x : Option Claim) (hc : c < 40) : (w.setClaim c x).claim c = x :=
  Laws.tget_tset_self _ _ _ hc

@[simp] theorem Vol.group_setGroup (w : Vol) {g : Nat} (m : List Nat) (hg : g < 32) : (w.setGroup g m).group g = m :=
  Laws.tget_tset_self _ _ _ hg

/-! ### The whole state -/

@[simp] theorem State.onVol_fields (s : State) (f : Nonvolatile → Vol → Vol) :
    (s.onVol f).power = s.power ∧ (s.onVol f).nv = s.nv ∧ (s.onVol f).pending = s.pending ∧ (s.onVol f).vol = f s.nv s.vol :=
  ⟨rfl, rfl, rfl, rfl⟩

@[simp] theorem State.notify_fields (s : State) (n : Notice) :
    (s.notify n).power = s.power ∧ (s.notify n).nv = s.nv ∧ (s.notify n).pending = s.pending ∧
      (s.notify n).vol = s.vol.notify n := ⟨rfl, rfl, rfl, rfl⟩

@[simp] theorem State.finish_fields (s : State) :
    s.finish.power = s.power ∧ s.finish.nv = s.nv ∧ s.finish.pending = s.pending ∧ s.finish.vol = s.vol.finish s.nv :=
  ⟨rfl, rfl, rfl, rfl⟩

@[simp] theorem State.replied_fields (s : State) (h : RequestHeader) (kind place : Nat) (code : ResultCode)
    (body : ReplyBody) :
    (s.replied h kind place code body).power = s.power ∧ (s.replied h kind place code body).nv = s.nv ∧
      (s.replied h kind place code body).pending = s.pending := ⟨rfl, rfl, rfl⟩

/-! ### The list of a voice and the terminal of a line -/

@[simp] theorem Voice.restart_fields (x : Voice) :
    x.restart.state = x.state ∧ x.restart.source = x.source ∧ x.restart.request = x.request ∧ x.restart.claim = x.claim ∧
      x.restart.frags = x.frags ∧ x.restart.buffer = x.buffer ∧ x.restart.demand = x.demand ∧ x.restart.cur = 0 ∧
      x.restart.pos = 0 ∧ x.restart.nextRead = 0 ∧ x.restart.finished = false :=
  ⟨rfl, rfl, rfl, rfl, rfl, rfl, rfl, rfl, rfl, rfl, rfl⟩

theorem Line.terminal_input (x : Line) (h : x.fn.isOutput = false) : x.terminal = none := by simp [Line.terminal, h]

theorem Line.terminal_output (x : Line) (h : x.fn.isOutput = true) : x.terminal = some (x.polarity.level x.shown) := by
  simp [Line.terminal, h]

/-! ### The parts of a block mark that a soft FULL reset gives back (R147) -/

@[simp] theorem FrameClock.releaseGens_count (x : FrameClock) : x.releaseGens.count = x.count := rfl
@[simp] theorem FrameClock.releaseGens_fresh (x : FrameClock) : x.releaseGens.fresh = x.fresh := rfl

/-- After the reset the parts still taken are those taken before but for the generators' steps. -/
@[simp] theorem FrameClock.mem_releaseGens_done (x : FrameClock) (m : MarkPart) :
    m ∈ x.releaseGens.done ↔ m ∈ x.done ∧ ∀ g, m ≠ .gen g := by
  cases m <;> simp [FrameClock.releaseGens]

end Sys2Proof.Machine
end

