-- ==== Sys2Proof/Laws/Requests.lean ====
section
/-! SUPPORT. What the shared operations behind a command can do: a request and its reply (R175), a store request (R120), a
part of a block mark (R169), an event of the queue or the store. -/

namespace Sys2Proof.Laws

open Sys2Proof.Machine

/-! ### Requests -/

/-- A part that does not run takes no request (log entry 4). -/
theorem takeRequest_off (h : RequestHeader) (kind : Nat) (shaped : Bool) (act : Act) (s : State)
    (hr : s.running = false) : takeRequest h kind shaped act s = s := by
  simp [takeRequest, whenRunning, hr]

/-- R175, test 2. -/
theorem takeRequest_unaddressed (h : RequestHeader) (kind : Nat) (shaped : Bool) (act : Act) (s : State)
    (hr : s.running = true) (ha : s.vol.addressed h.destination = false) :
    takeRequest h kind shaped act s = { s with vol := s.vol.discardAddress } := by
  simp [takeRequest, whenRunning, hr, ha]

/-- R175, test 3. -/
theorem takeRequest_placeless (h : RequestHeader) (kind : Nat) (shaped : Bool) (act : Act) (s : State)
    (hr : s.running = true) (ha : s.vol.addressed h.destination = true) (hp : s.vol.freePlace = none) :
    takeRequest h kind shaped act s = { s with vol := s.vol.discardPlace } := by
  simp [takeRequest, whenRunning, hr, ha, hp]

/-- R175, tests 1 to 3 passed: the request is answered in its place. -/
theorem takeRequest_served {h : RequestHeader} {s : State} {place : Nat} (hs : s.Serves h place) (kind : Nat)
    (shaped : Bool) (act : Act) :
    takeRequest h kind shaped act s = endRequest h kind place (answerRequest kind shaped act s) := by
  simp [takeRequest, whenRunning, hs.running, hs.addressed, hs.place]

/-- The answer written and the event ended. -/
theorem endRequest_eq (h : RequestHeader) (kind place : Nat) (a : Answer) (s : State) :
    endRequest h kind place (a, s) = (s.replied h kind place a.code a.body).finish := rfl

/-- R175, tests 4 to 6 passed: the owner acts. -/
theorem answerRequest_ready {kind : Nat} {act : Act} {s : State} (hk : within 1 32 kind = true)
    (ha : s.vol.engine.address ≠ 0 ∨ kind = 1 ∨ kind = 2) : answerRequest kind true act s = act s := by
  unfold answerRequest
  rw [if_neg (by simp [hk]), if_neg (by omega), if_neg (by simp)]

/-- A request that reaches its owner does what the owner's rule says: all that the taking of it can do. -/
theorem takeRequest_reaches {i : Instr} {h : RequestHeader} {s : State} {place : Nat} (hs : s.Reaches i h place)
    {kind : Nat} (hk : within 1 32 kind = true) (act : Act) :
    takeRequest h kind i.wf act s = ((act s).2.replied h kind place (act s).1.code (act s).1.body).finish := by
  rw [takeRequest_served hs.toServes, hs.shaped, answerRequest_ready hk (.inl hs.ready)]
  rfl

/-- The same, up to the end of the event. -/
theorem takeRequest_ends {i : Instr} {h : RequestHeader} {s : State} {place : Nat} (hs : s.Reaches i h place)
    {kind : Nat} (hk : within 1 32 kind = true) (act : Act) {a : Answer} {s' : State} (ha : act s = (a, s')) :
    (s'.replied h kind place a.code a.body).EndsAs (takeRequest h kind i.wf act s) := by
  rw [takeRequest_reaches hs hk, ha]
  exact finish_ends _

/-! ### Store requests (R120, R121) -/

/-- A store request that passes the range check outside an evacuation, with the store READY, comes to its own rule with the
arms cleared. -/
theorem storeRequest_free {inRange evacTest exclusive : Bool} {retires : Option Nat} {own : StoreCtl → Act} {s : State}
    (hr : inRange = true) (hs : s.StoreFree) :
    storeRequest inRange evacTest exclusive retires own s = own s.vol.store { s with vol := s.vol.clearArms } := by
  have h1 : s.vol.clearArms.evac.state = .normal := hs.normal
  have h2 : s.vol.clearArms.store.op = .ready := hs.ready
  have h3 : s.vol.clearArms.storeStarting = false := by simp [Vol.storeStarting, h2]
  have h4 : s.vol.clearArms.storeInFlight = false := by simp [Vol.storeInFlight, h2]
  have h5 : s.vol.clearArms.storeClip = none := by simp [Vol.storeClip, h2]
  unfold storeRequest
  simp only [hr, Bool.not_true, Bool.false_eq_true, if_false, h1, h3, h4, h5]
  cases retires <;> simp

/-! ### Parts of a block mark, events -/

/-- A part of the coming block mark that is due is taken, and the event ends. -/
theorem takeMark_due {m : MarkPart} {due : Vol → Bool} {act : Nonvolatile → Vol → Vol} {s : State} (hs : s.AtMark m)
    (hd : due s.vol = true) : takeMark m due act s = (s.onVol fun nv w => (act nv w).markTaken m).finish := by
  unfold takeMark whenRunning
  simp only [hs.running, Vol.open?, hs.mark, hs.left, hd, Bool.not_false, Bool.and_self, if_true]
  rfl

/-- A part that is not due changes nothing (log entry 5). -/
theorem takeMark_not_due {m : MarkPart} {due : Vol → Bool} {act : Nonvolatile → Vol → Vol} {s : State}
    (hd : due s.vol = false) : takeMark m due act s = s := by
  unfold takeMark whenRunning
  simp [hd]

/-- An event that is due is taken and ends. -/
theorem takeEvent_due {due : State → Bool} {act : State → State} {s : State} (hr : s.running = true) (hd : due s = true) :
    takeEvent due act s = (act s).finish := by
  simp [takeEvent, whenRunning, hr, hd]

/-- An event that is not due changes nothing (log entry 5). -/
theorem takeEvent_not_due {due : State → Bool} {act : State → State} {s : State} (hd : due s = false) :
    takeEvent due act s = s := by
  simp [takeEvent, whenRunning, hd]

end Sys2Proof.Laws
end

