-- ==== Sys2Proof/Laws/Store.lean ====
section
/-! SUPPORT. Sparse data: every operation keeps the canonical form, and what a read gives after it; the nonvolatile store
built of it. -/

namespace Sys2Proof.Machine

variable {α : Type}

theorem Sparse.above_iff (k : Nat) (m : Sparse α) (d : α) [DecidableEq α] (hm : Sparse.wf d m = true) :
    Sparse.above k m = true ↔ ∀ e ∈ m, k < e.1 := by
  induction m generalizing k with
  | nil => simp [Sparse.above]
  | cons e t ih =>
    obtain ⟨j, w⟩ := e
    simp only [Sparse.wf, Bool.and_eq_true] at hm
    have h := (ih j hm.2).mp hm.1.2
    simp only [Sparse.above, decide_eq_true_eq, List.mem_cons, forall_eq_or_imp]
    exact ⟨fun hk => ⟨hk, fun e he => Nat.lt_trans hk (h e he)⟩, fun hk => hk.1⟩

theorem Sparse.get_of_above [DecidableEq α] (d : α) {k : Nat} {m : Sparse α} (hm : Sparse.wf d m = true)
    (h : Sparse.above k m = true) {j : Nat} (hj : j ≤ k) : Sparse.get d m j = d := by
  have hall := (Sparse.above_iff k m d hm).mp h
  clear h hm
  induction m with
  | nil => rfl
  | cons e t ih =>
    have he := hall e (List.mem_cons_self)
    have : e.1 ≠ j := by omega
    simp only [Sparse.get, this, if_false]
    exact ih fun e he => hall e (List.mem_cons_of_mem _ he)

theorem Sparse.above_set [DecidableEq α] (d : α) (m : Sparse α) {i k : Nat} (v : α) (hi : i < k)
    (h : Sparse.above i m = true) (hm : Sparse.wf d m = true) : Sparse.above i (Sparse.set d m k v) = true := by
  cases m with
  | nil => unfold Sparse.set; split <;> simp [Sparse.above, hi]
  | cons e t =>
    obtain ⟨j, w⟩ := e
    have hall := (Sparse.above_iff i _ d hm).mp h
    simp only [Sparse.wf, Bool.and_eq_true] at hm
    simp only [Sparse.above, decide_eq_true_eq] at h
    unfold Sparse.set
    split
    · split <;> simp [Sparse.above, h, hi]
    · split
      · split
        · exact (Sparse.above_iff i t d hm.2).mpr fun e he => hall e (List.mem_cons_of_mem _ he)
        · simp [Sparse.above, hi]
      · simp [Sparse.above, h]

/-- A write keeps the canonical form. -/
theorem Sparse.wf_set [DecidableEq α] (d : α) (m : Sparse α) (k : Nat) (v : α) (hm : Sparse.wf d m = true) :
    Sparse.wf d (Sparse.set d m k v) = true := by
  induction m with
  | nil => unfold Sparse.set; split <;> simp_all [Sparse.wf, Sparse.above]
  | cons e t ih =>
    obtain ⟨j, w⟩ := e
    have hm' := hm
    simp only [Sparse.wf, Bool.and_eq_true] at hm'
    unfold Sparse.set
    split
    · rename_i hk
      split
      · exact hm
      · rename_i hv
        simp only [Sparse.wf, Bool.and_eq_true]
        exact ⟨⟨by simpa using hv, by simp [Sparse.above, hk]⟩, hm'⟩
    · split
      · rename_i hk hj
        subst hj
        split
        · exact hm'.2
        · rename_i hv
          simp [Sparse.wf, hv, hm'.1.2, hm'.2]
      · rename_i hk hj
        have : j < k := by omega
        simp only [Sparse.wf, Bool.and_eq_true]
        exact ⟨⟨hm'.1.1, Sparse.above_set d t v this hm'.1.2 hm'.2⟩, ih hm'.2⟩

/-- A read after a write. -/
theorem Sparse.get_set [DecidableEq α] (d : α) (m : Sparse α) (k : Nat) (v : α) (hm : Sparse.wf d m = true) (i : Nat) :
    Sparse.get d (Sparse.set d m k v) i = if i = k then v else Sparse.get d m i := by
  induction m with
  | nil =>
    unfold Sparse.set
    by_cases hv : v = d <;> by_cases hi : i = k <;> simp [Sparse.get, hv, hi]
    intro h; exact absurd h.symm hi
  | cons e t ih =>
    obtain ⟨j, w⟩ := e
    have hm' := hm
    simp only [Sparse.wf, Bool.and_eq_true] at hm'
    unfold Sparse.set
    split
    · rename_i hk
      split
      · rename_i hv
        by_cases hi : i = k
        · subst hi
          have : j ≠ i := by omega
          simp only [Sparse.get, this, if_false, if_true, hv]
          exact Sparse.get_of_above d hm'.2 hm'.1.2 (Nat.le_of_lt hk)
        · simp [hi]
      · by_cases hi : i = k
        · simp [Sparse.get, hi]
        · have : k ≠ i := fun h => hi h.symm
          simp [Sparse.get, hi, this]
    · split
      · rename_i hk hj
        subst hj
        split
        · rename_i hv
          by_cases hi : i = j
          · subst hi
            simp only [if_true, hv]
            exact Sparse.get_of_above d hm'.2 hm'.1.2 (Nat.le_refl _)
          · have : j ≠ i := fun h => hi h.symm
            simp [Sparse.get, hi, this]
        · by_cases hi : i = j
          · simp [Sparse.get, hi]
          · have : j ≠ i := fun h => hi h.symm
            simp [Sparse.get, hi, this]
      · rename_i hk hj
        by_cases hij : j = i
        · subst hij
          simp [Sparse.get, hj]
        · simp [Sparse.get, hij, ih hm'.2]

/-- A run of writes keeps the canonical form. -/
theorem Sparse.wf_setRun [DecidableEq α] (d : α) (m : Sparse α) (k : Nat) (vs : List α) (hm : Sparse.wf d m = true) :
    Sparse.wf d (Sparse.setRun d m k vs) = true := by
  induction vs generalizing k with
  | nil => exact hm
  | cons v t ih => exact Sparse.wf_set d _ k v (ih (k + 1))

/-- A read after a run of writes: the value written there, or what was read before. -/
theorem Sparse.get_setRun [DecidableEq α] (d : α) (m : Sparse α) (k : Nat) (vs : List α) (hm : Sparse.wf d m = true)
    (i : Nat) :
    Sparse.get d (Sparse.setRun d m k vs) i = if k ≤ i ∧ i < k + vs.length then vs.getD (i - k) d else Sparse.get d m i := by
  induction vs generalizing k with
  | nil =>
    have : ¬(k ≤ i ∧ i < k + ([] : List α).length) := by
      simp only [List.length_nil]
      omega
    rw [if_neg this]
    rfl
  | cons v t ih =>
    simp only [Sparse.setRun]
    rw [Sparse.get_set d _ k v (Sparse.wf_setRun d m (k + 1) t hm), ih (k + 1)]
    by_cases hi : i = k
    · subst hi; simp
    · by_cases hr : k ≤ i ∧ i < k + (v :: t).length
      · have h1 : k + 1 ≤ i ∧ i < k + 1 + t.length := by simp only [List.length_cons] at hr; omega
        have h2 : i - k = (i - (k + 1)) + 1 := by omega
        rw [if_neg hi, if_pos h1, if_pos hr, h2]
        simp
      · have h1 : ¬(k + 1 ≤ i ∧ i < k + 1 + t.length) := by simp only [List.length_cons] at hr; omega
        rw [if_neg hi, if_neg h1, if_neg hr]

/-- Taking entries out keeps the canonical form. -/
theorem Sparse.wf_filter [DecidableEq α] (d : α) (m : Sparse α) (p : Nat × α → Bool) (hm : Sparse.wf d m = true) :
    Sparse.wf d (m.filter p) = true := by
  induction m with
  | nil => exact hm
  | cons e t ih =>
    obtain ⟨j, w⟩ := e
    have hm' := hm
    simp only [Sparse.wf, Bool.and_eq_true] at hm'
    rw [List.filter_cons]
    split
    · simp only [Sparse.wf, Bool.and_eq_true]
      refine ⟨⟨hm'.1.1, ?_⟩, ih hm'.2⟩
      rw [Sparse.above_iff j _ d (ih hm'.2)]
      intro e he
      exact (Sparse.above_iff j t d hm'.2).mp hm'.1.2 e (List.mem_filter.mp he).1
    · exact ih hm'.2

/-- Changing the values of entries, none of them to the unlisted value, keeps the canonical form. -/
theorem Sparse.wf_map [DecidableEq α] (d : α) (m : Sparse α) (f : Nat × α → Nat × α) (hm : Sparse.wf d m = true)
    (hk : ∀ e, (f e).1 = e.1) (hv : ∀ e, e.2 ≠ d → (f e).2 ≠ d) : Sparse.wf d (m.map f) = true := by
  induction m with
  | nil => rfl
  | cons e t ih =>
    have hm' := hm
    simp only [Sparse.wf, Bool.and_eq_true, decide_eq_true_eq] at hm'
    simp only [List.map_cons, Sparse.wf, Bool.and_eq_true, decide_eq_true_eq]
    refine ⟨⟨hv e hm'.1.1, ?_⟩, ih hm'.2⟩
    rw [Sparse.above_iff _ _ d (ih hm'.2), hk]
    intro x hx
    obtain ⟨y, hy, rfl⟩ := List.mem_map.mp hx
    rw [hk]
    exact (Sparse.above_iff _ t d hm'.2).mp hm'.1.2 y hy

/-- A read of a table some of whose entries were taken out by key. -/
theorem Sparse.get_filter_key [DecidableEq α] (d : α) (m : Sparse α) (p : Nat → Bool) (hm : Sparse.wf d m = true) (i : Nat) :
    Sparse.get d (m.filter fun e => p e.1) i = if p i = true then Sparse.get d m i else d := by
  induction m with
  | nil => simp [Sparse.get]
  | cons e t ih =>
    obtain ⟨j, w⟩ := e
    have hm' := hm
    simp only [Sparse.wf, Bool.and_eq_true] at hm'
    rw [List.filter_cons]
    by_cases hij : j = i
    · subst hij
      by_cases hp : p j = true
      · simp [hp, Sparse.get]
      · simp only [hp, if_false, Bool.false_eq_true]
        rw [ih hm'.2]
        simp [hp]
    · by_cases hp : p j = true
      · simp [hp, Sparse.get, hij, ih hm'.2]
      · simp only [hp, if_false, Bool.false_eq_true]
        rw [ih hm'.2]
        simp [Sparse.get, hij]

theorem Sparse.wf_clear [DecidableEq α] (d : α) (m : Sparse α) (lo n : Nat) (hm : Sparse.wf d m = true) :
    Sparse.wf d (Sparse.clear m lo n) = true := Sparse.wf_filter d m _ hm

theorem Sparse.get_clear [DecidableEq α] (d : α) (m : Sparse α) (lo n : Nat) (hm : Sparse.wf d m = true) (i : Nat) :
    Sparse.get d (Sparse.clear m lo n) i = if lo ≤ i ∧ i < lo + n then d else Sparse.get d m i := by
  unfold Sparse.clear
  rw [Sparse.get_filter_key d m (fun k => !(decide (lo ≤ k) && decide (k < lo + n))) hm]
  by_cases h : lo ≤ i ∧ i < lo + n
  · simp [h]
  · rw [if_neg h]
    have : (!(decide (lo ≤ i) && decide (i < lo + n))) = true := by
      simp only [Bool.not_eq_true', Bool.and_eq_false_iff, decide_eq_false_iff_not]
      omega
    simp [this]

/-! ### The byte memory of the clip store -/

theorem Memory.wf_writePage (m : List Host.Cell) (bank : ClipBank) (page : Nat) (data : List Byte)
    (hm : Memory.wf m = true) : Memory.wf (Memory.writePage m bank page data) = true :=
  Sparse.wf_setRun _ _ _ _ hm

theorem Memory.wf_eraseSector (m : List Host.Cell) (bank : ClipBank) (sector : Nat) (hm : Memory.wf m = true) :
    Memory.wf (Memory.eraseSector m bank sector) = true := Sparse.wf_clear _ _ _ _ hm

/-- R127: what a byte reads as after a page programming. -/
theorem Memory.read_writePage (m : List Host.Cell) (bank : ClipBank) (page : Nat) (data : List Byte)
    (hm : Memory.wf m = true) (a : Nat) :
    Memory.read (Memory.writePage m bank page data) a =
      if pageIndex bank page * 4096 ≤ a ∧ a < pageIndex bank page * 4096 + data.length
      then data.getD (a - pageIndex bank page * 4096) 0xFF#8 else Memory.read m a :=
  Sparse.get_setRun _ _ _ _ hm a

/-- R131: what a byte reads as after the erasure of a sector. -/
theorem Memory.read_eraseSector (m : List Host.Cell) (bank : ClipBank) (sector : Nat) (hm : Memory.wf m = true) (a : Nat) :
    Memory.read (Memory.eraseSector m bank sector) a =
      if pageIndex bank (64 * sector) * 4096 ≤ a ∧ a < pageIndex bank (64 * sector) * 4096 + 64 * 4096
      then 0xFF#8 else Memory.read m a :=
  Sparse.get_clear _ _ _ _ hm a

/-! ### The nonvolatile store -/

theorem Nonvolatile.wf_iff (nv : Nonvolatile) :
    nv.wf = true ↔ Memory.wf nv.mem = true ∧ Sparse.wf .erased nv.pages = true ∧ Sparse.wf .absent nv.dir = true := by
  simp [Nonvolatile.wf, and_assoc]

theorem Nonvolatile.wf_setPage (nv : Nonvolatile) (bank : ClipBank) (p : Nat) (x : PageState) (h : nv.wf = true) :
    (nv.setPage bank p x).wf = true := by
  rw [Nonvolatile.wf_iff] at h ⊢
  exact ⟨h.1, Sparse.wf_set _ _ _ _ h.2.1, h.2.2⟩

theorem Nonvolatile.wf_setSector (nv : Nonvolatile) (bank : ClipBank) (s : Nat) (x : PageState) (h : nv.wf = true) :
    (nv.setSector bank s x).wf = true :=
  Laws.foldl_keeps (fun nv => nv.wf = true) _ _ nv h fun nv i h => nv.wf_setPage bank (64 * s + i) x h

theorem Nonvolatile.wf_setClip (nv : Nonvolatile) (c : Nat) (x : ClipEntry) (h : nv.wf = true) :
    (nv.setClip c x).wf = true := by
  rw [Nonvolatile.wf_iff] at h ⊢
  exact ⟨h.1, h.2.1, Sparse.wf_set _ _ _ _ h.2.2⟩

theorem Nonvolatile.wf_dropRetired (nv : Nonvolatile) (bank : ClipBank) (s : Nat) (h : nv.wf = true) :
    (nv.dropRetired bank s).wf = true := by
  rw [Nonvolatile.wf_iff] at h ⊢
  exact ⟨h.1, h.2.1, Sparse.wf_filter _ _ _ h.2.2⟩

theorem Nonvolatile.wf_retireWriting (nv : Nonvolatile) (h : nv.wf = true) : nv.retireWriting.wf = true := by
  rw [Nonvolatile.wf_iff] at h ⊢
  refine ⟨h.1, h.2.1, Sparse.wf_map _ _ _ h.2.2 ?_ ?_⟩
  · intro e; dsimp only; split <;> rfl
  · intro e he
    dsimp only
    split
    · intro hc
      exact absurd (congrArg ClipEntry.state hc) (by simp [ClipEntry.absent])
    · exact he

theorem Nonvolatile.wf_dirtyMarked (nv : Nonvolatile) (h : nv.wf = true) : nv.dirtyMarked.2.wf = true := by
  have mark : ∀ nv : Nonvolatile, nv.wf = true → ({ nv with opMark := .none } : Nonvolatile).wf = true := fun nv h => h
  unfold Nonvolatile.dirtyMarked
  split
  · exact h
  · exact mark _ (nv.wf_setPage _ _ _ h)
  · exact mark _ (nv.wf_setSector _ _ _ h)
  · exact mark _ h

theorem Nonvolatile.page_setPage (nv : Nonvolatile) (bank : ClipBank) (p : Nat) (x : PageState) (h : nv.wf = true)
    (bank' : ClipBank) (p' : Nat) :
    (nv.setPage bank p x).page bank' p' = if pageIndex bank' p' = pageIndex bank p then x else nv.page bank' p' :=
  Sparse.get_set _ _ _ _ ((nv.wf_iff).mp h).2.1 _

theorem Nonvolatile.clip_setClip (nv : Nonvolatile) (c : Nat) (x : ClipEntry) (h : nv.wf = true) (c' : Nat) :
    (nv.setClip c x).clip c' = if c' = c then x else nv.clip c' :=
  Sparse.get_set _ _ _ _ ((nv.wf_iff).mp h).2.2 _

theorem pageIndex_add (bank : ClipBank) (p i : Nat) : pageIndex bank (p + i) = pageIndex bank p + i := by
  cases bank <;> simp only [pageIndex] <;> omega

/-- The pages of a sector after all are given one state. -/
theorem Nonvolatile.page_setSector (nv : Nonvolatile) (bank : ClipBank) (s : Nat) (x : PageState) (h : nv.wf = true)
    (bank' : ClipBank) (p' : Nat) :
    (nv.setSector bank s x).page bank' p' =
      if pageIndex bank (64 * s) ≤ pageIndex bank' p' ∧ pageIndex bank' p' < pageIndex bank (64 * s) + 64
      then x else nv.page bank' p' := by
  unfold Nonvolatile.setSector
  have key : ∀ n,
      ((List.range n).foldl (fun (nv : Nonvolatile) i => nv.setPage bank (64 * s + i) x) nv).page bank' p' =
        (if pageIndex bank (64 * s) ≤ pageIndex bank' p' ∧ pageIndex bank' p' < pageIndex bank (64 * s) + n
          then x else nv.page bank' p') ∧
      ((List.range n).foldl (fun (nv : Nonvolatile) i => nv.setPage bank (64 * s + i) x) nv).wf = true := by
    intro n
    induction n with
    | zero =>
      refine ⟨?_, h⟩
      rw [if_neg (by omega)]
      rfl
    | succ n ih =>
      obtain ⟨ih1, ih2⟩ := ih
      rw [List.range_succ, List.foldl_append]
      simp only [List.foldl_cons, List.foldl_nil]
      refine ⟨?_, Nonvolatile.wf_setPage _ _ _ _ ih2⟩
      rw [Nonvolatile.page_setPage _ _ _ _ ih2, ih1, pageIndex_add]
      by_cases h1 : pageIndex bank' p' = pageIndex bank (64 * s) + n
      · rw [if_pos h1, if_pos (by omega)]
      · rw [if_neg h1]
        by_cases h2 : pageIndex bank (64 * s) ≤ pageIndex bank' p' ∧ pageIndex bank' p' < pageIndex bank (64 * s) + n
        · rw [if_pos h2, if_pos (by omega)]
        · rw [if_neg h2, if_neg (by omega)]
  exact (key 64).1

/-- What giving one state to all pages of a sector leaves. -/
theorem Nonvolatile.setSector_rest (nv : Nonvolatile) (bank : ClipBank) (s : Nat) (x : PageState) :
    { nv.setSector bank s x with pages := nv.pages } = nv := by
  unfold Nonvolatile.setSector
  generalize List.range 64 = l
  have key : ∀ m : Nonvolatile,
      { l.foldl (fun (m : Nonvolatile) i => m.setPage bank (64 * s + i) x) m with pages := nv.pages }
        = { m with pages := nv.pages } := by
    induction l with
    | nil => exact fun m => rfl
    | cons i l ih => exact fun m => ih (m.setPage bank (64 * s + i) x)
  exact key nv

/-! ### The programme check (R135, R136) -/

/-- The programme check, the programme's fields and the operation mark are all that the start of a programme write and its
completion change. -/
@[simp] theorem Nonvolatile.spoilProgramme_fields (nv : Nonvolatile) :
    nv.spoilProgramme.mem = nv.mem ∧ nv.spoilProgramme.pages = nv.pages ∧ nv.spoilProgramme.dir = nv.dir ∧
      nv.spoilProgramme.g1 = nv.g1 ∧ nv.spoilProgramme.g2 = nv.g2 ∧ nv.spoilProgramme.programme = nv.programme ∧
      nv.spoilProgramme.opMark = .programme := ⟨rfl, rfl, rfl, rfl, rfl, rfl, rfl⟩

@[simp] theorem Nonvolatile.storeProgramme_fields (nv : Nonvolatile) (p : Programme) :
    (nv.storeProgramme p).mem = nv.mem ∧ (nv.storeProgramme p).pages = nv.pages ∧ (nv.storeProgramme p).dir = nv.dir ∧
      (nv.storeProgramme p).g1 = nv.g1 ∧ (nv.storeProgramme p).g2 = nv.g2 ∧ (nv.storeProgramme p).programme = p ∧
      (nv.storeProgramme p).programmeCheck = p.check ∧ (nv.storeProgramme p).opMark = .none :=
  ⟨rfl, rfl, rfl, rfl, rfl, rfl, rfl, rfl⟩

/-- A record that is being written fails its check, whatever its fields are. -/
@[simp] theorem Nonvolatile.spoilProgramme_mismatch (nv : Nonvolatile) : nv.spoilProgramme.programmeMatches = false := by
  have key : ∀ c : BitVec 32, c ≠ ~~~c := fun c h => by
    have h0 := congrArg (fun x : BitVec 32 => x.getLsbD 0) h
    simp at h0
  exact decide_eq_false (key _)

/-- A record that has been written passes its check. -/
@[simp] theorem Nonvolatile.storeProgramme_matches (nv : Nonvolatile) (p : Programme) :
    (nv.storeProgramme p).programmeMatches = true := by
  simp [Nonvolatile.programmeMatches, Nonvolatile.storeProgramme]

@[simp] theorem Nonvolatile.loaded_valid (nv : Nonvolatile) : nv.loaded true = nv.programme := rfl

@[simp] theorem Nonvolatile.loaded_invalid (nv : Nonvolatile) : nv.loaded false = .empty := rfl

end Sys2Proof.Machine
end

