-- ==== Sys2Proof/Tests/Slice0.lean ====
section
/-! SUPPORT. Small tests on concrete states: every operand check of `Instr.wf` refuses an ill-formed command, the hypotheses
of every statement are met (one theorem `test_hyp_<statement>` each), and commands do what their rules say. -/

namespace Sys2Proof.Tests

set_option Elab.async false

open Sys2Proof.Machine Sys2Proof.Statements

/-! ### States and operands to test on -/

/-- A request from node 1 to the node address 5. -/
def h0 : RequestHeader := { destination := 5, source := 1, tag := 258 }

/-- A message engine with node address 5. -/
def eng : Engine := { Engine.initial with address := 5 }

/-- A running part with node address 5, its store READY, in MAINTENANCE mode. -/
def vol0 : Vol := { Vol.powerOn with mode := .maintenance, engine := eng, store := { StoreCtl.initial with op := .ready } }

/-- The running part with this volatile and nonvolatile state. -/
def st (w : Vol) (nv : Nonvolatile := .blank) : State := { power := .running, nv := nv, vol := w, pending := [] }

/-- The part held in reset, its store with this operation. -/
def heldWith (op : StoreOp) (nv : Nonvolatile := .blank) : State :=
  { power := .held, nv := nv, vol := { Vol.powerOn with store := { StoreCtl.initial with op := op } }, pending := [] }

/-- `vol0` outside NORMAL evacuation state, lane 4 the evacuation lane, an alert of 3 s. -/
def volA : Vol := { vol0 with evac := { Evac.initial with state := .alert, lane := some 4, duration := 3 } }

/-- `vol0` with its store doing this. -/
def volOp (op : StoreOp) : Vol := { vol0 with store := { StoreCtl.initial with op := op } }

/-- A zone placed at port 1, slot 2, and enabled. -/
def zone12 : Zone := { Zone.initial with placement := some (1, 2), enabled := true }

/-- A message engine all of whose places are taken. -/
def engFull : Engine :=
  { eng with places := Vector.replicate 8 (some { destination := 1, source := 5, kind := 1, tag := 0, code := .ok, body := .none }) }

def call0 : Call :=
  { kind := .arrive, service := 12, destination := 7, platform := some 32, scheduled := 5000, expected := none, profile := 15,
    state := .approaching, held := none, announced := false, delayRef := 0, arrival := none, gone := none }

/-- `vol0` with this call in slot 255, the clock at 4,000. -/
def volCall (c : Call) : Vol :=
  { vol0 with calls := tset vol0.calls 255 (some c), clock := { isSet := true, time := 4000, dayBase := 0, marks := 0 } }

def request0 : Request :=
  { number := 9, origin := .direct, call := none, platform := none, template := some 0, override := none, values := none,
    priority := 5, mode := .join, resume := .restart, gap := some 10, window := some 0, repeatsLeft := some 0, notBefore := 0,
    expiry := none, state := .pending, stamp := 0, incomplete := false, finish := none, cancelPending := false }

/-- `vol0` with this request in the queue. -/
def volReq (r : Request) : Vol := { vol0 with queue := { requests := [r], nextNumber := 10, nextStamp := 1 } }

def template0 : Template :=
  { items := [.tone 0 1], target := .group 0, priority := 11, mode := .join, resume := .restart, repeats := 1, gap := 10,
    window := 0 }

def source0 : LiveSource :=
  { opener := .request, group := 31, priority := 3, limit := 1, talkTime := 999, absence := 1999, absenceReported := false,
    claim := 39 }

/-- `vol0` with this source open on lane 31. -/
def volLive (x : LiveSource) : Vol := { vol0 with live := tset vol0.live 31 (some x) }

/-- A store whose clip 1023 is this. -/
def nvClip (x : ClipEntry) : Nonvolatile := { Nonvolatile.blank with dir := [(1023, x)] }

def clipWriting : ClipEntry := { state := .writing, run := some (.a, 2047, 1), written := 0, length := none }

def programme0 : ProgramFields :=
  { enabled := Vector.replicate 64 true, lane := some 31, alertList := [.tone 3 100], evacList := [], duration := 300,
    lines := Vector.replicate 16 none }

/-- Voice 7 as this. -/
def volVoice (x : Voice) : Vol := { vol0 with voices := tset vol0.voices 7 x }

theorem test_reach (w : Vol) (nv : Nonvolatile) (i : Instr) (he : w.engine = eng) (hi : i.wf = true) :
    (st w nv).Reaches i h0 0 := by
  refine ⟨⟨rfl, ?_, ?_⟩, ?_, hi⟩
  · simp [st, Vol.addressed, he, h0, eng]
  · simp only [Vol.freePlace, st, he]; rfl
  · simp [st, he, eng]

/-- A part that has just come out of reset is at a block mark, with nothing taken ahead. -/
theorem test_mark (w : Vol) (nv : Nonvolatile) (m : MarkPart) (h : w.fclk = .initial) : (st w nv).AtMark m := by
  refine ⟨rfl, ?_, ?_⟩
  · simp [st, Vol.atMark, h, FrameClock.initial]
  · simp [st, Vol.taken, h, FrameClock.initial]

/-! ### Ill-formed commands -/

theorem test_wf_header : (Instr.hello { h0 with destination := 256 }).wf = false
    ∧ (Instr.hello { h0 with source := 256 }).wf = false ∧ (Instr.hello { h0 with tag := 65536 }).wf = false := by decide

theorem test_wf_events : (Instr.requestReady 65536).wf = false ∧ (Instr.requestExpired 65536).wf = false := by decide

theorem test_wf_messages :
    (Instr.upMessageDiscarded { destination := 256, source := 0, kind := 0, cls := 0, tag := 0 }).wf = false
    ∧ (Instr.upMessageDiscarded { destination := 0, source := 256, kind := 0, cls := 0, tag := 0 }).wf = false
    ∧ (Instr.upMessageDiscarded { destination := 0, source := 0, kind := 256, cls := 0, tag := 0 }).wf = false
    ∧ (Instr.upMessageDiscarded { destination := 0, source := 0, kind := 0, cls := 256, tag := 0 }).wf = false
    ∧ (Instr.upMessageDiscarded { destination := 0, source := 0, kind := 0, cls := 0, tag := 65536 }).wf = false
    ∧ (Instr.requestUnknownKind h0 1).wf = false ∧ (Instr.requestUnknownKind h0 32).wf = false
    ∧ (Instr.requestUnknownKind h0 256).wf = false
    ∧ (Instr.zoneReport 0 { cls := 256, kind := 0, slot := 0, condition := 0, ambient := none }).wf = false
    ∧ (Instr.zoneReport 0 { cls := 0, kind := 256, slot := 0, condition := 0, ambient := none }).wf = false
    ∧ (Instr.zoneReport 0 { cls := 0, kind := 0, slot := 256, condition := 0, ambient := none }).wf = false
    ∧ (Instr.zoneReport 0 { cls := 0, kind := 0, slot := 0, condition := 256, ambient := none }).wf = false
    ∧ (Instr.zoneReport 0 { cls := 0, kind := 0, slot := 0, condition := 0, ambient := some 255 }).wf = false := by decide

theorem test_wf_admin : (Instr.address h0 256).wf = false ∧ (Instr.alertMask h0 [256]).wf = false
    ∧ (Instr.alertMask h0 (List.replicate 256 0)).wf = false ∧ (Instr.tableRead h0 256 .none).wf = false
    ∧ (Instr.tableRead h0 0 (.one 256)).wf = false ∧ (Instr.tableRead h0 5 (.range 65536 1)).wf = false
    ∧ (Instr.tableRead h0 5 (.range 0 256)).wf = false := by decide +kernel

def record0 : ZoneRecord :=
  { zone := 63, port := some 1, slot := some 2, enabled := true, bgLane := none, bgBase := 191, duck := 80, fgBase := 191,
    evacBase := 0, fallback := some 63, compOn := true, compRef := 40, compLimit := 24 }

theorem test_wf_zone : record0.wf = true ∧ ({ record0 with zone := 256 }).wf = false
    ∧ ({ record0 with port := some 255 }).wf = false ∧ ({ record0 with slot := some 255 }).wf = false
    ∧ ({ record0 with bgLane := some 255 }).wf = false ∧ ({ record0 with bgBase := 256 }).wf = false
    ∧ ({ record0 with duck := 256 }).wf = false ∧ ({ record0 with fgBase := 256 }).wf = false
    ∧ ({ record0 with evacBase := 256 }).wf = false ∧ ({ record0 with fallback := some 255 }).wf = false
    ∧ ({ record0 with compRef := 256 }).wf = false ∧ ({ record0 with compLimit := 256 }).wf = false := by decide

def profile0 : ProfileRecord :=
  { profile := 15, approachLead := 3600, boardingLead := 3600, finalLead := 3600, clearDelay := 1800, delayThreshold := 60,
    concourse := some 31, templates := Vector.replicate 7 (some 127) }

theorem test_wf_profile : profile0.wf = true ∧ ({ profile0 with profile := 256 }).wf = false
    ∧ ({ profile0 with approachLead := 65536 }).wf = false ∧ ({ profile0 with boardingLead := 65536 }).wf = false
    ∧ ({ profile0 with finalLead := 65536 }).wf = false ∧ ({ profile0 with clearDelay := 65536 }).wf = false
    ∧ ({ profile0 with delayThreshold := 256 }).wf = false ∧ ({ profile0 with concourse := some 255 }).wf = false
    ∧ ({ profile0 with templates := Vector.replicate 7 (some 255) }).wf = false := by decide +kernel

def trecord0 : TemplateRecord :=
  { template := 127, target := .group 31, priority := 13, mode := .whole, resume := .abandon, repeats := 8, gap := 600,
    window := 3600, items := [.clip 1023, .field .delay, .pause 50, .tone 3 100] }

theorem test_wf_template : trecord0.wf = true ∧ ({ trecord0 with template := 256 }).wf = false
    ∧ ({ trecord0 with target := .group 256 }).wf = false ∧ ({ trecord0 with priority := 256 }).wf = false
    ∧ ({ trecord0 with repeats := 256 }).wf = false ∧ ({ trecord0 with gap := 65536 }).wf = false
    ∧ ({ trecord0 with window := 65536 }).wf = false ∧ ({ trecord0 with items := List.replicate 256 (.pause 1) }).wf = false
    ∧ ({ trecord0 with items := [.clip 65536] }).wf = false ∧ ({ trecord0 with items := [.pause 65536] }).wf = false
    ∧ ({ trecord0 with items := [.tone 256 1] }).wf = false ∧ ({ trecord0 with items := [.tone 0 65536] }).wf = false := by
  decide +kernel

theorem test_wf_phrases : (Instr.tableWriteHours h0 65536 [none]).wf = false
    ∧ (Instr.tableWriteMinutes h0 0 (List.replicate 256 none)).wf = false
    ∧ (Instr.tableWriteNumbers h0 1 [some 65535]).wf = false
    ∧ (Instr.tableWritePlatformsPhrase h0 1 [some 65535]).wf = false
    ∧ (Instr.tableWriteDestinations h0 65536 [none]).wf = false := by decide +kernel

theorem test_wf_tables : (Instr.tableWriteGroup h0 256 []).wf = false ∧ (Instr.tableWriteGroup h0 0 [256]).wf = false
    ∧ (Instr.tableWriteGroup h0 0 (List.replicate 256 0)).wf = false ∧ (Instr.tableWritePlatform h0 256 none none).wf = false
    ∧ (Instr.tableWritePlatform h0 1 (some 255) none).wf = false ∧ (Instr.tableWritePlatform h0 1 none (some 255)).wf = false
    ∧ (Instr.tableWriteGenerator h0 256 2 0 0).wf = false ∧ (Instr.tableWriteGenerator h0 0 65536 0 0).wf = false
    ∧ (Instr.tableWriteGenerator h0 0 2 65536 0).wf = false ∧ (Instr.tableWriteGenerator h0 0 2 0 65536).wf = false
    ∧ (Instr.tableWriteLinkConfig h0 65536 1).wf = false ∧ (Instr.tableWriteLinkConfig h0 8 256).wf = false
    ∧ (Instr.tableWriteUnassigned h0 12).wf = false ∧ (Instr.tableWriteUnassigned h0 16).wf = false := by decide +kernel

def lrecord0 : LineRecord := { line := 15, fn := .plain, polarity := .activeLow, debounce := 255, report := .both }

theorem test_wf_line : (Instr.tableWriteContactLine h0 lrecord0).wf = true
    ∧ (Instr.tableWriteContactLine h0 { lrecord0 with line := 256 }).wf = false
    ∧ (Instr.tableWriteContactLine h0 { lrecord0 with debounce := 256 }).wf = false
    ∧ (LineFn.talk 256 0 0).wf = false ∧ (LineFn.talk 0 256 0).wf = false ∧ (LineFn.talk 0 0 256).wf = false
    ∧ (LineFn.trainPresent 256).wf = false ∧ (LineFn.doorsClosed 256).wf = false ∧ (LineFn.platformWarn 256).wf = false
    ∧ (LineFn.zoneFault 256).wf = false ∧ (LineFn.output .alertRaised 256 false .none).wf = false
    ∧ (OutSource.zoneHeld 256).wf = false ∧ (OutSource.zoneFaulted 256).wf = false
    ∧ (OutSource.platformOccupied 256).wf = false ∧ (OutSource.platformFinal 256).wf = false := by decide

def load0 : CallLoad :=
  { slot := 255, kind := .depart, service := 65535, destination := 255, platform := some 32, scheduled := 5000,
    expected := none, profile := 15 }

theorem test_wf_calls : load0.wf = true ∧ ({ load0 with slot := 256 }).wf = false ∧ ({ load0 with service := 65536 }).wf = false
    ∧ ({ load0 with destination := 256 }).wf = false ∧ ({ load0 with platform := some 255 }).wf = false
    ∧ ({ load0 with scheduled := 4294967296 }).wf = false ∧ ({ load0 with expected := some 4294967296 }).wf = false
    ∧ ({ load0 with profile := 256 }).wf = false ∧ (Instr.time h0 4294967296 0).wf = false
    ∧ (Instr.time h0 0 4294967296).wf = false ∧ (Instr.callUpdate h0 256 .left .left).wf = false
    ∧ (Instr.callUpdate h0 0 (.value 4294967296) .left).wf = false ∧ (Instr.callUpdate h0 0 .left (.value 256)).wf = false
    ∧ (Instr.callMarkArrived h0 256).wf = false ∧ (Instr.callMarkDeparted h0 256).wf = false
    ∧ (Instr.callCancel h0 256).wf = false ∧ (Instr.callRemove h0 256).wf = false := by decide

def values0 : FieldValues := { platform := some 32, destination := some 255, scheduled := none, expected := none, delay := some 65535 }

def announce0 : Announcement := { template := 127, priority := some 13, group := some 31, notBefore := none, values := values0 }

theorem test_wf_service : announce0.wf = true ∧ ({ announce0 with template := 256 }).wf = false
    ∧ ({ announce0 with priority := some 256 }).wf = false ∧ ({ announce0 with group := some 255 }).wf = false
    ∧ ({ announce0 with notBefore := some 4294967296 }).wf = false ∧ ({ values0 with platform := some 255 }).wf = false
    ∧ ({ values0 with destination := some 256 }).wf = false ∧ ({ values0 with scheduled := some 4294967296 }).wf = false
    ∧ ({ values0 with expected := some 4294967296 }).wf = false ∧ ({ values0 with delay := some 65536 }).wf = false
    ∧ (Instr.announceCancel h0 65536).wf = false ∧ (Instr.liveStart h0 ⟨256, 0, 0, 0⟩).wf = false
    ∧ (Instr.liveStart h0 ⟨0, 256, 0, 0⟩).wf = false ∧ (Instr.liveStartEvac h0 ⟨0, 0, 256, 0⟩).wf = false
    ∧ (Instr.liveStartEvac h0 ⟨0, 0, 0, 65536⟩).wf = false ∧ (Instr.liveStop h0 256).wf = false
    ∧ (Instr.gainSet h0 [⟨256, some 0, none⟩]).wf = false ∧ (Instr.gainSet h0 [⟨0, some 256, none⟩]).wf = false
    ∧ (Instr.gainSet h0 [⟨0, none, some 256⟩]).wf = false
    ∧ (Instr.gainSet h0 (List.replicate 256 ⟨0, none, none⟩)).wf = false
    ∧ (Instr.monitorSelect h0 (some 255)).wf = false := by decide +kernel

theorem test_wf_store : (Instr.clipOpen h0 65536 .a 1).wf = false ∧ (Instr.clipOpen h0 0 .a 65536).wf = false
    ∧ (Instr.pageWrite h0 65536 0 (List.replicate 4096 0)).wf = false
    ∧ (Instr.pageWrite h0 0 256 (List.replicate 4096 0)).wf = false
    ∧ (Instr.pageWrite h0 0 0 (List.replicate 4095 0)).wf = false ∧ (Instr.clipSeal h0 65536 0 0).wf = false
    ∧ (Instr.clipSeal h0 0 4294967296 0).wf = false ∧ (Instr.clipRetire h0 65536).wf = false
    ∧ (Instr.sectorEraseArm h0 .r 256).wf = false ∧ (Instr.sectorEraseGo h0 .r 256).wf = false := by decide +kernel

theorem test_wf_programme : programme0.wf = true ∧ ({ programme0 with lane := some 255 }).wf = false
    ∧ ({ programme0 with alertList := List.replicate 256 (.clip 0) }).wf = false
    ∧ ({ programme0 with evacList := List.replicate 256 (.clip 0) }).wf = false
    ∧ ({ programme0 with alertList := [.clip 65536] }).wf = false ∧ ({ programme0 with evacList := [.tone 256 0] }).wf = false
    ∧ ({ programme0 with evacList := [.tone 0 65536] }).wf = false ∧ ({ programme0 with duration := 65536 }).wf = false
    ∧ ({ programme0 with lines := Vector.replicate 16 (some ⟨.full, .activeLow, 256⟩) }).wf = false := by decide +kernel

/-! ### The hypotheses of the statements are met -/

theorem test_hyp_FrontCommandRuns :
    ({ st vol0 with pending := [.hello h0, .powerLoss] } : State).pending = .hello h0 :: [.powerLoss] := rfl

theorem test_hyp_NothingToDo : (st vol0).pending = [] ∧ (heldWith (.starting 0)).running = false ∧ ofPower (.hello h0) = false
    ∧ (st vol0).vol.storeStarting = false ∧ (vol0.gen 3).ends = false ∧ (vol0.edgeDue 15 true || vol0.edgeDue 15 false) = false
    ∧ vol0.settleDue 15 true = false ∧ vol0.secondDue = false ∧ (st vol0).dueReady = false
    ∧ vol0.isReadyNow 65535 = false ∧ vol0.isExpiredNow 0 = false ∧ vol0.readDue = false ∧ vol0.canStart 7 = false
    ∧ vol0.canResume 7 = false ∧ vol0.atEnd 0 = false ∧ vol0.cancelled 0 = false ∧ vol0.listDue = false
    ∧ vol0.silenceDue 63 = false ∧ vol0.talkDue 31 = false ∧ vol0.absenceDue 31 = false ∧ vol0.alertDue = false
    ∧ vol0.store.op.programmed = false ∧ vol0.store.op.erased = false ∧ vol0.sendingDone = false := by decide +kernel

theorem test_hyp_PowerLossAndLineReset : ({ st vol0 with power := .off } : State).power = .off ∧ (st vol0).power ≠ .off
    ∧ (st (volOp (.programWrite .empty 0))).vol.store.op = .programWrite .empty 0
    ∧ (st vol0).vol.store.op.isProgramWrite = false := by decide +kernel

theorem test_hyp_ReleaseOfReset : (heldWith (.programWrite .empty 0)).power = .held
    ∧ (heldWith (.programWrite .empty 0)).vol.store.op.isProgramWrite = true
    ∧ (heldWith (.starting 0)).power = .held ∧ (heldWith (.starting 0)).vol.store.op.isProgramWrite = false := by decide +kernel

theorem test_blank_programme_bytes : Nonvolatile.blank.programme.bytes =
    List.replicate 64 0xFF#8 ++ (List.replicate 64 0xFF#8 ++ (List.replicate 64 0#8 ++ (List.replicate 64 0#8
      ++ ([0#8, 0xFF#8, 0#8, 0#8, 0#8, 0#8] ++ List.replicate 48 0xFF#8)))) := by decide +kernel

theorem test_blank_crc :
    (List.replicate 64 0xFF#8).foldl crc32Step 0xFFFFFFFF = 4036917317
    ∧ (List.replicate 64 0xFF#8).foldl crc32Step 4036917317 = 2597497779
    ∧ (List.replicate 64 0#8).foldl crc32Step 2597497779 = 2400752958
    ∧ (List.replicate 64 0#8).foldl crc32Step 2400752958 = 2798844175
    ∧ ([0#8, 0xFF#8, 0#8, 0#8, 0#8, 0#8] ++ List.replicate 48 0xFF#8).foldl crc32Step 2798844175 = 1301651083 := by
  decide +kernel

/-- The check of a store never written does not match its fields, whose check is B26A6174h. -/
theorem test_blank_check : Nonvolatile.blank.programme.check = 0xB26A6174#32 := by
  obtain ⟨h1, h2, h3, h4, h5⟩ := test_blank_crc
  rw [Programme.check, test_blank_programme_bytes, crc32, List.foldl_append, h1, List.foldl_append, h2, List.foldl_append, h3,
    List.foldl_append, h4, h5]
  decide +kernel

theorem test_hyp_ReleaseOfReset_check : Nonvolatile.blank.programme.check ≠ Nonvolatile.blank.programmeCheck
    ∧ ∃ nv : Nonvolatile, nv.programme.check = nv.programmeCheck :=
  ⟨by rw [test_blank_check]; decide +kernel, ({ Nonvolatile.blank with programmeCheck := Nonvolatile.blank.programme.check }),
    by simp only⟩

theorem test_hyp_ScanComplete :
    (st (volOp (.starting 0)) { nvClip clipWriting with opMark := .sector .r 7 }).running = true
    ∧ (volOp (.starting 0)).store.op = .starting 0
    ∧ (st (volOp (.starting 0)) { nvClip clipWriting with opMark := .sector .r 7 }).nv.wf = true
    ∧ MarkedPage (.sector .r 7) (pageIndex .r 448) ∧ MarkedPage (.page .b 2047) (pageIndex .b 2047)
    ∧ ¬ MarkedPage (.sector .r 7) (pageIndex .r 447) :=
  ⟨rfl, rfl, rfl, by simp [MarkedPage, pageIndex], rfl, by simp [MarkedPage, pageIndex]⟩

theorem test_hyp_StoreFormKept : (st vol0).nv.wf = true ∧ ∃ t, step (st vol0) = .next t := ⟨rfl, _, rfl⟩

theorem test_hyp_CountsBounded : (st vol0).vol.engine.notices.length ≤ 24 ∧ (st vol0).vol.fclk.count < 48
    ∧ ∃ t, step (st vol0) = .next t := ⟨by decide, by decide, _, rfl⟩

theorem test_hyp_StoreStandsAlone : writesBytes (.clipRetire h0 0) = false ∧ actsOnGuards (.storeAbort h0) = false := by decide

theorem test_hyp_MessagesDiscarded : (Instr.hello h0).request = some (h0, 1) ∧ (st vol0).running = true
    ∧ ({ h0 with destination := 254 } : RequestHeader).destination ≠ 255
    ∧ ({ h0 with destination := 254 } : RequestHeader).destination ≠ vol0.engine.address
    ∧ h0.destination = vol0.engine.address ∧ (∀ p < 8, (tget none engFull.places p).isSome = true)
    ∧ (MessageHeader.mk 5 1 1 2 0).cls ≠ 1 ∧ (MessageHeader.mk 4 1 1 1 0).cls = 1
    ∧ (MessageHeader.mk 4 1 1 1 0).destination ≠ vol0.engine.address := by decide +kernel

theorem test_hyp_RequestsRefused :
    (st { vol0 with engine := .initial }).Serves { h0 with destination := 255 } 0 ∧ Engine.initial.address = 0
    ∧ (Instr.evacStop { h0 with destination := 255 }).request = some ({ h0 with destination := 255 }, 22)
    ∧ (st vol0).Serves h0 0 ∧ (st vol0).vol.engine.address ≠ 0 ∧ (Instr.address h0 256).request = some (h0, 2)
    ∧ (Instr.address h0 256).wf = false :=
  ⟨⟨rfl, rfl, rfl⟩, rfl, rfl, (test_reach vol0 .blank (.hello h0) rfl rfl).toServes, by decide, rfl, rfl⟩

theorem test_hyp_RequestsRefused_unset :
    (st { vol0 with engine := .initial }).Serves { h0 with destination := 255, source := 256 } 0
    ∧ (Instr.hello { h0 with destination := 255, source := 256 }).request = some ({ h0 with destination := 255, source := 256 }, 1)
    ∧ (Instr.hello { h0 with destination := 255, source := 256 }).wf = false := ⟨⟨rfl, rfl, rfl⟩, rfl, rfl⟩

theorem test_hyp_OutboundMessages :
    ({ vol0 with ports := tset vol0.ports 0 { Port.initial with state := .locked } }.port 0).state = .locked
    ∧ vol0.engine.sending = none ∧ vol0.sent.up.valid = false
    ∧ ({ engFull with waiting := [7] }).waiting = 7 :: [] ∧ (tget none engFull.places 7).isSome = true
    ∧ ({ eng with notices := [(5, .alertCleared)] }).notices = (5, .alertCleared) :: [] ∧ eng.waiting = [] ∧ eng.notices = []
    ∧ ({ engFull with sending := some { rest := [], place := some 7 } }).sending = some { rest := [], place := some 7 } := by
  decide +kernel

theorem test_hyp_SentMessagesPass : (ReplyBody.record (List.replicate 4159 0)).bytes.length < 4160
    ∧ (Notice.timeJump 0 4294967295).body.length ≤ 4160 := by decide +kernel

theorem test_hyp_HelloAnswer : (st vol0).Serves h0 0 ∧ h0.wf = true ∧ (st vol0).power ≠ .off
    ∧ (st vol0).Reaches (.resetAudio h0) h0 0 ∧ (st vol0).Reaches (.resetFull h0) h0 0 ∧ vol0.evac.state = .normal
    ∧ vol0.store.op.isProgramWrite = false :=
  ⟨(test_reach vol0 .blank (.hello h0) rfl rfl).toServes, rfl, by decide, test_reach _ _ _ rfl rfl, test_reach _ _ _ rfl rfl,
    rfl, rfl⟩

theorem test_hyp_AddressTaken : (st vol0).Serves h0 0 ∧ (Instr.address h0 0).wf = true ∧ (Instr.address h0 255).wf = true
    ∧ (Instr.address h0 254).wf = true ∧ vol0.engine.address ≠ 0
    ∧ (st { vol0 with engine := .initial }).Serves { h0 with destination := 0 } 0 ∧ Engine.initial.address = 0 :=
  ⟨(test_reach vol0 .blank (.hello h0) rfl rfl).toServes, rfl, rfl, rfl, by decide, ⟨rfl, rfl, rfl⟩, rfl⟩

theorem test_hyp_StatusReport : (st vol0).Reaches (.status h0 false) h0 0 ∧ (st vol0).Reaches (.status h0 true) h0 0 :=
  ⟨test_reach _ _ _ rfl rfl, test_reach _ _ _ rfl rfl⟩

theorem test_hyp_ResetAudio : (st volA).Reaches (.resetAudio h0) h0 0 ∧ volA.evac.state ≠ .normal
    ∧ (st vol0).Reaches (.resetAudio h0) h0 0 ∧ vol0.evac.state = .normal :=
  ⟨test_reach _ _ _ rfl rfl, by decide, test_reach _ _ _ rfl rfl, rfl⟩

theorem test_hyp_ResetFull : (st volA).Reaches (.resetFull h0) h0 0 ∧ volA.evac.state ≠ .normal
    ∧ (st (volOp (.programWrite .empty 0))).Reaches (.resetFull h0) h0 0
    ∧ (volOp (.programWrite .empty 0)).store.op.isProgramWrite = true
    ∧ (st vol0).Reaches (.resetFull h0) h0 0 ∧ vol0.store.op.isProgramWrite = false :=
  ⟨test_reach _ _ _ rfl rfl, by decide, test_reach _ _ _ rfl rfl, rfl, test_reach _ _ _ rfl rfl, rfl⟩

theorem test_hyp_ResetFull_values : vol0.align.delay = 96 ∧ vol0.align.state = .silent
    ∧ ({ AlignBuffer.initial with delay := 8, state := .passing }).delay ≠ 96
    ∧ ({ AlignBuffer.initial with delay := 8, state := .passing }).state ≠ .silent
    ∧ StoreCtl.initial.programmeValid = false := by decide +kernel

theorem test_hyp_AlertKept : AlertExact (st vol0) ∧ ∃ t, step (st vol0) = .next t :=
  ⟨⟨fun _ => ⟨fun h => by simp [st, vol0, eng, Engine.initial] at h, fun h => by simp [st, vol0, eng, Engine.initial] at h⟩,
    fun h => by simp [st, State.running] at h⟩, _, rfl⟩

theorem test_hyp_AlertAndMask : (st vol0).Reaches (.alertMask h0 [6]) h0 0 ∧ (∃ c ∈ [6], 6 ≤ c)
    ∧ (st vol0).Reaches (.alertMask h0 [5, 5]) h0 0 ∧ ¬ [5, 5].Nodup
    ∧ (st vol0).Reaches (.alertMask h0 [5, 0]) h0 0 ∧ (∀ c ∈ [5, 0], c < 6) ∧ [5, 0].Nodup
    ∧ ({ vol0 with engine := { eng with mask := [.link] } }.evalAlert .blank).engine.raised ≠ eng.raised
    ∧ eng.notices.length < 24 :=
  ⟨test_reach _ _ _ rfl rfl, by decide, test_reach _ _ _ rfl rfl, by decide, test_reach _ _ _ rfl rfl, by decide, by decide,
    by decide +kernel, by decide⟩

/-- Zone 9 holds the place that `record0` asks for. -/
def volPlaced : Vol := { vol0 with zones := tset vol0.zones 9 zone12 }

/-- Zone 63 is placed, enabled and in group 31, in an alert. -/
def volKept : Vol := { volA with zones := tset vol0.zones 63 zone12, groups := tset vol0.groups 31 [63] }

theorem test_hyp_ZoneTable :
    ((st vol0).Reaches (.tableWriteZone h0 { record0 with zone := 64 }) h0 0 ∧ ({ record0 with zone := 64 }).inRange = false)
    ∧ ((st { vol0 with mode := .normal }).Reaches (.tableWriteZone h0 record0) h0 0 ∧ record0.inRange = true
      ∧ record0.placement ≠ (vol0.zone record0.zone).placement)
    ∧ ((st volPlaced).Reaches (.tableWriteZone h0 record0) h0 0 ∧ PassesResident volPlaced record0
      ∧ ∃ z < 64, z ≠ record0.zone ∧ record0.placement.isSome = true ∧ (volPlaced.zone z).placement = record0.placement)
    ∧ ((st volKept).Reaches (.tableWriteZone h0 { record0 with enabled := false }) h0 0
      ∧ PassesResident volKept { record0 with enabled := false }
      ∧ volKept.placementHeld record0.zone record0.placement = false ∧ volKept.evac.state ≠ .normal
      ∧ record0.zone ∈ volKept.group 31 ∧ (volKept.zone record0.zone).state ≠ .off)
    ∧ ((st vol0).Reaches (.tableWriteZone h0 record0) h0 0 ∧ PassesResident vol0 record0
      ∧ vol0.placementHeld record0.zone record0.placement = false ∧ vol0.leavesOff record0 = false) :=
  ⟨⟨test_reach _ _ _ rfl rfl, rfl⟩, ⟨test_reach _ _ _ rfl rfl, rfl, by decide +kernel⟩,
    ⟨test_reach _ _ _ rfl rfl, .inl rfl, 9, by decide +kernel⟩,
    ⟨test_reach _ _ _ rfl rfl, .inl rfl, by decide +kernel⟩, ⟨test_reach _ _ _ rfl rfl, .inl rfl, by decide +kernel⟩⟩

theorem test_hyp_GroupAndPlatformWritten :
    (st vol0).Reaches (.tableWriteGroup h0 32 []) h0 0 ∧ (st vol0).Reaches (.tableWriteGroup h0 0 [64]) h0 0
    ∧ ((st vol0).Reaches (.tableWriteGroup h0 30 [63, 63]) h0 0 ∧ ¬ [63, 63].Nodup)
    ∧ ((st { vol0 with mode := .normal }).Reaches (.tableWriteGroup h0 31 [63, 0]) h0 0 ∧ [63, 0].Nodup
      ∧ ∀ z ∈ [63, 0], z < 64)
    ∧ ((st volA).Reaches (.tableWriteGroup h0 31 [63, 0]) h0 0 ∧ volA.mode = .maintenance ∧ volA.evac.state ≠ .normal)
    ∧ ((st vol0).Reaches (.tableWriteGroup h0 31 [63, 0]) h0 0 ∧ vol0.mode = .maintenance ∧ vol0.evac.state = .normal)
    ∧ (st vol0).Reaches (.tableWriteGroup h0 30 [63, 0]) h0 0
    ∧ (st vol0).Reaches (.tableWritePlatform h0 32 (some 31) (some 127)) h0 0
    ∧ (st vol0).Reaches (.tableWritePlatform h0 33 none none) h0 0
    ∧ (st vol0).Reaches (.tableWritePlatform h0 0 none none) h0 0 :=
  ⟨test_reach _ _ _ rfl rfl, test_reach _ _ _ rfl rfl, ⟨test_reach _ _ _ rfl rfl, by decide⟩,
    ⟨test_reach _ _ _ rfl rfl, by decide, by decide⟩, ⟨test_reach _ _ _ rfl rfl, rfl, by decide⟩,
    ⟨test_reach _ _ _ rfl rfl, rfl, rfl⟩, test_reach _ _ _ rfl rfl, test_reach _ _ _ rfl rfl, test_reach _ _ _ rfl rfl,
    test_reach _ _ _ rfl rfl⟩

theorem test_hyp_ProfilesAndTemplates :
    ((st vol0).Reaches (.tableWriteProfile h0 { profile0 with profile := 16 }) h0 0
      ∧ ({ profile0 with profile := 16 }).inRange = false)
    ∧ ((st vol0).Reaches (.tableWriteProfile h0 profile0) h0 0 ∧ profile0.inRange = true)
    ∧ ((st vol0).Reaches (.tableWriteTemplate h0 { trecord0 with items := [] }) h0 0 ∧ trecord0.template < 128)
    ∧ ((st vol0).Reaches (.tableWriteTemplate h0 trecord0) h0 0 ∧ trecord0.items ≠ [] ∧ trecord0.inRange = true)
    ∧ ((st vol0).Reaches (.tableWriteTemplate h0 { trecord0 with gap := 601 }) h0 0
      ∧ ({ trecord0 with gap := 601 }).inRange = false)
    ∧ (st vol0).Reaches (.tableWriteTemplate h0 { trecord0 with template := 128 }) h0 0 :=
  ⟨⟨test_reach _ _ _ rfl rfl, by decide +kernel⟩, ⟨test_reach _ _ _ rfl rfl, by decide +kernel⟩,
    ⟨test_reach _ _ _ rfl rfl, by decide⟩, ⟨test_reach _ _ _ rfl rfl, by decide, by decide +kernel⟩,
    ⟨test_reach _ _ _ rfl rfl, by decide +kernel⟩, test_reach _ _ _ rfl rfl⟩

theorem test_hyp_PhrasesWritten :
    ((st vol0).Reaches (.tableWriteHours h0 23 [some 1023]) h0 0 ∧ PhrasePasses 0 24 23 [some 1023])
    ∧ ((st vol0).Reaches (.tableWriteHours h0 24 [none]) h0 0 ∧ ¬ PhrasePasses 0 24 24 [none])
    ∧ ((st vol0).Reaches (.tableWriteMinutes h0 59 [none]) h0 0 ∧ PhrasePasses 0 60 59 [none])
    ∧ ((st vol0).Reaches (.tableWriteMinutes h0 0 [some 1024]) h0 0 ∧ ¬ PhrasePasses 0 60 0 [some 1024])
    ∧ ((st vol0).Reaches (.tableWriteNumbers h0 100 [none]) h0 0 ∧ PhrasePasses 1 100 100 [none])
    ∧ ((st vol0).Reaches (.tableWriteNumbers h0 0 [none]) h0 0 ∧ ¬ PhrasePasses 1 100 0 [none])
    ∧ ((st vol0).Reaches (.tableWritePlatformsPhrase h0 1 [none]) h0 0 ∧ PhrasePasses 1 32 1 [none])
    ∧ ((st vol0).Reaches (.tableWritePlatformsPhrase h0 32 [none, none]) h0 0 ∧ ¬ PhrasePasses 1 32 32 [none, none])
    ∧ ((st vol0).Reaches (.tableWriteDestinations h0 255 [none]) h0 0 ∧ PhrasePasses 0 256 255 [none])
    ∧ ((st vol0).Reaches (.tableWriteDestinations h0 0 []) h0 0 ∧ ¬ PhrasePasses 0 256 0 [])
    ∧ (st vol0).Reaches (.resetFull h0) h0 0 ∧ (st vol0).Reaches (.resetAudio h0) h0 0 ∧ vol0.evac.state = .normal :=
  ⟨⟨test_reach _ _ _ rfl rfl, by simp [PhrasePasses]⟩, ⟨test_reach _ _ _ rfl rfl, by simp [PhrasePasses]⟩,
    ⟨test_reach _ _ _ rfl rfl, by simp [PhrasePasses]⟩, ⟨test_reach _ _ _ rfl rfl, by simp [PhrasePasses]⟩,
    ⟨test_reach _ _ _ rfl rfl, by simp [PhrasePasses]⟩, ⟨test_reach _ _ _ rfl rfl, by simp [PhrasePasses]⟩,
    ⟨test_reach _ _ _ rfl rfl, by simp [PhrasePasses]⟩, ⟨test_reach _ _ _ rfl rfl, by simp [PhrasePasses]⟩,
    ⟨test_reach _ _ _ rfl rfl, by simp [PhrasePasses]⟩, ⟨test_reach _ _ _ rfl rfl, by simp [PhrasePasses]⟩,
    test_reach _ _ _ rfl rfl, test_reach _ _ _ rfl rfl, rfl⟩

/-- Line 15 has an evacuation function. -/
def volEvacLine : Vol := { vol0 with lines := tset vol0.lines 15 { Line.initial with fn := .evac .full } }

theorem test_hyp_ContactLineWritten :
    ((st vol0).Reaches (.tableWriteContactLine h0 { lrecord0 with line := 16 }) h0 0
      ∧ ({ lrecord0 with line := 16 }).inRange = false)
    ∧ ((st volEvacLine).Reaches (.tableWriteContactLine h0 lrecord0) h0 0 ∧ lrecord0.inRange = true
      ∧ (volEvacLine.line 15).fn.isEvac = true)
    ∧ ((st vol0).Reaches (.tableWriteContactLine h0 { lrecord0 with polarity := .activeHigh, debounce := 10 }) h0 0
      ∧ ({ lrecord0 with polarity := .activeHigh, debounce := 10 }).inRange = true ∧ (vol0.line 15).fn.isEvac = false
      ∧ (vol0.line 15).rewritten { lrecord0 with polarity := .activeHigh, debounce := 10 } = false)
    ∧ ((st vol0).Reaches (.tableWriteContactLine h0 lrecord0) h0 0 ∧ lrecord0.fn.isEvac = false
      ∧ (vol0.line 15).rewritten lrecord0 = true) :=
  ⟨⟨test_reach _ _ _ rfl rfl, rfl⟩, ⟨test_reach _ _ _ rfl rfl, rfl, rfl⟩,
    ⟨test_reach _ _ _ rfl rfl, by decide +kernel⟩, ⟨test_reach _ _ _ rfl rfl, by decide +kernel⟩⟩

/-- Generator 3 at the end of its period of 2, with this staged set. -/
def volGen (x : Option (Nat × Nat × Nat)) : Vol :=
  { vol0 with gens := tset vol0.gens 3 { started := true, p := 2, r := 0, f := 2, phase := 19, staged := x } }

theorem test_hyp_GeneratorWritten :
    ((st vol0).Reaches (.tableWriteGenerator h0 3 1000 1000 1000) h0 0 ∧ (st vol0).Reaches (.tableWriteGenerator h0 0 2 0 0) h0 0)
    ∧ ((st vol0).Reaches (.tableWriteGenerator h0 4 2 0 0) h0 0 ∧ (st vol0).Reaches (.tableWriteGenerator h0 0 2 2 1) h0 0)
    ∧ ((st (volGen (some (1000, 0, 1)))).AtMark (.gen 3) ∧ (volGen none).gen 3 = ⟨true, 2, 0, 2, 19, none⟩
      ∧ 10 * ((volGen none).gen 3).p ≤ ((volGen none).gen 3).phase + 1
      ∧ ((volGen (some (1000, 0, 1))).gen 3).staged = some (1000, 0, 1) ∧ ((volGen none).gen 3).staged = none)
    ∧ (st vol0).Reaches (.tableRead h0 11 (.one 3)) h0 0 :=
  ⟨⟨test_reach _ _ _ rfl rfl, test_reach _ _ _ rfl rfl⟩, ⟨test_reach _ _ _ rfl rfl, test_reach _ _ _ rfl rfl⟩,
    ⟨test_mark _ _ _ rfl, by decide +kernel⟩, test_reach _ _ _ rfl rfl⟩

theorem test_hyp_LinkConfigAndTableRead :
    (st vol0).Reaches (.tableWriteLinkConfig h0 8 16) h0 0 ∧ (st vol0).Reaches (.tableWriteLinkConfig h0 480 1) h0 0
    ∧ (st vol0).Reaches (.tableWriteLinkConfig h0 481 1) h0 0 ∧ (st vol0).Reaches (.tableWriteLinkConfig h0 8 0) h0 0
    ∧ (st { vol0 with align := { AlignBuffer.initial with state := .passing } }).Reaches (.tableWriteLinkConfig h0 8 1) h0 0
    ∧ AlignBuffer.initial.delay ≠ 8 ∧ AlignBuffer.initial.state = .silent
    ∧ (st vol0).Reaches (.tableWriteUnassigned h0 13) h0 0 ∧ (st vol0).Reaches (.tableWriteUnassigned h0 15) h0 0
    ∧ (st vol0).Reaches (.tableRead h0 15 .none) h0 0 ∧ (st vol0).Reaches (.tableRead h0 16 .none) h0 0
    ∧ (readRecord vol0 1 (.one 31)).isSome = true ∧ readRecord vol0 1 (.one 32) = none :=
  ⟨test_reach _ _ _ rfl rfl, test_reach _ _ _ rfl rfl, test_reach _ _ _ rfl rfl, test_reach _ _ _ rfl rfl,
    test_reach _ _ _ rfl rfl, by decide, rfl, test_reach _ _ _ rfl rfl, test_reach _ _ _ rfl rfl, test_reach _ _ _ rfl rfl,
    test_reach _ _ _ rfl rfl, by decide +kernel⟩

theorem test_hyp_StationEventsFrame : actsOnStation (.evacStart h0) = true ∧ (Instr.evacStart h0).request = some (h0, 20)
    ∧ (st vol0).Reaches (.evacStart h0) h0 0 ∧ (st vol0).Reaches (.time h0 0 0) h0 0
    ∧ stationPart (.voiceEnd 7) = some (.voice 7) := ⟨rfl, rfl, test_reach _ _ _ rfl rfl, test_reach _ _ _ rfl rfl, rfl⟩

theorem test_hyp_TimeSet :
    ((st vol0).Reaches (.time h0 0 1) h0 0 ∧ (st vol0).Reaches (.time h0 86400 0) h0 0)
    ∧ ((st vol0).Reaches (.time h0 86399 0) h0 0 ∧ vol0.clock.isSet = false)
    ∧ ((st (volCall call0)).Reaches (.time h0 4003 0) h0 0 ∧ (volCall call0).clock.isSet = true
      ∧ (volCall call0).clock.time + 2 < 4003)
    ∧ ((st (volCall call0)).Reaches (.time h0 4002 4002) h0 0 ∧ ¬ (volCall call0).clock.time + 2 < 4002)
    ∧ ((st (volCall call0)).Reaches (.time h0 3997 0) h0 0 ∧ 3997 + 2 < (volCall call0).clock.time) :=
  ⟨⟨test_reach _ _ _ rfl rfl, test_reach _ _ _ rfl rfl⟩, ⟨test_reach _ _ _ rfl rfl, rfl⟩,
    ⟨test_reach _ _ _ rfl rfl, rfl, by decide⟩, ⟨test_reach _ _ _ rfl rfl, by decide⟩, ⟨test_reach _ _ _ rfl rfl, by decide⟩⟩

theorem test_hyp_CallLoaded :
    ((st vol0).Reaches (.callLoad h0 { load0 with platform := some 33 }) h0 0
      ∧ (st vol0).Reaches (.callLoad h0 { load0 with profile := 16 }) h0 0)
    ∧ ((st (volCall call0)).Reaches (.callLoad h0 load0) h0 0 ∧ ((volCall call0).call 255).isSome = true)
    ∧ ((st vol0).Reaches (.callLoad h0 load0) h0 0 ∧ vol0.call 255 = none ∧ vol0.clock.isSet = false) :=
  ⟨⟨test_reach _ _ _ rfl rfl, test_reach _ _ _ rfl rfl⟩, ⟨test_reach _ _ _ rfl rfl, by decide +kernel⟩,
    ⟨test_reach _ _ _ rfl rfl, by decide +kernel, rfl⟩⟩

/-- A DEPART call BOARDING at platform 32, platform 1 occupied by slot 3. -/
def volBoarding : Vol :=
  { volCall { call0 with kind := .depart, state := .boarding } with
    platforms := tset vol0.platforms 0 { Platform.initial with occupant := some 3 } }

theorem test_hyp_CallUpdated :
    ((st vol0).Reaches (.callUpdate h0 255 .left .left) h0 0 ∧ updateInRange 255 .left .left = false
      ∧ updateInRange 255 .left (.value 33) = false)
    ∧ ((st vol0).Reaches (.callUpdate h0 255 .cleared .left) h0 0 ∧ updateInRange 255 .cleared .left = true
      ∧ vol0.call 255 = none)
    ∧ ((st (volCall { call0 with state := .gone })).Reaches (.callUpdate h0 255 .cleared .left) h0 0
      ∧ (volCall { call0 with state := .gone }).call 255 = some { call0 with state := .gone })
    ∧ ((st volBoarding).Reaches (.callUpdate h0 255 .left .cleared) h0 0
      ∧ volBoarding.call 255 = some { call0 with kind := .depart, state := .boarding })
    ∧ ((st volBoarding).Reaches (.callUpdate h0 255 .left (.value 1)) h0 0 ∧ call0.platform ≠ some 1
      ∧ (volBoarding.platform 1).occupant.isSome = true)
    ∧ ((st (volCall call0)).Reaches (.callUpdate h0 255 (.value 4294967295) (.value 32)) h0 0
      ∧ call0.state = .approaching)
    ∧ ((st volBoarding).Reaches (.callUpdate h0 255 .left (.value 2)) h0 0 ∧ (volBoarding.platform 2).occupant = none
      ∧ call0.platform ≠ some 2) :=
  ⟨⟨test_reach _ _ _ rfl rfl, rfl, rfl⟩, ⟨test_reach _ _ _ rfl rfl, rfl, by decide +kernel⟩,
    ⟨test_reach _ _ _ rfl rfl, by decide +kernel⟩, ⟨test_reach _ _ _ rfl rfl, by decide +kernel⟩,
    ⟨test_reach _ _ _ rfl rfl, by decide +kernel⟩, ⟨test_reach _ _ _ rfl rfl, rfl⟩,
    ⟨test_reach _ _ _ rfl rfl, by decide +kernel⟩⟩

/-- `call0` with its platform occupied by slot 3. -/
def volBusy : Vol :=
  { volCall call0 with platforms := tset vol0.platforms 31 { Platform.initial with occupant := some 3 } }

theorem test_hyp_CallMarks :
    ((st vol0).Reaches (.callMarkArrived h0 255) h0 0 ∧ vol0.call 255 = none)
    ∧ ((st (volCall { call0 with platform := none })).Reaches (.callMarkArrived h0 255) h0 0
      ∧ (volCall { call0 with platform := none }).call 255 = some { call0 with platform := none })
    ∧ ((st volBusy).Reaches (.callMarkArrived h0 255) h0 0 ∧ volBusy.call 255 = some call0
      ∧ (volBusy.platform 32).occupant = some 3)
    ∧ ((st (volCall call0)).Reaches (.callMarkArrived h0 255) h0 0 ∧ (volCall call0).call 255 = some call0
      ∧ ((volCall call0).platform 32).occupant = none)
    ∧ ((st vol0).Reaches (.callMarkDeparted h0 255) h0 0 ∧ (st (volCall call0)).Reaches (.callMarkDeparted h0 255) h0 0)
    ∧ ((st (volCall { call0 with state := .atPlatform })).Reaches (.callMarkDeparted h0 255) h0 0
      ∧ (volCall { call0 with state := .atPlatform }).call 255 = some { call0 with state := .atPlatform })
    ∧ ((st (volCall { call0 with kind := .depart, state := .final })).Reaches (.callMarkDeparted h0 255) h0 0
      ∧ (volCall { call0 with kind := .depart, state := .final }).call 255 = some { call0 with kind := .depart, state := .final }) :=
  ⟨⟨test_reach _ _ _ rfl rfl, by decide +kernel⟩, ⟨test_reach _ _ _ rfl rfl, by decide +kernel⟩,
    ⟨test_reach _ _ _ rfl rfl, by decide +kernel⟩, ⟨test_reach _ _ _ rfl rfl, by decide +kernel⟩,
    ⟨test_reach _ _ _ rfl rfl, test_reach _ _ _ rfl rfl⟩, ⟨test_reach _ _ _ rfl rfl, by decide +kernel⟩,
    ⟨test_reach _ _ _ rfl rfl, by decide +kernel⟩⟩

theorem test_hyp_CallEnds :
    ((st vol0).Reaches (.callCancel h0 255) h0 0 ∧ vol0.call 255 = none ∧ (st vol0).Reaches (.callRemove h0 255) h0 0)
    ∧ ((st (volCall { call0 with state := .cancelled })).Reaches (.callCancel h0 255) h0 0
      ∧ (volCall { call0 with state := .cancelled }).call 255 = some { call0 with state := .cancelled })
    ∧ ((st (volCall call0)).Reaches (.callCancel h0 255) h0 0 ∧ (st (volCall call0)).Reaches (.callRemove h0 255) h0 0
      ∧ (volCall call0).call 255 = some call0) :=
  ⟨⟨test_reach _ _ _ rfl rfl, by decide +kernel, test_reach _ _ _ rfl rfl⟩, ⟨test_reach _ _ _ rfl rfl, by decide +kernel⟩,
    ⟨test_reach _ _ _ rfl rfl, test_reach _ _ _ rfl rfl, by decide +kernel⟩⟩

/-- `c` in slot 255 with a due entry at `t`, in NORMAL mode at 4,000. -/
def volDue (c : Call) (t : Nat) : Vol := { volCall c with mode := .normal, due := [⟨t, 255⟩] }

theorem test_hyp_DueEntryTaken :
    (st (volDue { call0 with state := .planned } 4000)).running = true ∧ (volDue call0 4000).clock.isSet = true
    ∧ (volDue call0 4000).mode = .normal ∧ (volDue call0 3880).due = ⟨3880, 255⟩ :: []
    ∧ (volDue { call0 with state := .planned } 4000).call 255 = some { call0 with state := .planned }
    ∧ (volDue { call0 with kind := .depart, state := .planned } 3880).call 255 = some { call0 with kind := .depart, state := .planned }
    ∧ (volDue { call0 with kind := .depart, state := .boarding } 3879).call 255 = some { call0 with kind := .depart, state := .boarding }
    ∧ (volDue { call0 with kind := .depart, state := .final } 0).call 255 = some { call0 with kind := .depart, state := .final }
    ∧ (volDue { call0 with state := .gone } 0).call 255 = some { call0 with state := .gone }
    ∧ decide (3880 + 120 < (volDue call0 3880).clock.time) = false ∧ decide (3879 + 120 < (volDue call0 3879).clock.time) = true := by
  decide +kernel

/-- A DEPART call BOARDING, FINAL or PLANNED, with and without a platform, held or not, and its platform free or occupied. -/
theorem test_hyp_TransitionsEnd :
    (volCall call0).call 255 = some call0 ∧ call0.held = none ∧ call0.platform = some 32
    ∧ ((volCall call0).platform 32).occupant = none ∧ (volBusy.platform 32).occupant = some 3
    ∧ volBusy.call 255 = some call0 ∧ (volCall { call0 with platform := none }).call 255 = some { call0 with platform := none }
    ∧ (volCall { call0 with held := some (.boarding, 0) }).call 255 = some { call0 with held := some (.boarding, 0) } := by
  decide +kernel

/-- `vol0` with `template0` as template 127. -/
def volTemplate : Vol := { vol0 with templates := tset vol0.templates 127 (some template0) }

theorem test_hyp_Announced :
    ((st vol0).Reaches (.announce h0 { announce0 with priority := some 14 }) h0 0
      ∧ ({ announce0 with priority := some 14 }).inRange = false)
    ∧ ((st vol0).Reaches (.announce h0 announce0) h0 0 ∧ announce0.inRange = true ∧ vol0.template 127 = none)
    ∧ ((st { volTemplate with evac := { Evac.initial with state := .evacuate } }).Reaches
        (.announce h0 { announce0 with priority := none }) h0 0 ∧ volTemplate.template 127 = some template0
      ∧ (Option.none (α := Nat)).getD template0.priority < 12)
    ∧ ((st { volTemplate with queue := { requests := List.replicate 64 { request0 with priority := 13 }, nextNumber := 64, nextStamp := 64 } }).Reaches
        (.announce h0 announce0) h0 0
      ∧ ({ volTemplate with queue := { requests := List.replicate 64 { request0 with priority := 13 }, nextNumber := 64, nextStamp := 64 } }).makeRoom 13 = none)
    ∧ ((st volTemplate).Reaches (.announce h0 announce0) h0 0 ∧ (volTemplate.makeRoom 13).isSome = true) :=
  ⟨⟨test_reach _ _ _ rfl rfl, by decide +kernel⟩, ⟨test_reach _ _ _ rfl rfl, by decide +kernel⟩,
    ⟨test_reach _ _ _ rfl rfl, by decide +kernel⟩, ⟨test_reach _ _ _ rfl rfl, by decide +kernel⟩,
    ⟨test_reach _ _ _ rfl rfl, by decide +kernel⟩⟩

theorem test_hyp_QueueEvents :
    ((st vol0).Reaches (.announceCancel h0 65535) h0 0 ∧ vol0.request 65535 = none)
    ∧ ((st (volReq { request0 with origin := .evac })).Reaches (.announceCancel h0 9) h0 0
      ∧ (volReq { request0 with origin := .evac }).request 9 = some { request0 with origin := .evac })
    ∧ ((st (volReq { request0 with state := .playing 0 })).Reaches (.announceCancel h0 9) h0 0
      ∧ (volReq { request0 with state := .playing 0 }).request 9 = some { request0 with state := .playing 0 })
    ∧ ((st (volReq request0)).Reaches (.announceCancel h0 9) h0 0 ∧ (volReq request0).request 9 = some request0
      ∧ request0.isPlaying = false)
    ∧ (request0.state = .pending ∧ request0.notBefore ≤ (volReq request0).clock.time ∧ request0.expiry = none)
    ∧ ({ request0 with expiry := some 3999 }.isPlaying = false ∧ 3999 < (volCall call0).clock.time) :=
  ⟨⟨test_reach _ _ _ rfl rfl, by decide +kernel⟩, ⟨test_reach _ _ _ rfl rfl, by decide +kernel⟩,
    ⟨test_reach _ _ _ rfl rfl, by decide +kernel⟩, ⟨test_reach _ _ _ rfl rfl, by decide +kernel⟩,
    ⟨by decide +kernel, by decide +kernel, rfl⟩, ⟨rfl, by decide⟩⟩

theorem test_hyp_Withdrawn : request0.isPlaying = false
    ∧ ({ request0 with state := .playing 0, cancelPending := true }).isPlaying = true
    ∧ ({ request0 with state := .playing 0, cancelPending := true }).cancelPending = true
    ∧ ({ request0 with state := .playing 0 }).cancelPending = false := by decide

/-- Group 31 has the member 63. -/
def volGroup : Vol := { vol0 with groups := tset vol0.groups 31 [63] }

/-- The same in an alert, another opener's source open on the evacuation lane. -/
def volGroupA : Vol := { volA with groups := tset vol0.groups 31 [63], live := tset vol0.live 4 (some source0) }

theorem test_hyp_LiveOpened :
    ((st vol0).Reaches (.liveStart h0 ⟨32, 0, 0, 0⟩) h0 0 ∧ (st vol0).Reaches (.liveStart h0 ⟨0, 0, 14, 0⟩) h0 0
      ∧ (st vol0).Reaches (.liveStart h0 ⟨0, 0, 0, 601⟩) h0 0)
    ∧ ((st (volLive source0)).Reaches (.liveStart h0 ⟨31, 31, 13, 600⟩) h0 0 ∧ ((volLive source0).source 31).isSome = true)
    ∧ ((st vol0).Reaches (.liveStart h0 ⟨31, 31, 13, 600⟩) h0 0 ∧ vol0.source 31 = none ∧ vol0.group 31 = [])
    ∧ ((st volGroup).Reaches (.liveStart h0 ⟨31, 31, 13, 600⟩) h0 0 ∧ volGroup.group 31 ≠ [] ∧ volGroup.freeClaim = some 0)
    ∧ ((st vol0).Reaches (.liveStartEvac h0 ⟨31, 31, 255, 600⟩) h0 0 ∧ vol0.evac.state = .normal)
    ∧ ((st { volA with live := tset vol0.live 4 (some { source0 with opener := .evacuation none }) }).Reaches
        (.liveStartEvac h0 ⟨31, 31, 255, 600⟩) h0 0
      ∧ ({ volA with live := tset vol0.live 4 (some { source0 with opener := .evacuation none }) }).evacSourceOpen = true)
    ∧ ((st volA).Reaches (.liveStartEvac h0 ⟨31, 31, 255, 600⟩) h0 0 ∧ volA.evac.lane = some 4
      ∧ volA.evacSourceOpen = false ∧ volA.group 31 = [])
    ∧ ((st volGroupA).Reaches (.liveStartEvac h0 ⟨31, 31, 255, 600⟩) h0 0 ∧ volGroupA.evacSourceOpen = false
      ∧ volGroupA.group 31 ≠ [] ∧ (volGroupA.closeSource 4 .stopped).freeClaim = some 0) :=
  ⟨⟨test_reach _ _ _ rfl rfl, test_reach _ _ _ rfl rfl, test_reach _ _ _ rfl rfl⟩,
    ⟨test_reach _ _ _ rfl rfl, by decide +kernel⟩, ⟨test_reach _ _ _ rfl rfl, by decide +kernel⟩,
    ⟨test_reach _ _ _ rfl rfl, by decide +kernel⟩, ⟨test_reach _ _ _ rfl rfl, rfl⟩,
    ⟨test_reach _ _ _ rfl rfl, by decide +kernel⟩, ⟨test_reach _ _ _ rfl rfl, by decide +kernel⟩,
    ⟨test_reach _ _ _ rfl rfl, by decide +kernel⟩⟩

theorem test_hyp_LiveEnds :
    ((st vol0).Reaches (.liveStop h0 32) h0 0 ∧ (st vol0).Reaches (.liveStop h0 31) h0 0 ∧ vol0.source 31 = none)
    ∧ ((st (volLive source0)).Reaches (.liveStop h0 31) h0 0 ∧ (volLive source0).source 31 = some source0)
    ∧ ((st (volLive source0)).AtMark (.talk 31) ∧ source0.limit ≠ 0 ∧ source0.limit * 1000 ≤ source0.talkTime + 1)
    ∧ ((st (volLive source0)).AtMark (.absence 31) ∧ (volLive source0).laneComing 31 = false ∧ 2000 ≤ source0.absence + 1
      ∧ source0.absenceReported = false) :=
  ⟨⟨test_reach _ _ _ rfl rfl, test_reach _ _ _ rfl rfl, by decide +kernel⟩, ⟨test_reach _ _ _ rfl rfl, by decide +kernel⟩,
    ⟨test_mark _ _ _ rfl, by decide, by decide⟩, ⟨test_mark _ _ _ rfl, by decide +kernel, by decide, rfl⟩⟩

theorem test_hyp_GainStaged :
    (st vol0).Reaches (.gainSet h0 [⟨63, some 191, none⟩, ⟨0, none, some 0⟩]) h0 0
    ∧ GainPasses [⟨63, some 191, none⟩, ⟨0, none, some 0⟩]
    ∧ (st vol0).Reaches (.gainSet h0 [⟨64, some 0, none⟩]) h0 0 ∧ ¬ GainPasses [⟨64, some 0, none⟩]
    ∧ (st vol0).Reaches (.gainSet h0 []) h0 0 ∧ ¬ GainPasses [] :=
  ⟨test_reach _ _ _ rfl rfl, by simp [GainPasses], test_reach _ _ _ rfl rfl, by simp [GainPasses], test_reach _ _ _ rfl rfl,
    by simp [GainPasses]⟩

theorem test_hyp_MonitorSelected : (st vol0).Reaches (.monitorSelect h0 (some 63)) h0 0
    ∧ (st vol0).Reaches (.monitorSelect h0 none) h0 0 ∧ (st vol0).Reaches (.monitorSelect h0 (some 64)) h0 0 :=
  ⟨test_reach _ _ _ rfl rfl, test_reach _ _ _ rfl rfl, test_reach _ _ _ rfl rfl⟩

theorem test_hyp_MonitorCarried : (st { volPlaced with monitor := some 9 }).running = true
    ∧ ({ volPlaced with monitor := some 9 }).monitor = some 9 ∧ vol0.monitor = none
    ∧ (volPlaced.zone 9).placement = some (1, 2) ∧ (∀ y < 9, (volPlaced.zone y).placement ≠ some (1, 2)) := by decide +kernel

theorem test_hyp_AttenuationRounds : (-8388608 : Int).natAbs < 2 ^ 23 + 1 := by decide

theorem test_hyp_LevelsRamp :
    ((({ vol0 with gains := tset vol0.gains 63 { Gain.initial with cut := true }, zones := tset vol0.zones 63 { zone12 with holder := some 0 } }).gain 63).cut = true
      ∧ (({ vol0 with gains := tset vol0.gains 63 { Gain.initial with cut := true }, zones := tset vol0.zones 63 { zone12 with holder := some 0 } }).zone 63).holder.isSome = true)
    ∧ (vol0.gain 63).cut = false := by decide +kernel

/-- Zone 63 is held by claim 39 of priority 14, its line hot, its compensation ON, its background on lane 31, which is present. -/
def volMixed : Vol :=
  { vol0 with
    zones := tset vol0.zones 63 { zone12 with holder := some 39, cond := .hot, compOn := true, ambient := some 110, bgLane := some 31 }
    claims := tset vol0.claims 39 (some { owner := .live 31, priority := 14, mode := .join, stamp := 0,
                                          elems := [{ zone := 63, via := none, status := .held }] })
    align := { AlignBuffer.initial with out := { LaneFrame.silence with presence := 0x80000000 } } }

theorem test_hyp_LevelsRamp_targets :
    (st vol0).running = true ∧ vol0.atMark = true ∧ ({ vol0 with fclk := ⟨46, false, []⟩ }).atMark = false
    ∧ (vol0.zone 63).holder = none ∧ (volMixed.zone 63).holder = some 39 ∧ (volMixed.claim 39).map (·.priority) = some 14
    ∧ (vol0.zone 63).compOn = false ∧ (volMixed.zone 63).compOn = true ∧ (volMixed.zone 63).ambient = some 110
    ∧ (vol0.zone 63).bgLane = none ∧ (volMixed.zone 63).bgLane = some 31
    ∧ volMixed.align.out.presence.getLsbD 31 = true ∧ vol0.align.out.presence.getLsbD 31 = false
    ∧ (volMixed.zone 63).state ≠ .off ∧ 63 ∉ volMixed.group 31 ∧ (volKept.evac.state ≠ .normal ∧ 63 ∈ volKept.group 31)
    ∧ volMixed.exhaustedVoice = none := by decide +kernel

/-- Line 15, an EVAC_FULL line, is debounced ACTIVE in an alert. -/
def volHolding : Vol :=
  { volA with lines := tset vol0.lines 15 { Line.initial with fn := .evac .full, debounced := some true } }

theorem test_hyp_EvacRequests :
    ((st vol0).Reaches (.evacStart h0) h0 0 ∧ vol0.evac.state = .normal ∧ (st volA).Reaches (.evacStart h0) h0 0
      ∧ volA.evac.state ≠ .normal)
    ∧ ((st volA).Reaches (.evacEscalate h0) h0 0 ∧ volA.evac.state ≠ .evacuate)
    ∧ ((st { volA with evac := { Evac.initial with state := .evacuate } }).Reaches (.evacEscalate h0) h0 0)
    ∧ ((st volHolding).Reaches (.evacStop h0) h0 0 ∧ volHolding.lineHolds = true)
    ∧ ((st volA).Reaches (.evacStop h0) h0 0 ∧ volA.lineHolds = false) :=
  ⟨⟨test_reach _ _ _ rfl rfl, rfl, test_reach _ _ _ rfl rfl, by decide⟩, ⟨test_reach _ _ _ rfl rfl, by decide⟩,
    test_reach _ _ _ rfl rfl, ⟨test_reach _ _ _ rfl rfl, by decide +kernel⟩, ⟨test_reach _ _ _ rfl rfl, by decide +kernel⟩⟩

theorem test_hyp_EvacMarks :
    ((st { volA with evac := { volA.evac with timer := 2999 } }).AtMark .alert ∧ volA.evac.state = .alert
      ∧ volA.evac.duration * 1000 ≤ 2999 + 1)
    ∧ ((st (volVoice { Voice.initial with state := .playing, newList := some [.tone 3 1] })).AtMark .list
      ∧ ((volVoice { Voice.initial with state := .playing, newList := some [.tone 3 1] }).voice 7).newList = some [.tone 3 1])
    ∧ (∀ c, ListItem.clip c ∈ [ListItem.clip 1023, .tone 0 1] → (Nonvolatile.blank.clip c).state ≠ .valid) :=
  ⟨⟨test_mark _ _ _ rfl, rfl, by decide⟩, ⟨test_mark _ _ _ rfl, by decide +kernel⟩,
    by simp [Nonvolatile.clip, Nonvolatile.blank, Sparse.get, ClipEntry.absent]⟩

/-- In an alert voice 7 plays the evacuation request 9. -/
def volEvacPlays : Vol :=
  { volA with
    queue := { requests := [{ request0 with origin := .evac, priority := 14, state := .playing 7 }], nextNumber := 10, nextStamp := 1 }
    voices := tset vol0.voices 7 { Voice.initial with state := .playing, source := some .evacuation, request := some 9,
                                                      frags := [.tone 3 1], cur := 1, nextRead := 1, finished := true }
    evac := { volA.evac with request := some 9, list := some .alert } }

theorem test_hyp_EvacMarks_lists :
    ((volVoice { Voice.initial with state := .playing, newList := some [], newListWaits := true }).voice 7).newListWaits = true
    ∧ ((volVoice { Voice.initial with state := .playing, newList := some [] }).voice 7).newListWaits = false
    ∧ volEvacPlays.evac.state = .alert
    ∧ ((volEvacPlays.setEvac .evacuate .timer).suppressLow .blank).evac.request.isSome = true
    ∧ ((volEvacPlays.setEvac .evacuate .timer).suppressLow .blank).evac.list ≠ some .standIn
    ∧ ((volEvacPlays.setEvac .evacuate .timer).suppressLow .blank).storeStarting = false
    ∧ (volEvacPlays.voice 7).state = .playing ∧ (volEvacPlays.voice 7).source = some .evacuation
    ∧ (volEvacPlays.voice 7).finished = true := by decide +kernel

theorem test_storeFree (nv : Nonvolatile) : (st vol0 nv).StoreFree := ⟨rfl, rfl⟩

/-- A store whose bank A has no ERASED page. -/
def nvFull : Nonvolatile :=
  { Nonvolatile.blank with dir := [(0, { clipWriting with run := some (.a, 0, 2048) })] }

theorem test_hyp_ClipWriting :
    ((st vol0).Reaches (.clipOpen h0 1024 .a 1) h0 0 ∧ (st vol0).Reaches (.clipOpen h0 1023 .a 257) h0 0
      ∧ (st vol0).Reaches (.clipOpen h0 1023 .a 0) h0 0)
    ∧ ((st vol0 (nvClip clipWriting)).Reaches (.clipOpen h0 1023 .a 256) h0 0
      ∧ ((nvClip clipWriting).clip 1023).state ≠ .absent)
    ∧ ((st vol0 { Nonvolatile.blank with g2 := true }).Reaches (.clipOpen h0 1023 .r 1) h0 0
      ∧ (Nonvolatile.blank.clip 1023).state = .absent)
    ∧ ((st vol0 nvFull).Reaches (.clipOpen h0 1023 .a 256) h0 0 ∧ (st vol0 nvFull).bankOpen .a = true
      ∧ nvFull.allocate .a (vol0.fill .a) 256 = none)
    ∧ ((st vol0).Reaches (.clipOpen h0 1023 .r 256) h0 0 ∧ (st vol0).bankOpen .r = true
      ∧ Nonvolatile.blank.allocate .r (vol0.fill .r) 256 = some 0) :=
  ⟨⟨test_reach _ _ _ rfl rfl, test_reach _ _ _ rfl rfl, test_reach _ _ _ rfl rfl⟩,
    ⟨test_reach _ _ _ rfl rfl, by decide +kernel⟩, ⟨test_reach _ _ _ rfl rfl, by decide +kernel⟩,
    ⟨test_reach _ _ _ rfl rfl, by decide +kernel⟩, ⟨test_reach _ _ _ rfl rfl, by decide +kernel⟩⟩

/-- A page of data. -/
def page0 : List Byte := List.replicate 4096 1

theorem test_hyp_ClipWriting_pages :
    ((st vol0).Reaches (.pageWrite h0 1023 0 page0) h0 0 ∧ (Nonvolatile.blank.clip 1023).state ≠ .writing)
    ∧ ((st vol0 (nvClip clipWriting)).Reaches (.pageWrite h0 1023 0 page0) h0 0
      ∧ ((nvClip clipWriting).clip 1023).run = some (.a, 2047, 1) ∧ (st vol0 (nvClip clipWriting)).bankOpen .a = true
      ∧ 0 = ((nvClip clipWriting).clip 1023).written ∧ (nvClip clipWriting).page .a (2047 + 0) = .erased)
    ∧ (st vol0 (nvClip clipWriting)).Reaches (.pageWrite h0 1023 1 page0) h0 0
    ∧ ((st vol0 (nvClip { clipWriting with written := 1 })).Reaches (.pageWrite h0 1023 1 page0) h0 0
      ∧ 1 = ((nvClip { clipWriting with written := 1 }).clip 1023).written)
    ∧ ((st vol0 { nvClip { clipWriting with run := some (.r, 0, 1) } with g1 := true }).Reaches (.pageWrite h0 1023 0 page0) h0 0
      ∧ ({ nvClip { clipWriting with run := some (.r, 0, 1) } with g1 := true }).g1 = true) :=
  ⟨⟨test_reach _ _ _ rfl (by decide +kernel), by decide +kernel⟩, ⟨test_reach _ _ _ rfl (by decide +kernel), by decide +kernel⟩,
    test_reach _ _ _ rfl (by decide +kernel), ⟨test_reach _ _ _ rfl (by decide +kernel), by decide +kernel⟩,
    ⟨test_reach _ _ _ rfl (by decide +kernel), rfl⟩⟩

theorem test_hyp_ClipWriting_seals :
    ((st vol0 (nvClip clipWriting)).Reaches (.clipSeal h0 1023 2048 0) h0 0 ∧ ((nvClip clipWriting).clip 1023).written ≠ 1)
    ∧ ((st vol0 (nvClip { clipWriting with written := 1 })).Reaches (.clipSeal h0 1023 2049 0) h0 0 ∧ 1 * 2048 < 2049)
    ∧ ((st vol0 (nvClip { clipWriting with written := 1 })).Reaches (.clipSeal h0 1023 2048 0) h0 0
      ∧ ((nvClip { clipWriting with written := 1 }).clip 1023).written = 1
      ∧ (st vol0 (nvClip { clipWriting with written := 1 })).bankOpen .a = true)
    ∧ ((st { vol0 with mode := .normal } (nvClip { clipWriting with run := some (.r, 0, 1), written := 1 })).Reaches
        (.clipSeal h0 1023 2048 0) h0 0
      ∧ (st { vol0 with mode := .normal } (nvClip { clipWriting with run := some (.r, 0, 1), written := 1 })).bankOpen .r = false) :=
  ⟨⟨test_reach _ _ _ rfl rfl, by decide +kernel⟩, ⟨test_reach _ _ _ rfl rfl, by decide⟩,
    ⟨test_reach _ _ _ rfl rfl, by decide +kernel⟩, ⟨test_reach _ _ _ rfl rfl, by decide +kernel⟩⟩

theorem test_hyp_ClipRetiredAndGuards :
    ((st volA).Reaches (.clipOpen h0 1023 .a 256) h0 0 ∧ volA.evac.state ≠ .normal)
    ∧ ((st (volOp (.starting 0))).Reaches (.clipOpen h0 1023 .a 1) h0 0 ∧ (volOp (.starting 0)).storeStarting = true)
    ∧ ((st (volOp (.erasing .a 0 0))).Reaches (.clipOpen h0 1023 .a 1) h0 0 ∧ (volOp (.erasing .a 0 0)).storeInFlight = true)
    ∧ (st vol0).Reaches (.clipRetire h0 1024) h0 0
    ∧ ((st (volOp (.verifying 1023 0 0 0 false))).Reaches (.clipRetire h0 1023) h0 0
      ∧ (volOp (.verifying 1023 0 0 0 false)).storeClip = some 1023)
    ∧ ((st vol0).Reaches (.clipRetire h0 1023) h0 0 ∧ vol0.storeClip ≠ some 1023 ∧ vol0.storeStarting = false)
    ∧ ((nvClip { clipWriting with state := .retired }).clip 1023).state = .retired
    ∧ ((nvClip { clipWriting with state := .valid }).clip 1023).state = .valid
    ∧ (st vol0 (nvClip { clipWriting with state := .valid })).clipOpen 1023 = true
    ∧ (st { vol0 with mode := .normal } (nvClip { clipWriting with state := .valid, run := some (.r, 0, 1) })).clipOpen 1023 = false
    ∧ (st vol0).Reaches (.guardSet h0 .g2) h0 0
    ∧ ((st volA).Reaches (.guardClear h0 .g1) h0 0 ∧ (st { vol0 with mode := .normal }).Reaches (.guardClear h0 .g1) h0 0
      ∧ (st vol0).Reaches (.guardClear h0 .g1) h0 0) :=
  ⟨⟨test_reach _ _ _ rfl rfl, by decide⟩, ⟨test_reach _ _ _ rfl rfl, rfl⟩, ⟨test_reach _ _ _ rfl rfl, rfl⟩,
    test_reach _ _ _ rfl rfl, ⟨test_reach _ _ _ rfl rfl, rfl⟩, ⟨test_reach _ _ _ rfl rfl, by decide +kernel⟩,
    by decide +kernel, by decide +kernel, by decide +kernel, by decide +kernel, test_reach _ _ _ rfl rfl,
    test_reach _ _ _ rfl rfl, test_reach _ _ _ rfl rfl, test_reach _ _ _ rfl rfl⟩

theorem test_hyp_ClipWriting_allocation : nvFull.allocate .a 0 1 = none ∧ Nonvolatile.blank.allocate .a 0 1 = some 0
    ∧ 0 + 1 ≤ bankPages .a ∧ Nonvolatile.blank.fits .a 1 0 = true ∧ Nonvolatile.blank.fits .b 1 2047 = true := by decide +kernel

/-- The store outside an evacuation STARTING and erasing, and READY in one. -/
theorem test_hyp_StoreChecks :
    ((st vol0).Reaches (.pageWrite h0 1024 0 page0) h0 0 ∧ (st volA).Reaches (.pageWrite h0 1023 0 page0) h0 0
      ∧ (st (volOp (.starting 0))).Reaches (.pageWrite h0 1023 0 page0) h0 0)
    ∧ ((st vol0).Reaches (.clipSeal h0 1024 0 0) h0 0 ∧ (st volA).Reaches (.clipSeal h0 1023 0 0) h0 0
      ∧ (st (volOp (.erasing .a 0 0))).Reaches (.clipSeal h0 1023 0 0) h0 0)
    ∧ ((st volA).Reaches (.clipRetire h0 1023) h0 0 ∧ (st (volOp (.starting 0))).Reaches (.clipRetire h0 1023) h0 0)
    ∧ ((st volA).Reaches (.sectorEraseArm h0 .r 7) h0 0 ∧ (st (volOp (.starting 0))).Reaches (.sectorEraseArm h0 .r 7) h0 0
      ∧ 7 < bankSectors .r)
    ∧ ((st vol0).Reaches (.sectorEraseGo h0 .r 8) h0 0 ∧ (st volA).Reaches (.sectorEraseGo h0 .b 31) h0 0
      ∧ (st (volOp (.erasing .a 0 0))).Reaches (.sectorEraseGo h0 .b 31) h0 0)
    ∧ ((st (volOp (.starting 0))).Reaches (.storeAbort h0) h0 0 ∧ (st (volOp (.starting 0))).Reaches (.guardSet h0 .g1) h0 0
      ∧ (st (volOp (.starting 0))).Reaches (.guardClear h0 .g2) h0 0)
    ∧ volA.evac.state ≠ .normal ∧ (volOp (.starting 0)).evac.state = .normal ∧ (volOp (.starting 0)).storeStarting = true
    ∧ (volOp (.erasing .a 0 0)).storeInFlight = true :=
  ⟨⟨test_reach _ _ _ rfl (by decide +kernel), test_reach _ _ _ rfl (by decide +kernel),
      test_reach _ _ _ rfl (by decide +kernel)⟩,
    ⟨test_reach _ _ _ rfl rfl, test_reach _ _ _ rfl rfl, test_reach _ _ _ rfl rfl⟩,
    ⟨test_reach _ _ _ rfl rfl, test_reach _ _ _ rfl rfl⟩, ⟨test_reach _ _ _ rfl rfl, test_reach _ _ _ rfl rfl, by decide⟩,
    ⟨test_reach _ _ _ rfl rfl, test_reach _ _ _ rfl rfl, test_reach _ _ _ rfl rfl⟩,
    ⟨test_reach _ _ _ rfl rfl, test_reach _ _ _ rfl rfl, test_reach _ _ _ rfl rfl⟩, by decide, rfl, rfl, rfl⟩

/-- The erase arm is set for the last sector of bank B. -/
def volArmed : Vol := { vol0 with store := { vol0.store with eraseArm := some (.b, 31), abortArm := true } }

theorem test_hyp_EraseAndAbort :
    ((st vol0).Reaches (.sectorEraseArm h0 .r 8) h0 0 ∧ bankSectors .r ≤ 8)
    ∧ ((st { vol0 with mode := .normal }).Reaches (.sectorEraseArm h0 .r 7) h0 0
      ∧ (st { vol0 with mode := .normal }).bankOpen .r = false ∧ 7 < bankSectors .r)
    ∧ ((st vol0).Reaches (.sectorEraseArm h0 .b 31) h0 0 ∧ (st vol0).bankOpen .b = true)
    ∧ ((st vol0).Reaches (.sectorEraseGo h0 .b 31) h0 0 ∧ vol0.store.eraseArm ≠ some (.b, 31))
    ∧ ((st volArmed).Reaches (.sectorEraseGo h0 .b 31) h0 0 ∧ (st volArmed).StoreFree
      ∧ volArmed.store.eraseArm = some (.b, 31) ∧ ¬ SectorWanted (st volArmed) .b 31
      ∧ SectorWanted (st volArmed (nvClip { clipWriting with run := some (.b, 1984, 1) })) .b 31)
    ∧ ((st vol0).Reaches (.storeAbort h0) h0 0 ∧ vol0.store.abortArm = false)
    ∧ ((st volArmed).Reaches (.storeAbort h0) h0 0 ∧ volArmed.store.abortArm = true ∧ volArmed.store.op = .ready) :=
  ⟨⟨test_reach _ _ _ rfl rfl, by decide⟩, ⟨test_reach _ _ _ rfl rfl, by decide +kernel⟩, ⟨test_reach _ _ _ rfl rfl, rfl⟩,
    ⟨test_reach _ _ _ rfl rfl, by decide⟩,
    ⟨test_reach _ _ _ rfl rfl, ⟨rfl, rfl⟩, rfl, by simp [SectorWanted, st, Nonvolatile.blank],
      ⟨_, List.mem_singleton.mpr rfl, rfl, .inr (.inl rfl)⟩⟩,
    ⟨test_reach _ _ _ rfl rfl, rfl⟩, ⟨test_reach _ _ _ rfl rfl, rfl, rfl⟩⟩

theorem test_hyp_ProgrammeWrite :
    ((st vol0).Reaches (.programWrite h0 { programme0 with duration := 301 }) h0 0
      ∧ ({ programme0 with duration := 301 }).inRange = false)
    ∧ (st vol0).Reaches (.programWrite h0 { programme0 with alertList := [.clip 1023] }) h0 0
    ∧ ((nvClip { clipWriting with state := .valid, run := some (.r, 511, 1) }).clip 1023).state = .valid
    ∧ ((st vol0).Reaches (.programWrite h0 programme0) h0 0 ∧ programme0.inRange = true
      ∧ (∀ c, ListItem.clip c ∉ programme0.alertList ∧ ListItem.clip c ∉ programme0.evacList) ∧ (st vol0).StoreFree
      ∧ vol0.mode = .maintenance ∧ Nonvolatile.blank.g1 = false ∧ Nonvolatile.blank.g2 = false)
    ∧ (volOp (.programWrite .empty 19200)).store.op = .programWrite .empty (400 * 48)
    ∧ (heldWith (.programWrite .empty 0)).power = .held
    ∧ ({ heldWith (.programWrite .empty 0) with power := .releasing } : State).power = .releasing :=
  ⟨⟨test_reach _ _ _ rfl (by decide +kernel), by decide +kernel⟩, test_reach _ _ _ rfl (by decide +kernel), by decide +kernel,
    ⟨test_reach _ _ _ rfl (by decide +kernel), by decide +kernel, by simp [programme0], ⟨rfl, rfl⟩, rfl, rfl, rfl⟩, rfl, rfl, rfl⟩

theorem test_hyp_StoreCompletions : (st (volOp (.programming 1023 .b 2047 page0 96)) (nvClip clipWriting)).nv.wf = true
    ∧ (volOp (.programming 1023 .b 2047 page0 96)).store.op = .programming 1023 .b 2047 page0 96 ∧ page0.length = 4096
    ∧ (volOp (.erasing .r 7 48000)).store.op = .erasing .r 7 48000 ∧ Nonvolatile.blank.wf = true :=
  ⟨by decide +kernel, rfl, by decide +kernel, rfl, rfl⟩

/-- Voice 7 demands page 0 of clip 1023, whose read has lasted 1 ms. -/
def volRead : Vol :=
  { volVoice { Voice.initial with state := .cueing, frags := [.clip 1023 1], nextRead := 1, demand := some ⟨0, 1023, 0⟩ } with
    store := { vol0.store with read := some ⟨.voice 7, 1023, .a, 2047, 48⟩ } }

/-- A verify of clip 1023 whose only page has been read for 1 ms. -/
def volVerify : Vol :=
  { vol0 with store := { vol0.store with op := .verifying 1023 2048 0 0 false, read := some ⟨.verify, 1023, .a, 2047, 48⟩ } }

/-- The clip's page WRITTEN. -/
def nvWritten : Nonvolatile := (nvClip { clipWriting with written := 1 }).setPage .a 2047 .written

theorem test_hyp_ReadsCompleted : volRead.store.read = some ⟨.voice 7, 1023, .a, 2047, 48⟩
    ∧ (volRead.voice 7).demand = some ⟨0, 1023, 0⟩ ∧ nvWritten.page .a 2047 = .written
    ∧ Nonvolatile.blank.page .a 2047 ≠ .written ∧ 1023 ∉ volRead.store.damagedMarks
    ∧ volVerify.store.read = some ⟨.verify, 1023, .a, 2047, 48⟩
    ∧ volVerify.store.op = .verifying 1023 2048 0 0 false ∧ (nvWritten.clip 1023).run = some (.a, 2047, 1) := by decide +kernel

theorem test_hyp_ZoneRules :
    ({ zone12 with cond := .opened, normals := 1 }).normals + 1 < 3 ∧ 3 ≤ ({ zone12 with cond := .short, normals := 2 }).normals + 1
    ∧ ({ zone12 with holder := some 39 }).state = .held ∧ zone12.state = .quiet
    ∧ ({ vol0 with zones := tset (tset vol0.zones 0 { zone12 with fallback := some 63, extFault := true }) 63 zone12 }).substitute 0
      = some 63 := by decide +kernel

/-- Zones 0 to 3 in group 0: QUIET, FAULTED, OFF and HELD by claim 39 of priority 5. -/
def volZones : Vol :=
  { vol0 with
    zones := tset (tset (tset vol0.zones 0 zone12) 1 { zone12 with extFault := true }) 3 { zone12 with holder := some 39 }
    groups := tset (tset vol0.groups 0 [0, 1, 2, 3]) 1 [0, 2, 3]
    claims := tset vol0.claims 39 (some { owner := .voice 7, priority := 5, mode := .join, stamp := 0,
                                          elems := [{ zone := 3, via := none, status := .held }] }) }

/-- Claim 0 waits for zone 3, alone in group 2. -/
def volHeld : Vol :=
  { volZones with
    zones := tset volZones.zones 3 { zone12 with holder := some 39, waiters := [0] }
    groups := tset volZones.groups 2 [3]
    claims := tset volZones.claims 0 (some { owner := .voice 0, priority := 5, mode := .join, stamp := 1,
                                             elems := [{ zone := 3, via := none, status := .waiting }] }) }

theorem test_hyp_ClaimPlaced : volZones.group 0 ≠ [] ∧ (volZones.group 0).Nodup ∧ (∀ z ∈ volZones.group 0, z < 64)
    ∧ volZones.freeClaim = some 0 ∧ (volZones.zone 0).state = .quiet ∧ (volZones.zone 1).state = .faulted
    ∧ (volZones.zone 2).state = .off ∧ (volZones.zone 3).state = .held ∧ volZones.obtainableAt 6 3 = true
    ∧ volZones.obtainableAt 5 3 = false ∧ (∀ z ∈ volZones.group 1, (volZones.zone z).state ≠ .faulted)
    ∧ (∀ z ∈ volZones.group 1, (volZones.zone z).state ≠ .off → volZones.obtainableAt 6 z = true)
    ∧ (∀ z ∈ volHeld.group 2, volHeld.obtainableAt 5 z = false) ∧ volZones.stampCounter < 4294967295 := by decide +kernel

/-- A placement: JOIN takes the QUIET zone and waits for the HELD one; WHOLE waits for both. -/
theorem test_claim_placed :
    ((volZones.placeClaim (.voice 0) 1 5 .join).2.zone 0).holder = some 0
    ∧ ((volZones.placeClaim (.voice 0) 1 5 .join).2.zone 3).waiters = [0]
    ∧ ((volZones.placeClaim (.voice 0) 1 5 .whole).2.zone 0).holder = none
    ∧ ((volZones.placeClaim (.voice 0) 1 5 .whole).2.zone 0).waiters = [0] := by decide +kernel

theorem test_hyp_ClaimReleased :
    ((volHeld.claim 39).map (·.heldZones)) = some [3] ∧ ((volHeld.claim 0).map (·.heldZones)) = some []
    ∧ ((volHeld.claim 0).map (·.waitingZones)) = some [3] ∧ ((volHeld.claim 0).map (·.mode)) = some .join
    ∧ (volHeld.zone 3).state = .held ∧ (volHeld.zone 3).waiters = [0]
    ∧ ((volHeld.claim 0).bind (·.statusOf 3)) = some .waiting ∧ (volZones.zone 3).waiters = []
    ∧ ((volHeld.releaseClaim 39).zone 3).holder = some 0 := by decide +kernel

theorem test_hyp_ZoneLost : (volHeld.zone 3).holder = some 39 ∧ 0 ∈ (volHeld.zone 3).waiters
    ∧ (∀ c < 40, (volHeld.zone 3).holder = some c ∨ c ∈ (volHeld.zone 3).waiters → (volHeld.claim c).isSome = true)
    ∧ ((volHeld.claim 39).map (·.hasZone 3)) = some true ∧ (volHeld.zone 0).holder = none ∧ (volHeld.zone 0).waiters = []
    ∧ ((volHeld.withdrawZone 3).claim 0).bind (·.statusOf 3) = some (.missed .withdrawn) := by decide +kernel

/-- Claim 0 has missed zone 0 through a fault that is over. -/
def volMissed : Vol :=
  { volZones with
    claims := tset volZones.claims 0 (some { owner := .voice 0, priority := 5, mode := .join, stamp := 1,
                                             elems := [{ zone := 0, via := none, status := .missed .fault }] }) }

theorem test_hyp_ZoneRecovered : (volMissed.zone 0).state = .quiet ∧ (volMissed.zone 0).waiters = []
    ∧ ((volMissed.claim 0).bind (·.statusOf 0)) = some (.missed .fault) ∧ volMissed.rejoiners 0 = [0]
    ∧ volZones.rejoiners 0 = [] ∧ ((volMissed.recoverZone 0).zone 0).holder = some 0 := by decide +kernel

theorem test_hyp_ZoneChangeHanded : ({ zone12 with enabled := false }).state = .off
    ∧ ({ zone12 with extFault := true }).state = .faulted ∧ ({ zone12 with extFault := false }).state = .quiet
    ∧ (volZones.zone 3).state = .held ∧ (volZones.zone 1).state = .faulted := by decide +kernel

/-- A report of HOT from slot 2. -/
def report0 : ReportMessage := { cls := 3, kind := 78, slot := 2, condition := 1, ambient := some 110 }

theorem test_hyp_ZoneReports :
    ({ report0 with cls := 1 }).cls ≠ 3 ∧ ({ report0 with kind := 77 }).kind ≠ 78 ∧ 16 ≤ ({ report0 with slot := 16 }).slot
    ∧ 4 ≤ ({ report0 with condition := 4 }).condition ∧ 110 < 111 ∧ (∀ z < 64, (vol0.zone z).placement ≠ some (1, 2))
    ∧ (report0.condition, LineCond.hot) ∈ [(0, LineCond.normal), (1, .hot), (2, .opened), (3, .short)]
    ∧ (volPlaced.zone 9).placement = some (1, 2) ∧ (∀ y < 9, (volPlaced.zone y).placement ≠ some (1, 2)) := by decide +kernel

theorem test_hyp_ZoneReports_silence :
    (st { vol0 with zones := tset vol0.zones 63 { zone12 with silence := 4999 } }).AtMark (.silence 63)
    ∧ (({ vol0 with zones := tset vol0.zones 63 { zone12 with silence := 4999 } }).zone 63).silence = 4999 :=
  ⟨test_mark _ _ _ rfl, by decide +kernel⟩

theorem test_hyp_SecondAdvances :
    (st { vol0 with clock := ⟨true, 4294967294, 0, 999⟩ }).AtMark .second
    ∧ (st { vol0 with clock := ⟨true, 4294967295, 0, 999⟩ }).AtMark .second := ⟨test_mark _ _ _ rfl, test_mark _ _ _ rfl⟩

theorem test_hyp_ContactLinesChange :
    (st { vol0 with lines := tset vol0.lines 15 { Line.initial with debounced := some true, stand := 10 } }).AtMark (.line 15)
    ∧ (({ vol0 with lines := tset vol0.lines 15 { Line.initial with debounced := some true, stand := 10 } }).line 15).debounce ≤ 10
    ∧ (({ vol0 with lines := tset vol0.lines 15 { Line.initial with stand := 10 } }).line 15).debounced = none
    ∧ Polarity.activeHigh.reading false = Polarity.activeHigh.reading (vol0.line 15).raw
    ∧ (vol0.line 15).fn = .plain ∧ (vol0.line 15).report = .none
    ∧ ({ Line.initial with report := .rising }).report = (if true then EdgeReport.rising else .falling) :=
  ⟨test_mark _ _ _ rfl, by decide +kernel⟩

/-- UP LOCKED. -/
def portLocked : Port := { Port.initial with state := .locked }

/-- `vol0` with UP LOCKED. -/
def volLocked : Vol := { vol0 with ports := tset vol0.ports 0 portLocked }

theorem test_hyp_EdgesReported : ({ Line.initial with report := .falling }).report = (if false then EdgeReport.rising else .falling)
    ∧ ({ Line.initial with report := .both }).report = .both
    ∧ ((vol0.riseAct .blank 15 (.platformWarn 32)).1 ≠ .none) ∧ ((vol0.riseAct .blank 15 .plain).1 = .none) := by decide +kernel

theorem test_hyp_TalkLines : (volLive source0).source 31 ≠ none ∧ vol0.source 31 = none ∧ vol0.group 31 = []
    ∧ volGroup.group 31 ≠ [] ∧ (volGroup.port 0).state ≠ .locked ∧ (volLocked.port 0).state = .locked
    ∧ ({ volLocked with groups := tset vol0.groups 31 [63] }.placeClaim (.live 31) 31 13 .join).1 = some 0
    ∧ (volLive { source0 with opener := .line 15 }).source 31 = some { source0 with opener := .line 15 }
    ∧ source0.opener ≠ .line 15 := by decide +kernel

/-- A call ARRIVE in APPROACHING is the one a TRAIN_PRESENT line marks; one held is not. -/
theorem test_hyp_PlatformLines : ArrivesAt 32 call0 ∧ (volCall call0).call 255 = some call0
    ∧ ¬ ArrivesAt 32 { call0 with held := some (.atPlatform, 0) } ∧ (volCall call0).arrivingCall 32 = some 255
    ∧ vol0.arrivingCall 32 = none
    ∧ ({ vol0 with lines := tset vol0.lines 15 { Line.initial with fn := .trainPresent 32, debounced := some true } }).trainLevel 32
      = some true
    ∧ (volBoarding.platform 1).occupant = some 3 ∧ (vol0.platform 32).occupant = none ∧ (vol0.platform 32).warning = none
    ∧ volTemplate.template 127 = some template0 ∧ vol0.template 127 = none :=
  ⟨⟨rfl, rfl, rfl, rfl⟩, by decide +kernel, fun h => by simp [ArrivesAt] at h, by decide +kernel⟩

/-- A DEPART call in FINAL at platform 32. -/
def volDoors : Vol :=
  { volCall { call0 with kind := .depart, state := .final } with
    platforms := tset vol0.platforms 31 { Platform.initial with occupant := some 255, warning := some 127 } }

theorem test_hyp_PlatformLines_doors : (volDoors.platform 32).occupant = some 255
    ∧ volDoors.call 255 = some { call0 with kind := .depart, state := .final } ∧ (volDoors.platform 32).warning = some 127 := by
  decide +kernel

theorem test_hyp_EvacLines : vol0.evac.state = .normal ∧ volA.evac.state ≠ .normal ∧ volA.evac.state ≠ .evacuate
    ∧ volA.lineHolds = false ∧ volHolding.lineHolds = true ∧ vol0.evac.lane = none ∧ volA.evac.lane = some 4
    ∧ volA.group 31 = [] ∧ volGroupA.group 31 ≠ [] ∧ volGroupA.source 4 = some source0 ∧ (volGroupA.port 0).state ≠ .locked
    ∧ (({ volGroupA with ports := volLocked.ports }).port 0).state = .locked
    ∧ ((({ volGroupA with ports := volLocked.ports }).closeSource 4 .stopped).placeClaim (.live 4) 31 15 .join).1 = some 0
    ∧ ({ volA with live := tset vol0.live 4 (some { source0 with opener := .evacuation (some 15) }) }).source 4
      = some { source0 with opener := .evacuation (some 15) } := by decide +kernel

theorem test_hyp_SettlingsAct : ({ Line.initial with fn := .trainPresent 32 }).fn = .trainPresent 32
    ∧ ({ Line.initial with fn := .zoneFault 63 }).fn = .zoneFault 63 ∧ (volEvacLine.line 15).fn = .evac .full
    ∧ (vol0.line 15).fn = .plain := by decide +kernel

/-- Line 15 is an OUTPUT line of generator 3, inverted, under this force. -/
def volOut (src : OutSource) (force : Force) : Vol :=
  { vol0 with lines := tset vol0.lines 15 { Line.initial with fn := .output src 3 true force } }

theorem test_hyp_OutputsShown : (st (volOut .evacNotNormal .none)).running = true ∧ (volOut .evacNotNormal .none).atMark = true
    ∧ ((volOut .evacNotNormal .on).line 15).fn = .output .evacNotNormal 3 true .on
    ∧ (vol0.line 15).fn.isOutput = false ∧ (LineFn.output .alertRaised 0 true .none).isOutput = true
    ∧ Polarity.activeLow ≠ .activeHigh := by decide +kernel

/-- A terminal is driven by polarity, an input line's not at all. -/
theorem test_terminal : ({ Line.initial with fn := .output .alertRaised 0 false .none, shown := true }).terminal = some true
    ∧ ({ Line.initial with fn := .output .alertRaised 0 false .none, shown := true, polarity := .activeLow }).terminal = some false
    ∧ Line.initial.terminal = none := by decide

/-- Voice 7 serves `request0`. -/
def volServing (x : Voice) : Vol :=
  { volVoice { x with request := some 9 } with
    queue := { requests := [{ request0 with state := .playing 7, cancelPending := true }], nextNumber := 10, nextStamp := 1 }
    claims := tset vol0.claims 39 (some { owner := .voice 7, priority := 5, mode := .join, stamp := 0,
                                          elems := [{ zone := 63, via := none, status := .held }] }) }

theorem test_hyp_VoiceMarks :
    (st (volServing { Voice.initial with state := .cueing, claim := some 39 })).AtMark (.voice 7)
    ∧ ((volServing Voice.initial).claim 39).map (·.state) = some .active
    ∧ ((volServing { Voice.initial with state := .cueing, claim := some 39 }).voice 7).hasPage = true
    ∧ (volVoice { Voice.initial with state := .stalled }).voice 7 = { Voice.initial with state := .stalled }
    ∧ ((volServing { Voice.initial with state := .playing, source := some .template, finished := true }).voice 7).finished = true
    ∧ ((volServing { Voice.initial with state := .playing, source := some .template, finished := true }).voice 7).source = some .template
    ∧ ((volServing { Voice.initial with state := .stalled }).request 9).map (·.cancelPending) = some true :=
  ⟨test_mark _ _ _ rfl, by decide +kernel⟩

theorem test_hyp_PortStates : (vol0.port 4).state = .down
    ∧ (({ vol0 with ports := tset vol0.ports 4 { Port.initial with state := .hunt } }).port 4).state = .hunt
    ∧ (({ vol0 with ports := tset vol0.ports 4 { Port.initial with state := .verify } }).port 4).state = .verify
    ∧ (({ vol0 with ports := tset vol0.ports 0 { Port.initial with state := .locked } }).port 0).state = .locked
    ∧ vol0.engine.notices.length < 24 := by decide +kernel

theorem test_hyp_HeaderErrorsCorrected : (List.replicate 8 true).length = 8 ∧ (List.replicate 40 false).length = 40 := by
  decide

/-- An upstream frame of index 1 with both checks right. -/
def frame0 : UpFrame :=
  { sync := 0xE4B1, index := 1, valid := true, spare := false, presence := 1, slots := Vector.replicate 32 7, byte := 9,
    headerCheck := headerCheck (headBits 1 true false ++ presenceBits 1)
    slotCheck := slotCheck (List.replicate 32 7) 9 }

theorem test_hyp_FramesReceived : frame0.sync = Config.syncWord
    ∧ frame0.headerCheck = headerCheck (headBits frame0.index.toNat frame0.valid frame0.spare ++ presenceBits frame0.presence)
    ∧ Reassembly.ready.take true 9 = (.nothing, .run [9]) ∧ (Reassembly.run [9]).take false 0 = (.discard, .ready) := by
  decide +kernel

/-- UP in VERIFY after two frames that agree. -/
def portVerify : Port := { Port.initial with state := .verify, agreed := 2, index := 0 }

theorem test_hyp_FramesReceived_corrected :
    decodeHeader (headBits 1 true false ++ presenceBits 1) (headerCheck (headBits 1 true false ++ presenceBits 1) ^^^ 1)
      = .corrected (headBits 1 true false ++ presenceBits 1)
    ∧ decodeHeader (headBits 17 true false) (headerCheck (headBits 17 true false) ^^^ 1) = .corrected (headBits 17 true false)
    ∧ decodeHeader (headBits 1 true false ++ presenceBits 1) (headerCheck (headBits 1 true false ++ presenceBits 1) ^^^ 3)
      = .uncorrectable
    ∧ decodeHeader (headBits 17 true false) (headerCheck (headBits 17 true false) ^^^ 3) = .uncorrectable := by decide +kernel

theorem test_hyp_FramesReceived_states : ArrivesOn (.upstreamFrame frame0) 0 0xE4B1 1
    ∧ (∃ f : NodeFrame, ArrivesOn (.nodeReturnFrame 3 f) 4 0xE4B0 47)
    ∧ portVerify.state = .verify ∧ portVerify.agreed + 1 = 3 ∧ (1 : Nat) = (portVerify.index + 1) % 48
    ∧ ({ portVerify with agreed := 0 }).agreed + 1 ≠ 3 ∧ ({ portLocked with badSyncs := 3 }).badSyncs + 1 = 4
    ∧ ({ portLocked with badSyncs := 2 }).badSyncs + 1 ≠ 4 ∧ frame0.sync = 0xE4B1#16 ∧ Port.initial.state = .down :=
  ⟨.inl ⟨frame0, rfl, rfl, rfl, rfl⟩,
    ⟨{ sync := 0xE4B0, index := 47, valid := false, spare := false, byte := 0, headerCheck := 0, slotCheck := 0 },
      .inr ⟨3, _, rfl, rfl, rfl, rfl⟩⟩, by decide +kernel⟩

/-- Voice 7 plays the first sample of clip 1023, whose page is in its buffer. -/
def voiceClip : Voice :=
  { Voice.initial with state := .playing, frags := [.clip 1023 1], buffer := [{ ref := ⟨0, 1023, 0⟩, readable := true }] }

theorem test_hyp_FrameProduced_contents : (st vol0).vol.readDue = false ∧ (st vol0).vol.store.op.overdue = false
    ∧ ({ vol0 with fclk := ⟨46, false, []⟩ }).atMark = false ∧ voiceClip.state = .playing ∧ voiceClip.finished = false
    ∧ voiceClip.frags[voiceClip.cur]? = some (.clip 1023 1) ∧ (nvWritten.clip 1023).run = some (.a, 2047, 1)
    ∧ voiceClip.buffer.head?.map (·.ref) = some ⟨0, 1023, 0⟩
    ∧ (∀ z < 64, (vol0.zone z).placement ≠ some (1, 2)) ∧ (volPlaced.zone 9).placement = some (1, 2)
    ∧ ({ eng with sending := some ⟨[7], none⟩ }).sending = some ⟨[7], none⟩ ∧ vol0.engine.sending = none
    ∧ (vol0.port 0).state ≠ .locked ∧ volMixed.exhaustedVoice = none := by decide +kernel

theorem test_hyp_FrameProduced : (st vol0).running = true ∧ (st vol0).vol.atMark = true
    ∧ ({ vol0 with fclk := { count := 46, fresh := false, done := [] } }).atMark = false
    ∧ vol0.taken (.gen 3) = false ∧ (volCall call0).clock.marks < 999 := by decide +kernel

/-! ### The hypotheses of the clauses on tables, calls and the queue -/

theorem test_hyp_StatusReport_values : vol0.statusReport .blank = vol0.statusReport .blank ∧ vol0.ports.size = 5
    ∧ (volOp (.programWrite .empty 0)).store.op = .programWrite .empty 0
    ∧ (volOp (.erasing .r 7 0)).store.op = .erasing .r 7 0 ∧ Nonvolatile.blank.wf = true := by decide +kernel

/-- Zone 63 keeps its placement in a write of its record. -/
theorem test_hyp_ZoneTable_kept : (st volKept).Reaches (.tableWriteZone h0 { record0 with duck := 0 }) h0 0
    ∧ (volKept.zone 63).placement = record0.placement ∧ PassesResident volKept { record0 with duck := 0 } :=
  ⟨test_reach _ _ _ rfl rfl, by decide +kernel, .inl rfl⟩

theorem test_hyp_RecordsRead : (63 < 64 ∧ 32 ≤ 32 ∧ 15 < 16 ∧ 127 < 128) ∧ volTemplate.template 127 = some template0
    ∧ volTemplate.template 0 = none ∧ 1 + 64 ≤ 1 + 100 ∧ 0 + 24 ≤ 0 + 24 := by decide +kernel

/-- A PLANNED DEPART call and an ARRIVE call in each state; none but the held one lacks a due time. -/
theorem test_hyp_CallLoaded_due : ({ call0 with kind := .depart, state := .planned }).held = none
    ∧ ({ call0 with state := .gone, gone := some 4000 }).gone = some 4000
    ∧ ({ call0 with state := .atPlatform, arrival := some 4000 }).arrival = some 4000
    ∧ ({ call0 with held := some (.atPlatform, 4000) }).dueTime .initial = none := by decide +kernel

theorem test_hyp_CallLoaded_order : ([⟨5, 255⟩, ⟨6, 0⟩, ⟨6, 1⟩] : List DueEntry).Pairwise DueBefore := by
  simp [DueBefore]

/-- The due list of `volCall call0` and an entry of it that has come. -/
def volComes : Vol := { volCall { call0 with kind := .depart, state := .final } with mode := .normal, due := [⟨4000, 255⟩] }

theorem test_hyp_SecondAdvances_walk : ComesDue volComes (fun _ => true) ⟨4000, 255⟩ ∧ volComes.clock.isSet = true
    ∧ volComes.mode = .normal ∧ Walks .blank (fun s => decide (s = 0)) 0 volComes volComes :=
  ⟨⟨by decide +kernel, by decide +kernel⟩, rfl, rfl, fun ⟨e, h, _⟩ => by simp [volComes] at h, rfl⟩

/-- A BOARDING call takes an expected time, its own platform repeated, and another that is free. -/
theorem test_hyp_CallUpdated_boarding :
    (st volBoarding).Reaches (.callUpdate h0 255 (.value 6000) (.value 32)) h0 0
    ∧ updateInRange 255 (.value 6000) (.value 32) = true ∧ (Carried.value 32 : Carried Nat) ≠ .cleared
    ∧ (volBoarding.call 255).bind (·.platform) = some 32 ∧ (volBoarding.platform 2).occupant = none
    ∧ (volBoarding.updatePlatform .blank 255 (some 32)) = volBoarding :=
  ⟨test_reach _ _ _ rfl rfl, by decide +kernel⟩

/-- Expected times that do and do not fire DELAY. -/
theorem test_hyp_CallUpdated_delay : ({ call0 with expected := some 5060 }).delay = 1 ∧ call0.delay = 0
    ∧ (Profile.initial.delayThreshold ≤ 1 ∨ 1 < Profile.initial.delayThreshold)
    ∧ (volReq { request0 with state := .voiced 0 }).request 9 = some { request0 with state := .voiced 0 } := by decide +kernel

/-- Two calls held on platform 32. -/
def volHeldCalls : Vol :=
  { volCall { call0 with held := some (.atPlatform, 3999) } with
    calls := tset (volCall { call0 with held := some (.atPlatform, 3999) }).calls 0
      (some { call0 with kind := .depart, state := .planned, held := some (.boarding, 4000) }) }

theorem test_hyp_CallMarks_offer : HeldOn volHeldCalls 32 255 .atPlatform 3999 ∧ HeldOn volHeldCalls 32 0 .boarding 4000
    ∧ ((volHeldCalls.offerPlatform .blank 32).platform 32).occupant = some 255
    ∧ ((volHeldCalls.offerPlatform .blank 32).platform 32).conflict = true :=
  ⟨⟨{ call0 with held := some (.atPlatform, 3999) }, by decide +kernel, rfl, rfl⟩,
    ⟨{ call0 with kind := .depart, state := .planned, held := some (.boarding, 4000) }, by decide +kernel, rfl, rfl⟩,
    by decide +kernel, by decide +kernel⟩

theorem test_hyp_CallEnds_freed : (volDoors.call 255).bind (·.platform) = some 32 ∧ (volDoors.platform 32).occupant = some 255
    ∧ (volDoors.call 255).bind (·.held) = none ∧ (volBusy.platform 32).occupant ≠ some 255
    ∧ ((volDoors.enterGone .blank 255 false).platform 32).occupant = none := by decide +kernel

/-- Profile 15 names template 127 for every trigger. -/
def volTriggers : Vol :=
  { volCall call0 with
    profiles := tset vol0.profiles 15 { Profile.initial with templates := Vector.replicate 7 (some 127) }
    templates := volTemplate.templates }

theorem test_hyp_DueEntryTaken_triggers : (volTriggers.profile 15).templateFor .approach = some 127
    ∧ volTriggers.template 127 = some template0 ∧ ((volCall call0).profile 15).templateFor .approach = none
    ∧ volTriggers.evac.state ≠ .evacuate ∧ (volTriggers.fireTrigger .blank 255 .approach false).1 = true := by decide +kernel

/-- 64 requests of priority 13, and 60 of priority 5. -/
def volCrowd (n p : Nat) : Vol :=
  { vol0 with queue := { requests := List.replicate n { request0 with priority := p }, nextNumber := 10, nextStamp := 1 } }

theorem test_hyp_Announced_room : HasRoom vol0 5 ∧ HasRoom (volCrowd 60 5) 12 ∧ ¬ HasRoom (volCrowd 60 5) 11
    ∧ ¬ HasRoom (volCrowd 64 13) 14 ∧ CanYield (volCrowd 60 5) 11 request0 ∧ ¬ CanYield (volCrowd 60 5) 5 request0 := by
  refine ⟨?_, ?_, ?_, ?_, ?_, ?_⟩ <;> simp [HasRoom, CanYield, volCrowd, vol0, Vol.powerOn, RequestQueue.initial, request0]

theorem test_hyp_Announced_numbers : QueueDistinct (volReq request0)
    ∧ (∀ j < 1, ∃ x ∈ ({ volReq request0 with queue := { (volReq request0).queue with nextNumber := 9 } }).queue.requests,
        x.number = (9 + j) % 65536)
    ∧ ({ volReq request0 with queue := { (volReq request0).queue with nextStamp := 4294967295 } }.numberRequest request0).2.queue.nextStamp
      = 2 := by
  refine ⟨by simp [QueueDistinct, volReq, request0], ?_, by decide +kernel⟩
  simp [volReq, request0]

theorem test_hyp_Announced_moment :
    SameMoment { request0 with origin := .timetable, call := some (255, .final) }
      { request0 with origin := .timetable, call := some (255, .final), stamp := 1 }
    ∧ SameMoment { request0 with origin := .contact, platform := some 32 } { request0 with origin := .contact, platform := some 32 }
    ∧ ¬ SameMoment request0 request0 ∧ (volCrowd 64 13).makeRoom 13 = none ∧ (vol0.makeRoom 5).isSome = true
    ∧ ({ request0 with priority := 6 }).before request0 = true ∧ request0.before request0 = false
    ∧ (volReq { request0 with state := .playing 7 }).request 9 = some { request0 with state := .playing 7 } :=
  ⟨.inl ⟨rfl, rfl, _, rfl, rfl⟩, .inr ⟨rfl, rfl, rfl⟩, by simp [SameMoment, request0], by decide +kernel, by decide +kernel,
    by decide +kernel, by decide +kernel, by decide +kernel⟩

theorem test_hyp_QueueEvents_handOut : GivenVoice (volReq { request0 with state := .ready }) { request0 with state := .ready } 0
    ∧ GivenVoice (volReq { request0 with state := .ready, origin := .evac }) { request0 with state := .ready, origin := .evac } 7
    ∧ HandsOut .blank 0 vol0 vol0 := by
  refine ⟨⟨by decide +kernel, by decide +kernel, fun h => by simp [request0] at h, fun _ => by simp⟩,
    ⟨by decide +kernel, by decide +kernel, fun _ => rfl, fun h => by simp at h⟩, fun r v h => ?_, rfl⟩
  simp [GivenVoice, vol0, Vol.powerOn, RequestQueue.initial] at h

theorem test_hyp_QueueEvents_settled : EndsAlso (volReq request0) request0 none
    ∧ EndsAlso (volReq request0) { request0 with finish := some .withdrawn } (some .withdrawn)
    ∧ Overtaken (volReq { request0 with origin := .contact, platform := some 1 })
      { request0 with origin := .contact, platform := some 1, number := 8 }
    ∧ (volReq { request0 with repeatsLeft := some 1 }).request 9 = some { request0 with repeatsLeft := some 1 } := by
  refine ⟨?_, ?_, ?_, by decide +kernel⟩
  · simp [EndsAlso, Overtaken, SameMoment, volReq, request0, vol0, Vol.powerOn, Evac.initial]
  · simp [EndsAlso]
  · exact ⟨_, List.mem_singleton.mpr rfl, by decide, rfl, .inr ⟨rfl, rfl, rfl⟩⟩

/-! ### The hypotheses of the clauses on frames, voices, reads and zones -/

theorem test_hyp_LevelsRamp_part : (st vol0).running = true ∧ (st vol0).vol.atMark = true
    ∧ ((beforeFrame (st volMixed) .good).vol.giveLanes.atLevels .blank 0).exhaustedVoice = none
    ∧ (((beforeFrame (st volMixed) .good).vol.giveLanes.atLevels .blank 0).zone 63).holder = some 39 := by decide +kernel

theorem test_hyp_FrameProduced_part :
    (((beforeFrame (st volMixed) .good).vol.giveLanes.atSamples .blank 0).voiceFrames .blank).1 = List.replicate 8 0
    ∧ ((((beforeFrame (st volMixed) .good).vol.giveLanes.atSamples .blank 0).voiceFrames .blank).2.zone 63).holder = some 39
    ∧ ((beforeFrame (st (volOut .evacNotNormal .on)) .good).vol.giveLanes.atOutputs .blank 0).line 15
      = (volOut .evacNotNormal .on).line 15 := by decide +kernel

theorem test_hyp_FrameProduced_marks : (volKept.zone 63).enabled = true ∧ (volKept.zone 63).placement ≠ none
    ∧ (volKept.zone 63).silence < 4999 ∧ 5000 ≤ ({ zone12 with silence := 5000 }).silence
    ∧ volA.evac.timer + 1 < volA.evac.duration * 1000 ∧ 3 * 1000 ≤ 2999 + 1
    ∧ (volLive source0).source 31 = some source0 ∧ 1 * 1000 ≤ source0.talkTime + 1
    ∧ 998 + 1 < source0.limit * 1000 ∧ source0.absence + 1 = 2000
    ∧ (volOut .evacNotNormal .on).line 15 ≠ .initial ∧ (Polarity.activeHigh.reading true) ≠ false ∧ 9 < Line.initial.debounce
    ∧ Line.initial.debounce ≤ 10 ∧ vol0.taken .second = false ∧ vol0.clock.isSet = false ∧ (volCall call0).clock.isSet = true
    ∧ ({ vol0 with fclk := ⟨47, false, [.second]⟩ }).taken .second = true := by decide +kernel

theorem test_hyp_FrameProduced_buffer : AlignBuffer.initial.frames.length < 2 * AlignBuffer.initial.delay
    ∧ 2 * ({ AlignBuffer.initial with delay := 8, frames := List.replicate 16 .silence }).delay
      ≤ ({ AlignBuffer.initial with delay := 8, frames := List.replicate 16 .silence }).frames.length
    ∧ ({ AlignBuffer.initial with state := .passing }).give.1 = true
    ∧ ({ AlignBuffer.initial with state := .passing, frames := [.silence] }).give.1 = false ∧ AlignBuffer.initial.state = .silent := by
  decide +kernel

/-- The header of a message without fields. -/
def helloRun : List Byte := [5, 1, 1, 1, 1, 2, 0, 0]

/-- A run of ten bytes passes; its header alone does not. -/
theorem test_hyp_FramesReceived_runs : RunPasses (helloRun ++ two (crc16 helloRun)) ∧ ¬ RunPasses helloRun
    ∧ [(9 : Byte)].length < 4170 ∧ 4170 ≤ (List.replicate 4170 (0 : Byte)).length := by
  refine ⟨⟨by decide +kernel, by decide +kernel, by decide +kernel, by decide +kernel, by decide +kernel⟩, fun h => ?_, by decide,
    by rw [List.length_replicate]⟩
  exact absurd h.1 (by decide)

theorem test_hyp_VoiceMarks_speech : volTemplate.template 127 = some template0
    ∧ (volCall call0).call 255 = some call0 ∧ (volDoors.platform 32).occupant = some 255 ∧ (vol0.platform 32).occupant = none
    ∧ ((86399 : Nat) : Int) = (((86399 : Nat) : Int) - (vol0.clock.dayBase : Int)) % 86400
    ∧ (nvClip { clipWriting with state := .valid, length := some 0 }).clip 1023
      = { clipWriting with state := .valid, length := some 0 }
    ∧ ((nvClip { clipWriting with state := .valid, length := some 1 }).clip 1023).length = some 1
    ∧ ((Nonvolatile.blank).clip 1023).state ≠ .valid := by decide +kernel

theorem test_hyp_VoiceMarks_begun :
    (vol0.expandTemplate .blank request0).1 = [] ∧ (volTemplate.expandTemplate .blank { request0 with template := some 127 }).1 ≠ []
    ∧ volTemplate.targetGroup { request0 with template := some 127 } = some 0 ∧ volTemplate.group 0 = []
    ∧ volGroup.targetGroup { request0 with override := some 31 } = some 31 ∧ volGroup.group 31 ≠ []
    ∧ (volGroup.placeClaim (.voice 7) 31 5 .join).1 = some 0 ∧ vol0.group 31 = [] := by decide +kernel

theorem test_hyp_VoiceMarks_released : (∃ n, Fragment.clip 1023 n ∈ voiceClip.frags) ∧ Sparse.wf 0 vol0.store.uses = true
    ∧ ((volServing { Voice.initial with claim := some 39 }).voice 7).claim = some 39 ∧ (vol0.voice 7).claim = none
    ∧ volRead.store.read.map (·.user) = some (.voice 7) ∧ vol0.store.read = none :=
  ⟨⟨1, by decide⟩, by decide +kernel⟩

theorem test_hyp_VoiceMarks_frames : PageAtHand voiceClip ∧ ¬ PageAtHand { voiceClip with buffer := [] }
    ∧ voiceClip.frags[voiceClip.cur]? = some (.clip 1023 1) ∧ voiceClip.pos + 1 < (Fragment.clip 1023 1).frames
    ∧ (Fragment.clip 1023 1).frames ≤ ({ voiceClip with pos := 2 }).pos + 1
    ∧ (readOrder [.clip 1023 2049])[1]? = some ⟨0, 1023, 1⟩ ∧ (readOrder voiceClip.frags)[1]? = none
    ∧ Voice.initial.state = .idle := by
  refine ⟨fun c n h => ?_, fun h => ?_, by decide +kernel⟩
  · simp [voiceClip, Voice.initial] at h
    exact ⟨_, _, rfl, by simp [h.1, voiceClip, Voice.initial]⟩
  · obtain ⟨q, r, hq, _⟩ := h 1023 1 rfl
    simp at hq

theorem test_hyp_ReadsCompleted_verify : ReadCounted vol0 ⟨.verify, 1023, .a, 2047, 48⟩ .good true
      { vol0 with store := { vol0.store with read := none } }
    ∧ (nvClip clipWriting).page .a 2047 ≠ .written ∧ nvWritten.page .a 2047 = .written
    ∧ (volOp (.verifying 1023 2048 0 0 true)).store.op = .verifying 1023 2048 0 0 true ∧ 0 + 1 < 2
    ∧ (vol0.voice 7).demand = none ∧ (nvWritten.clip 1023).run = some (.a, 2047, 1) :=
  ⟨⟨fun _ _ => rfl, fun _ h => by simp at h, fun h => by simp at h, fun h => by simp at h⟩, by decide +kernel⟩

/-- Voice 7 demands a page of bank A while the store does this. -/
def volDemand (op : StoreOp) : Vol := { volRead with store := { vol0.store with op := op } }

theorem test_hyp_ReadsCompleted_arbiter : Servable (volDemand .ready) (nvClip clipWriting) 7
    ∧ HeldBack (volDemand (.programming 5 .a 0 [] 0)) (nvClip clipWriting) .a
    ∧ Suspends (volDemand (.erasing .a 0 0)) (nvClip clipWriting) .a ∧ HeldBack (volOp (.erasing .a 0 0)) .blank .a
    ∧ ¬ Servable vol0 .blank 7 ∧ (volOp (.verifying 1023 2048 0 0 false)).store.read = none := by
  refine ⟨⟨by decide, .a, ⟨⟨0, 1023, 0⟩, 2047, 1, by decide +kernel, by decide +kernel⟩, fun h => ?_⟩, .inl ⟨5, 0, [], 0, rfl⟩,
    .inl ⟨7, by decide, ⟨⟨0, 1023, 0⟩, 2047, 1, by decide +kernel, by decide +kernel⟩, by decide +kernel, fun r h => ?_⟩,
    .inr ⟨0, 0, rfl, fun h => ?_⟩, fun h => ?_, by decide +kernel⟩
  · rcases h with ⟨_, _, _, _, h⟩ | ⟨_, _, h, _⟩ <;> simp [volDemand] at h
  · simp [volDemand, vol0, StoreCtl.initial] at h
  · rcases h with ⟨v, hv, ⟨r, _, _, h, _⟩, _⟩ | ⟨r, h, _⟩
    · have : ∀ v < 8, ((volOp (.erasing .a 0 0)).voice v).demand = none := by decide +kernel
      simp [this v hv] at h
    · simp [volOp, StoreCtl.initial] at h
  · obtain ⟨_, _, ⟨r, _, _, h, _⟩, _⟩ := h
    have : (vol0.voice 7).demand = none := by decide +kernel
    simp [this] at h

/-- Zone 1 of `volZones`, FAULTED, falls back on zone 4, which is QUIET. -/
def volFallback : Vol :=
  { volZones with zones := tset (tset volZones.zones 1 { zone12 with extFault := true, fallback := some 4 }) 4 zone12 }

theorem test_hyp_ZoneRules_substitutes : volFallback.substitute 1 = some 4
    ∧ Seeks volFallback [⟨1, none, .missed .fault⟩] [1] [⟨1, none, .missed .fault⟩, ⟨4, some 1, .waiting⟩]
    ∧ volFallback.obtainableAt 0 4 = true
    ∧ (((volFallback.placeClaim (.voice 0) 0 5 .part).2.claim 0).map fun x => x.elems.map fun e => (e.zone, e.via, e.status))
      = some [(0, none, .held), (1, none, .missed .fault), (2, none, .missed .withdrawn), (3, none, .missed .busy),
              (4, some 1, .held)] := by
  have h : volFallback.substitute 1 = some 4 := by decide +kernel
  refine ⟨h, ⟨fun y hy _ => ?_, fun hn => ?_⟩, by decide +kernel, by decide +kernel⟩
  · rw [h] at hy
    cases hy
    rfl
  · rcases hn with hn | ⟨e, he, hn⟩
    · simp [h] at hn
    · rw [h] at hn
      simp at he
      subst he
      simp at hn

/-- A claim of priority 6 stands beside claim 39, which holds zone 3. -/
def volHigher : Vol :=
  { volHeld with claims := tset volHeld.claims 1 (some { owner := .voice 1, priority := 6, mode := .whole, stamp := 2,
                                                         elems := [{ zone := 3, via := none, status := .waiting }] }) }

theorem test_hyp_ZoneRules_preempted : (volHigher.zone 3).holder = some 39 ∧ (volHigher.claim 39).map (·.hasZone 3) = some true
    ∧ (volHigher.claim 1).map (·.hasZone 3) = some true ∧ GoesBefore volHigher 1 39 ∧ InOrder volHigher (fun c => c ∈ [1, 39]) [1, 39]
    ∧ ((volHigher.takeZone 1 3).zone 3).holder = some 1 ∧ ((volHigher.takeZone 1 3).zone 3).waiters = [39, 0] :=
  have h : GoesBefore volHigher 1 39 :=
    ⟨_, _, by rw [show volHigher.claim 1 = some _ from rfl], by rw [show volHigher.claim 39 = some _ from rfl], .inl (by decide)⟩
  ⟨by decide +kernel, by decide +kernel, by decide +kernel, h,
    ⟨by decide, fun _ => .rfl, by simp [h]⟩, by decide +kernel, by decide +kernel⟩

theorem test_hyp_ZoneRules_walk : (volHigher.claim 1).map (·.state) = some .waiting
    ∧ (volHigher.claim 1).map (·.waitingZones) = some [3] ∧ volHigher.obtainableAt 6 3 = true ∧ volHigher.obtainableAt 5 3 = false
    ∧ (volHeld.claim 39).map (·.state) = some .active ∧ (volHeld.loseZone 39 3 .fault).substitute 3 = none
    ∧ ((volFallback.loseZone 39 1 .fault).substitute 1) = some 4
    ∧ ((volHeld.releaseClaim 39).zone 3).holder = some 0 := by decide +kernel

theorem test_hyp_ClipWriting_order : Nonvolatile.blank.fits .a 3 0 = true ∧ Nonvolatile.blank.fits .a 3 2046 = false
    ∧ nvFull.fits .a 1 0 = false := by decide +kernel

theorem test_hyp_LiveOpened_evac : (st volA).Reaches (.liveStartEvac h0 ⟨32, 0, 0, 0⟩) h0 0
    ∧ (st volA).Reaches (.liveStartEvac h0 ⟨0, 32, 0, 0⟩) h0 0 ∧ (st volA).Reaches (.liveStartEvac h0 ⟨0, 0, 0, 601⟩) h0 0 :=
  ⟨test_reach _ _ _ rfl rfl, test_reach _ _ _ rfl rfl, test_reach _ _ _ rfl rfl⟩

/-- A soft FULL reset lets all four generators take their first step at the coming mark, one taken ahead among them (R147). -/
theorem test_generators_start_together :
    (((({ vol0 with fclk := ⟨47, false, [.second, .gen 3]⟩ }).resetFull .empty).blockMark .blank 0).gens.toList.map fun (g : Generator) => g.phase)
      = [0, 0, 0, 0]
    ∧ (((({ vol0 with fclk := ⟨47, false, [.second, .gen 3]⟩ }).resetFull .empty).blockMark .blank 0).gens.toList.map fun (g : Generator) => g.started)
      = [true, true, true, true]
    ∧ (({ vol0 with fclk := ⟨47, false, [.second, .gen 3]⟩ }).resetFull .empty).taken .second = true := by decide +kernel

/-! ### Commands do what their rules say -/

/-- What the state after a command shows; none for a command that stops. -/
def after {α : Type} (o : Host.Outcome State Fault Refusal) (f : State → α) : Option α :=
  match o with
  | .next s => some (f s)
  | _ => none

/-- The result code in a reply place. -/
def codeAt (s : State) (place : Nat) : Option ResultCode := (tget none s.vol.engine.places place).map (·.code)

/-- The bytes of "123456789", the usual check input. -/
def digits : List Byte := [0x31, 0x32, 0x33, 0x34, 0x35, 0x36, 0x37, 0x38, 0x39]

theorem test_crc16 : crc16 digits = 0x29B1 := by decide +kernel

theorem test_crc32 : crc32 digits = 0xCBF43926 := by decide +kernel

theorem test_attenuate : attenuate 1000 40 = 100 ∧ attenuate (-1000) 40 = -100 ∧ attenuate 8388607 0 = 8388607
    ∧ attenuate 8388607 192 = 0 := by decide +kernel

theorem test_tones : toneValue 3 12 = 838861 ∧ toneValue 3 36 = -838861 ∧ toneValue 1 12 = 4194304 ∧ toneValue 0 38400 = 0 := by
  decide +kernel

theorem test_header_bit_corrected :
    decodeHeader (headBits 17 true false) (headerCheck (headBits 17 false false)) = .corrected (headBits 17 false false) := by
  decide +kernel

theorem test_hello : after (exec (.hello h0) (st vol0)) (codeAt · 0) = some (some .ok) := by decide +kernel

/-- A HELLO request as bytes, header only. -/
def helloBytes : List Byte := [5, 1, 1, 1, 1, 2, 0, 0]

theorem test_hello_as_bytes : codeAt (takeMessage helloBytes (st vol0)) 0 = some .ok := by decide +kernel

theorem test_address_once : after (exec (.address h0 9) (st vol0)) (codeAt · 0) = some (some .alreadySet) := by decide +kernel

theorem test_call_loaded :
    after (exec (.callLoad h0 load0) (st vol0)) (fun s => (codeAt s 0, (s.vol.call load0.slot).map (·.state)))
      = some (some .ok, some .planned) := by decide +kernel

theorem test_evac_start_without_members : after (exec (.evacStart h0) (st vol0))
    (fun s => (s.vol.evac.state, s.vol.evac.request)) = some (.evacuate, none) := by decide +kernel

theorem test_store_abort_arms : after (exec (.storeAbort h0) (st vol0)) (·.vol.store.abortArm) = some true := by decide +kernel

theorem test_report_hot : after (exec (.zoneReport 1 report0) (st volPlaced)) (fun s => ((s.vol.zone 9).cond, (s.vol.zone 9).ambient))
    = some (.hot, some 110) := by decide +kernel

/-- A frame with every contact line LOW and no error on a page read. -/
def input0 : FrameInput := { levels := 0, verdict := .good }

theorem test_first_frame : after (exec (.frameClockFrame input0) State.reset)
    (fun s => (s.vol.sent.up.sync, s.vol.sent.up.index, s.vol.fclk.fresh)) = some (0xE4B1, 0, false) := by decide +kernel

/-- A list given at a block mark waits there for the next one. -/
theorem test_list_waits : (volEvacPlays.enterEvacuate .blank .timer).listDue = false
    ∧ (volEvacPlays.enterEvacuate .blank .escalate).listDue = true := by decide +kernel

/-- Voice 7's list begins again in the frame after its last, and with it its read order. -/
theorem test_list_restarts :
    ((volEvacPlays.voiceFrame .blank 7).2.voice 7).pos = 1 ∧ ((volEvacPlays.voiceFrame .blank 7).2.voice 7).finished = false := by
  decide +kernel

/-- A stale transition in EVACUATE is suppressed too. -/
theorem test_stale_suppressed :
    (({ volCall call0 with evac := { Evac.initial with state := .evacuate } }.callNotice 255 none true false).engine.notices.map
      fun (e : Nat × Notice) => e.2) = [.callState 255 .arrive 12 .approaching (some 32) none false true true false] := by decide +kernel

/-- A withdrawal of a request that waits to be cancelled removes it. -/
theorem test_withdrawal_of_cancelled :
    ((volReq { request0 with state := .playing 0, cancelPending := true }).withdrawRequest
      { request0 with state := .playing 0, cancelPending := true } .superseded).request 9 = none := by decide +kernel

theorem test_allocation : Nonvolatile.blank.allocate .a 2046 3 = some 0 ∧ Nonvolatile.blank.allocate .a 2045 3 = some 2045 := by
  decide +kernel

/-! ### The hypotheses of the clauses on scans, reports, stages, fallback walks and bytes -/

theorem test_hyp_ScanComplete_fill : Nonvolatile.blank.wf = true ∧ nvWritten.wf = true
    ∧ nvWritten.page .a 2047 ≠ .erased ∧ nvWritten.fillAfter .a = 0 ∧ Nonvolatile.blank.fillAfter .b = 0
    ∧ (Nonvolatile.blank.setPage .a 5 .written).page .a 5 ≠ .erased
    ∧ (Nonvolatile.blank.setPage .a 5 .written).fillAfter .a = 6 := by decide +kernel

/-- `volA` with the stand-in in force. -/
def volStandIn : Vol := { volA with evac := { volA.evac with list := some .standIn } }

theorem test_hyp_ScanComplete_told : volStandIn.evac.list = some .standIn ∧ volA.evac.list ≠ some .standIn
    ∧ (∀ n, volStandIn.store.op ≠ .starting n) ∧ volStandIn.evac.state = .alert
    ∧ (∃ n, ({ volStandIn with store := (volOp (.starting 0)).store }).store.op = .starting n)
    ∧ ({ volStandIn with evac := { volStandIn.evac with state := .evacuate } }).evac.state = .evacuate
    ∧ volStandIn.scanDoneEvac.evac.list = some .alert :=
  ⟨rfl, by decide +kernel, fun n h => StoreOp.noConfusion h, rfl, ⟨0, rfl⟩, rfl, by decide +kernel⟩

/-- Line 15 ACTIVE, with this function. -/
def volActive (fn : LineFn) : Vol :=
  { vol0 with lines := tset vol0.lines 15 { Line.initial with fn := fn, debounced := some true } }

theorem test_hyp_ContactLineWritten_release :
    ((volActive (.talk 31 31 5)).line 15).debounced = some true ∧ (vol0.line 15).debounced ≠ some true
    ∧ ({ Line.initial with fn := .output .alertRaised 0 false .none }).rewritten
        { lrecord0 with fn := .output .alertRaised 0 true .none, polarity := .activeHigh, debounce := 10 } = false
    ∧ (({ volActive (.talk 31 31 5) with live := tset vol0.live 31 (some { source0 with opener := .line 15 }) }).rewriteLine
        .blank lrecord0).source 31 = none := by decide +kernel

theorem test_hyp_CallMarks_held : volBusy.call 255 = some call0
    ∧ ({ volBusy with calls := tset volBusy.calls 3 (some call0) }).call 3 = some call0
    ∧ ({ volBusy with calls := tset volBusy.calls 3 (some call0) }).call 255 = some call0
    ∧ (({ volBusy with calls := tset volBusy.calls 3 (some call0) }.holdCall 255 32 3 .atPlatform).engine.notices.map
        fun (e : Nat × Notice) => e.2) = [.platformConflict 32 255 12 3 12] := by decide +kernel

/-- Voice 7 serves `r`, its claim EXHAUSTED. -/
def volReport (r : Request) (x : VoiceState) : Vol :=
  { volReq { r with state := .playing 7 } with
    voices := tset vol0.voices 7
      { Voice.initial with state := x, request := some 9, claim := some 39, source := some .template }
    claims := tset vol0.claims 39 (some { owner := .voice 7, priority := 5, mode := .join, stamp := 0,
                                          elems := [{ zone := 63, via := none, status := .missed .fault }] }) }

theorem test_hyp_QueueEvents_reports : Reported (volReport request0 .playing) 7
    ∧ (∀ u < 7, ((volReport request0 .playing).voice u).source = none)
    ∧ ((volReport request0 .cueing).voice 7).state = .cueing ∧ ((volReport request0 .playing).voice 7).state ≠ .cueing
    ∧ ((volReport { request0 with resume := .abandon, cancelPending := true } .playing).request 9).map (fun r => (r.resume, r.cancelPending))
      = some (.abandon, true)
    ∧ ((volReport { request0 with resume := .abandon } .playing).voice 7).request = some 9
    ∧ ((volReport request0 .playing).request 9).map (·.resume) = some .restart ∧ (∀ v, ¬ Reported vol0 v)
    ∧ (((volReport { request0 with resume := .abandon } .playing).settle .blank).request 9) = none := by
  refine ⟨⟨by decide, by decide +kernel, 39, _, by decide +kernel, by rw [show (volReport request0 .playing).claim 39 = some _ from rfl],
    by decide +kernel⟩, by decide +kernel, by decide +kernel, by decide +kernel, by decide +kernel, by decide +kernel, by decide +kernel,
    fun v h => ?_, by decide +kernel⟩
  have none : ∀ v < 8, (vol0.voice v).source = none := by decide +kernel
  obtain ⟨hv, h, _⟩ := h
  simp [none v hv] at h

theorem test_hyp_LiveEnds_closing : (volLive source0).source 31 = some source0 ∧ vol0.source 31 = none
    ∧ ((volLive source0).closeSource 31 .stopped).source 31 = none := by decide +kernel

/-- `volA` with group 31 served and its evacuation source open. -/
def volEvacOpen : Vol :=
  { volA with groups := tset vol0.groups 31 [63], live := tset vol0.live 4 (some { source0 with opener := .evacuation none }) }

theorem test_hyp_EvacRequests_made :
    (∃ n r, (({ vol0 with groups := tset vol0.groups 31 [63], evac := { volA.evac with list := some .alert } }).createRequest .blank
        { number := 0, origin := .evac, call := none, platform := none, template := none, override := some 31,
          values := none, priority := 14, mode := .join, resume := .restart, gap := none, window := none,
          repeatsLeft := none, notBefore := 0, expiry := none, state := .pending, stamp := 0,
          incomplete := false, finish := none, cancelPending := false }) = (some n, r) ∧ (r.request n).isSome = true)
    ∧ ((volA.makeEvacRequest .blank).evac.request = none)
    ∧ (∀ n, volA.store.op ≠ .starting n) ∧ ∃ n, (volOp (.starting 0)).store.op = .starting n :=
  ⟨⟨0, _, rfl, by decide +kernel⟩, by decide +kernel, fun n h => StoreOp.noConfusion h, ⟨0, rfl⟩⟩

theorem test_hyp_EvacRequests_stages : volA.evac.duration ≠ 0 ∧ vol0.evac.duration = 0
    ∧ vol0.evac.state = .normal ∧ volA.evac.state ≠ .normal
    ∧ ((stageChanged volA .evacuate .timer).suppressLow .blank).evac.request = none
    ∧ ((stageChanged { volEvacPlays with evac := { volEvacPlays.evac with list := some .standIn } } .evacuate .timer).suppressLow
        .blank).evac.list = some .standIn
    ∧ ((stageChanged volEvacPlays .evacuate .timer).suppressLow .blank).evac.request = some 9
    ∧ ((stageChanged volEvacPlays .evacuate .timer).suppressLow .blank).evac.list ≠ some .standIn := by decide +kernel

theorem test_hyp_EvacRequests_left : volEvacPlays.evac.request = some 9 ∧ volA.evac.request = none
    ∧ volEvacOpen.evac.lane = some 4 ∧ volEvacOpen.source 4 = some { source0 with opener := .evacuation none }
    ∧ (∀ l x k, vol0.evac.lane = some l → vol0.source l = some x → x.opener ≠ .evacuation k)
    ∧ (volEvacOpen.returnNormal .blank .stop).source 4 = none
    ∧ ((volEvacOpen.returnNormal .blank .stop).engine.notices.map fun (e : Nat × Notice) => e.2)
      = [.evacState .alert .normal .stop, .liveEnd 4 (.evacuation none) .stopped] :=
  ⟨by decide +kernel, by decide +kernel, by decide +kernel, by decide +kernel, fun l x k h => by simp [vol0, Vol.powerOn, Evac.initial] at h,
    by decide +kernel, by decide +kernel⟩

/-- GO for a sector out of range clears the erase arm and leaves the abort arm (R130). -/
theorem test_hyp_StoreChecks_arm : (st volArmed).Reaches (.sectorEraseGo h0 .b 32) h0 0 ∧ bankSectors .b ≤ 32
    ∧ after (exec (.sectorEraseGo h0 .b 32) (st volArmed)) (fun s => (codeAt s 0, s.vol.store.eraseArm, s.vol.store.abortArm))
      = some (some .badArg, none, true) := ⟨test_reach _ _ _ rfl rfl, by decide, by decide +kernel⟩

theorem test_hyp_EraseAndAbort_read : volVerify.store.read.map (·.user) = some .verify
    ∧ volRead.store.read.map (·.user) = some (.voice 7)
    ∧ volVerify.dropVerifyRead.store.read.map (·.user) = some .discarded := by decide +kernel

/-- An erase that voice 7's read suspends, without one: 48 frames of work to do. -/
theorem test_hyp_ReadsCompleted_work : (st (volOp (.erasing .a 0 48))).running = true
    ∧ (st (volOp (.erasing .a 0 48))).vol.readDue = false ∧ (st (volOp (.erasing .a 0 48))).vol.store.op.overdue = false
    ∧ ((volOp (.erasing .a 0 48)).storeTick .blank).store.op ≠ .erasing .a 0 48 := by decide +kernel

/-- Claims 39 and 0 of `volHeld` as old as these stamps, before the counter's largest value. -/
def volStamps (a b n : Nat) : Vol :=
  { volHeld with
    claims := tset (tset volHeld.claims 39 ((volHeld.claim 39).map fun x => { x with stamp := a })) 0
      ((volHeld.claim 0).map fun x => { x with stamp := b })
    stampCounter := n }

theorem test_hyp_ZoneRules_stamps : (volStamps 4294967294 7 4294967295).group 0 ≠ []
    ∧ (volStamps 4294967294 7 4294967295).freeClaim ≠ none
    ∧ (List.range 40).filter (fun c => ((volStamps 4294967294 7 4294967295).claim c).isSome) = [0, 39]
    ∧ (∀ c < 40, ∀ d < 40, ∀ x ∈ (volStamps 4294967294 7 4294967295).claim c, ∀ y ∈ (volStamps 4294967294 7 4294967295).claim d,
        c ≠ d → x.stamp ≠ y.stamp)
    ∧ (∀ c < 40, (volStamps 1 0 2).claim c = ((volStamps 4294967294 7 4294967295).claim c).map fun x =>
        { x with stamp := ([0, 39].filter fun d => decide ((((volStamps 4294967294 7 4294967295).claim d).map (·.stamp)).getD 0 < x.stamp)).length })
    ∧ { volStamps 1 0 2 with claims := (volStamps 4294967294 7 4294967295).claims, stampCounter := 4294967295 }
      = volStamps 4294967294 7 4294967295
    ∧ ((volStamps 4294967294 7 4294967295).placeClaim (.voice 1) 0 5 .join).2.stampCounter = 3 :=
  ⟨by decide +kernel, by decide +kernel, by decide +kernel, by decide +kernel, by decide +kernel, rfl, by decide +kernel⟩

/-- Zone `z` FAULTED with this fallback. -/
def fell (z : Nat) : Zone := { zone12 with extFault := true, fallback := some z }

/-- Zones 1 to 4 each fall back on the next; zone 5 is QUIET, and zone 6 falls back on itself. -/
def volChain (last : Zone) : Vol :=
  { vol0 with zones := tset (tset (tset (tset (tset (tset vol0.zones 1 (fell 2)) 2 (fell 3)) 3 (fell 4)) 4 (fell 5)) 5 last) 6 (fell 6) }

theorem test_hyp_ZoneRules_fallback : FallsBack (volChain zone12) 1 5 4 (fun i => 1 + i)
    ∧ (volChain zone12).substitute 1 = some 5 ∧ (volChain (fell 1)).substitute 2 = none ∧ (volChain zone12).substitute 6 = none
    ∧ ({ volChain (fell 7) with zones := tset (volChain (fell 7)).zones 7 zone12 }).substitute 1 = none
    ∧ ({ volChain (fell 7) with zones := tset (volChain (fell 7)).zones 7 zone12 }).substitute 2 = some 7 :=
  ⟨⟨rfl, rfl, by decide +kernel, fun i j h _ => by simp only []; omega, by decide +kernel, by decide +kernel⟩, by decide +kernel⟩

/-- Claims 0 and 1 have missed zone 0 through a fault that is over; claim 1 is of higher priority. -/
def volMissedTwice : Vol :=
  { volMissed with
    claims := tset volMissed.claims 1 (some { owner := .voice 1, priority := 6, mode := .join, stamp := 2,
                                              elems := [{ zone := 0, via := none, status := .missed .fault }] }) }

theorem test_hyp_ZoneRules_rejoined : (volMissedTwice.zone 0).waiters = [] ∧ InOrder volMissedTwice (Rejoins volMissedTwice 0) [1, 0]
    ∧ ((volMissedTwice.recoverZone 0).zone 0).holder = some 1 ∧ ((volMissedTwice.recoverZone 0).zone 0).waiters = [0] := by
  have back : ∀ c < 40, ∀ x ∈ volMissedTwice.claim c, x.mode = .join → x.statusOf 0 = some (.missed .fault) → c ∈ [1, 0] := by
    decide +kernel
  have beyond : ∀ c, ¬ c < 40 → volMissedTwice.claim c = none := fun c h => by
    simp [Vol.claim, tget, Vector.getElem?_eq_none (Nat.le_of_not_lt h)]
  refine ⟨by decide +kernel, ⟨by decide, fun c => ⟨fun h => ?_, fun ⟨x, hx, hm, hs⟩ => ?_⟩, ?_⟩, by decide +kernel, by decide +kernel⟩
  · rcases List.mem_cons.mp h with h | h
    · subst h
      exact ⟨_, rfl, rfl, by decide⟩
    · rw [List.mem_singleton.mp h]
      exact ⟨_, rfl, rfl, by decide⟩
  · rcases Nat.lt_or_ge c 40 with h | h
    · exact back c h x hx hm hs
    · rw [beyond c (Nat.not_lt.mpr h)] at hx
      exact absurd hx (by simp)
  · exact List.pairwise_pair.mpr ⟨_, _, rfl, rfl, .inl (by decide)⟩

theorem test_hyp_ZoneRules_event :
    ReportsDiffer (volPlaced.zone 9) ((volPlaced.changeZone 9 fun x => { x with enabled := false }).settle .blank |>.zone 9)
    ∧ ¬ ReportsDiffer (volPlaced.zone 9) ((volPlaced.changeZone 9 fun x => { x with silence := 1 }).settle .blank |>.zone 9)
    ∧ ¬ ReportsDiffer zone12 { zone12 with holder := some 39 }
    ∧ ((volPlaced.zoneEvent .blank 9 fun x => { x with enabled := false }).engine.notices.map fun (e : Nat × Notice) => e.2)
      = [.zoneState 9 .off .good zone12.cond false] := by
  have off : ((volPlaced.changeZone 9 fun x => { x with enabled := false }).settle .blank |>.zone 9).state ≠ (volPlaced.zone 9).state
      ∧ (volPlaced.zone 9).state = .quiet
      ∧ ((volPlaced.changeZone 9 fun x => { x with enabled := false }).settle .blank |>.zone 9).state = .off := by decide +kernel
  have same : ((volPlaced.changeZone 9 fun x => { x with silence := 1 }).settle .blank |>.zone 9) = { zone12 with silence := 1 }
      ∧ volPlaced.zone 9 = zone12 := by decide +kernel
  refine ⟨.inl ⟨off.1.symm, fun h => ?_⟩, fun h => ?_, fun h => ?_, by decide +kernel⟩
  · rw [off.2.1, off.2.2] at h
    simp at h
  · rw [same.1, same.2] at h
    rcases h with ⟨h, _⟩ | h | h <;> exact h (by decide)
  · rcases h with ⟨_, h⟩ | h | h
    · exact h (.inl ⟨by decide, by decide⟩)
    · exact h (by decide)
    · exact h (by decide)

theorem test_hyp_FramesReceived_lock :
    (({ volLocked with live := tset vol0.live 31 (some source0) }).port 0).state = .locked
    ∧ ({ volLocked with live := tset vol0.live 31 (some source0) }).source 31 = some source0 := by decide +kernel

/-- A HELLO, an ANNOUNCE with every optional field and a ZONE REPORT as bytes. -/
theorem test_hyp_FramesReceived_bytes : (Instr.hello h0).request = some (h0, 1) ∧ (Instr.hello h0).wf = true
    ∧ spelled h0.destination h0.source 1 1 h0.tag (bodyOf (.hello h0)) = helloRun
    ∧ (Instr.announce h0 announce0).wf = true
    ∧ bodyOf (.announce h0 announce0) = [127, 2, 13, 2, 31, 0, 255, 255, 255, 255, 2, 32, 2, 255, 0, 255, 255, 255, 255,
        0, 255, 255, 255, 255, 2, 255, 255]
    ∧ (helloRun.getD 3 0).toNat = 1 ∧ (([5, 1, 1, 2, 1, 2, 0, 0] : List Byte).getD 3 0).toNat ≠ 1
    ∧ (Instr.zoneReport 1 report0).wf = true
    ∧ (spelled 0 0 report0.kind report0.cls 0 [2, 1, 110]).length = 11 ∧ helloRun.length ≠ 11
    ∧ after (exec (.zoneReport 1 report0) (st volPlaced)) (·.vol.zones)
      = some (takeReport 1 (reportOf (spelled 0 0 report0.kind report0.cls 0 [2, 1, 110])) (st volPlaced)).vol.zones := by
  decide +kernel

theorem test_hyp_FrameProduced_generators : Generator.initial.started = false ∧ ((volGen none).gen 3).started = true
    ∧ 10 * ((volGen none).gen 3).p ≤ ((volGen none).gen 3).phase + 1 ∧ ((volGen none).gen 3).staged = none
    ∧ ({ (volGen none).gen 3 with phase := 18 }).phase + 1 < 10 * ((volGen none).gen 3).p
    ∧ ((volGen (some (1000, 0, 1))).gen 3).staged = some (1000, 0, 1) := by decide +kernel

/-! ### The hypotheses of the clauses on steps of endings, lists taken, lengths and messages started by a frame -/

/-- `volDoors` with a request of the call in the queue. -/
def volEnding (r : Request) : Vol :=
  { volDoors with queue := { requests := [{ r with origin := .timetable, call := some (255, .final) }], nextNumber := 10, nextStamp := 1 } }

theorem test_hyp_CallEnds_steps :
    (volEnding request0).call 255 = some { call0 with kind := .depart, state := .final }
    ∧ ((volEnding request0).platform 32).occupant = some 255 ∧ ((volCall call0).platform 32).occupant ≠ some 255
    ∧ ((volEnding request0).cancelCall .blank 255).request 9 = none
    ∧ (((volEnding request0).cancelCall .blank 255).engine.notices.map fun (e : Nat × Notice) => e.2)
      = [.requestEnd (some 9) .timetable (some (255, .final)) none (some 0) 5 .withdrawn,
         .callState 255 .depart 12 .cancelled (some 32) (some .cancelled) false false false false]
    ∧ (((volEnding { request0 with state := .playing 0 }).removeCall .blank 255).request 9).map (fun r => (r.call, r.finish))
      = some (none, some .withdrawn) := by decide +kernel

/-- Voice 7, whose request is 9, is given this list as a change. -/
def volGiven (state : VoiceState) (items : List ListItem) : Vol :=
  { volEvacPlays with voices := tset volEvacPlays.voices 7 { volEvacPlays.voice 7 with state := state, newList := some items } }

theorem test_hyp_EvacMarks_taken :
    ((volGiven .cueing [.clip 1023]).voice 7).state ≠ .idle ∧ ((volGiven .stalled []).voice 7).newList = some []
    ∧ (expandEvac .blank [.clip 1023, .tone 3 1]) = ([.tone 2 100], true) ∧ ((volGiven .stalled []).voice 7).request = some 9
    ∧ (expandEvac (nvClip { clipWriting with state := .valid, length := some 1 }) [.clip 1023]) = ([.clip 1023 1], false)
    ∧ (((volGiven .stalled [.clip 1023]).takeList (nvClip { clipWriting with state := .valid, length := some 1 }) 7).voice 7).state
      = .playing := by decide +kernel

theorem test_hyp_Announced_direct : volTemplate.directRequest announce0 template0 =
    { request0 with
      number := 0, origin := .direct, template := some 127, override := some 31, values := some values0, priority := 13
      repeatsLeft := some 0, notBefore := 0, gap := some 10, window := some 0, mode := .join, resume := .restart } := by
  decide +kernel

/-- A line of debounce 0 that reads another level than at the mark before settles at once. -/
theorem test_hyp_ContactLinesChange_settled :
    (st { vol0 with lines := tset vol0.lines 15 { Line.initial with debounce := 0, raw := false } }).AtMark (.line 15)
    ∧ Polarity.activeHigh.reading true ≠ Polarity.activeHigh.reading false ∧ Line.initial.polarity = .activeHigh ∧ (0 : Nat) < 1
    ∧ after (exec (.lineSettle 15 true)
        (st { vol0 with lines := tset vol0.lines 15 { Line.initial with debounce := 0, raw := false } }))
      (fun s => (s.vol.line 15).debounced) = some (some true) := ⟨test_mark _ _ _ rfl, by decide +kernel⟩

/-- UP LOCKED with a reply in place 3 that waits, or with a notice, and a sent message in place 2 to be ended. -/
def volSends (e : Engine) : Vol := { volLocked with engine := { e with sending := some ⟨[], some 2⟩ } }

def reply0 : Reply := { destination := 1, source := 5, kind := 1, tag := 0, code := .ok, body := .none }

theorem test_hyp_FrameProduced_started :
    (st (volSends { eng with waiting := [3], places := tset (tset eng.places 2 (some reply0)) 3 (some reply0) })).running = true
    ∧ ((volSends eng).port 0).state = .locked ∧ (volSends eng).sent.up.valid = false ∧ reply0.message.head? = some 1
    ∧ (noticeMessage 5 .alertCleared).length ≠ 0 ∧ (volSends eng).readDue = false ∧ (volSends eng).store.op.overdue = false
    ∧ ((beforeFrame (st (volSends { eng with waiting := [3], places := tset (tset eng.places 2 (some reply0)) 3 (some reply0) }))
        .good).vol.engine.sending.map (·.place)) = some (some 3)
    ∧ ((beforeFrame (st (volSends { eng with notices := [(5, .alertCleared)] })) .good).vol.engine.sending.map (·.place))
      = some none := by decide +kernel

/-- A GO of two bytes whose bank byte is 3 is BAD_ARG and clears the erase arm; one of three bytes leaves it. -/
theorem test_hyp_FramesReceived_lengths : (28, 2) ∈ fixedLengths ∧ (st volArmed).Serves h0 0 ∧ volArmed.engine.address ≠ 0
    ∧ h0.wf = true
    ∧ (let t := takeMessage (spelled 5 1 28 1 258 [3, 31]) (st volArmed)
      (codeAt t 0, t.vol.store.eraseArm, t.vol.store.abortArm)) = (some .badArg, none, true)
    ∧ (let t := takeMessage (spelled 5 1 28 1 258 [2, 31, 0]) (st volArmed)
      (codeAt t 0, t.vol.store.eraseArm)) = (some .badArg, some (.b, 31)) :=
  ⟨by decide, (test_reach volArmed .blank (.hello h0) rfl rfl).toServes, by decide, rfl, by decide +kernel, by decide +kernel⟩

/-- Zone 63 of `volMixed` with a new holder. -/
def volCut : Vol := { volMixed with gains := tset volMixed.gains 63 { Gain.initial with cut := true } }

theorem test_hyp_LevelsRamp_cut : (st volCut).running = true ∧ volCut.atMark = true
    ∧ ((beforeFrame (st volCut) .good).vol.giveLanes.atLevels .blank 0).exhaustedVoice = none
    ∧ (((beforeFrame (st volCut) .good).vol.giveLanes.atLevels .blank 0).gain 63).cut = true
    ∧ after (exec (.frameClockFrame ⟨0, .good⟩) (st volCut)) (fun s => (s.vol.gain 63).cut) = some false
    ∧ after (exec (.frameClockFrame ⟨0, .good⟩) (st volCut)) (fun s => (s.vol.gain 63).fgLevel) = some 192 := by
  decide +kernel

/-- The tones at the ends of their notes. -/
theorem test_hyp_AttenuationRounds_tones : toneValue 0 19200 = 0 ∧ toneValue 0 38399 = -4081218 ∧ toneValue 0 47999 = 0
    ∧ toneValue 1 11999 = -547467 ∧ toneValue 1 12000 = 0 ∧ toneValue 2 1 = 274325 ∧ toneValue 3 (36 + 48) = -838861 := by
  decide +kernel

/-- Two bits in error, three with a number past the last, and none, for 8 and for 40 covered bits. -/
theorem test_hyp_HeaderErrorsCorrected_decoded :
    decodeHeader (List.replicate 8 true) (headerCheck (List.replicate 8 true) ^^^ 3) = .uncorrectable
    ∧ decodeHeader (List.replicate 8 true) (headerCheck (List.replicate 8 true) ^^^ 13) = .uncorrectable
    ∧ decodeHeader (List.replicate 8 true) (headerCheck (List.replicate 8 true) ^^^ 0x80) = .good
    ∧ decodeHeader (List.replicate 40 true) (headerCheck (List.replicate 40 true) ^^^ 0x6F) = .uncorrectable
    ∧ (decodeHeader (List.replicate 40 true) (headerCheck (List.replicate 40 true) ^^^ 13)
      = .corrected ((List.replicate 40 true).set 8 false)) := by decide +kernel

/-- Third NORMAL report of an OPEN line, and reports of a line that is neither OPEN nor SHORT. -/
theorem test_hyp_ZoneRules_normals :
    ({ zone12 with cond := .opened, normals := 2 }).applyCondition .normal
      = { zone12 with cond := .normal, normals := 3, history := zone12.history.join .normal }
    ∧ (({ zone12 with cond := .silent, normals := 3 }).applyCondition .hot).normals = 3
    ∧ (({ zone12 with cond := .hot, normals := 1 }).applyCondition .normal).normals = 1 := by decide +kernel

/-- A node return frame written out bit by bit: E4B1; index 47; flag set; spare clear; byte 5A; checks 81 and 1021. -/
def nodeBits : List Bool :=
  [true, true, true, false, false, true, false, false, true, false, true, true, false, false, false, true]
  ++ [true, false, true, true, true, true] ++ [true] ++ [false]
  ++ [false, true, false, true, true, false, true, false] ++ [true, false, false, false, false, false, false, true]
  ++ [false, false, false, true, false, false, false, false, false, false, true, false, false, false, false, true]

def node0 : NodeFrame :=
  { sync := 0xE4B1, index := 47, valid := true, spare := false, byte := 0x5A, headerCheck := 0x81, slotCheck := 0x1021 }

theorem test_node_bits : node0.bits = nodeBits ∧ nodeBits.length = 56 ∧ NodeFrame.ofBits nodeBits = node0 := by decide +kernel

theorem test_up_bits : frame0.bits.length = 856 ∧ UpFrame.ofBits frame0.bits = frame0 ∧ frame0.bits[24]? = some true
    ∧ ((frame0.bits.drop 56).take 24) = List.replicate 21 false ++ [true, true, true] := by decide +kernel

/-- The bits sent by the first frame after reset. -/
theorem test_hyp_FrameProduced_bits : (st vol0).running = true
    ∧ after (exec (.frameClockFrame ⟨0, .good⟩) (st vol0)) (fun s => (List.range 5).map fun p => (s.vol.sentBits p).length)
      = some [80, 440, 440, 440, 440]
    ∧ after (exec (.frameClockFrame ⟨0, .good⟩) (st vol0)) (fun s => ((s.vol.sentBits 4).take 16 == nodeBits.take 16))
      = some true := by decide +kernel

/-- An aborted erase of sector 31 of bank B, and a scan. -/
theorem test_store_done : (Notice.storeDone (.erase .b 31 true)).body = [2, 0xFF, 0xFF, 2, 31, 2, 0xFF, 0xFF, 0xFF, 0xFF, 0xFF, 0xFF]
    ∧ (Notice.storeDone (.scan false 258 64)).body = [4, 0xFF, 0xFF, 0xFF, 0xFF, 0, 0xFF, 0xFF, 1, 1, 2, 64] := by decide

theorem test_hyp_SentMessagesPass_lengths : (Notice.storeDone .programme).kind = (Notice.storeDone (.seal 3 false true 5)).kind
    ∧ ∀ conds, Notice.storeDone .programme ≠ .alertRaised conds := ⟨rfl, fun _ h => by cases h⟩

/-! ### What a frame leaves, and the ranges of records -/

/-- Neither a read nor an operation is due; a read of a voice, or a verify's, is; the completion of each operation is, at the first
frame at which it can be. -/
theorem test_hyp_StoreStandsAlone_frames : (st vol0).running = true
    ∧ ((st vol0).vol.readDue = false ∧ (st vol0).vol.store.op.overdue = false)
    ∧ (volRead.readDue = true ∧ volRead.store.op.overdue = false)
    ∧ (volVerify.readDue = true ∧ volVerify.store.op.overdue = false)
    ∧ ((volOp (.programming 1023 .a 2047 [] 96)).store.op.overdue = true
      ∧ (volOp (.programming 1023 .a 2047 [] 95)).store.op.overdue = false)
    ∧ ((volOp (.erasing .r 7 48000)).store.op.overdue = true ∧ (volOp (.erasing .r 7 47999)).store.op.overdue = false)
    ∧ ((volOp (.programWrite .empty 19200)).store.op.overdue = true
      ∧ (volOp (.programWrite .empty 19199)).store.op.overdue = false)
    ∧ ((volOp (.starting 14400)).store.op.overdue = true ∧ (volOp (.starting 14399)).store.op.overdue = false) := by
  decide +kernel

/-- No voice of `vol0` has a claim, so none is reported, at a block mark or between two. -/
theorem test_hyp_FrameProduced_leaves : (st vol0).running = true ∧ vol0.readDue = false ∧ vol0.store.op.overdue = false
    ∧ ({ vol0 with fclk := ⟨46, false, []⟩ }).atMark = false
    ∧ ∀ v, ¬ Reported { vol0 with fclk := ⟨46, false, []⟩ } v := by
  refine ⟨rfl, rfl, rfl, rfl, ?_⟩
  have : ∀ v < 8, (Vol.voice { vol0 with fclk := ⟨46, false, []⟩ } v).source ≠ some .template := by decide +kernel
  exact fun v h => this v h.1 h.2.1

/-- A frame that completes a programming leaves the store as PROGRAMMING_COMPLETE does. -/
theorem test_frame_completes :
    after (exec (.frameClockFrame ⟨0, .good⟩) (st (volOp (.programming 1023 .a 2047 [7] 96)) (nvClip clipWriting))) (·.nv)
      = after (exec .programmingComplete (st (volOp (.programming 1023 .a 2047 [7] 96)) (nvClip clipWriting))) (·.nv) := by
  decide +kernel

/-- Each field of a zone record at the end of its range, and one beyond. -/
theorem test_range_zone : record0.inRange = true ∧ ({ record0 with zone := 64 }).inRange = false
    ∧ ({ record0 with port := none, slot := none }).inRange = true ∧ ({ record0 with port := none }).inRange = false
    ∧ ({ record0 with slot := none }).inRange = false ∧ ({ record0 with port := some 3, slot := some 15 }).inRange = true
    ∧ ({ record0 with port := some 4 }).inRange = false ∧ ({ record0 with slot := some 16 }).inRange = false
    ∧ ({ record0 with bgLane := some 31 }).inRange = true ∧ ({ record0 with bgLane := some 32 }).inRange = false
    ∧ ({ record0 with bgBase := 192 }).inRange = false ∧ ({ record0 with duck := 81 }).inRange = false
    ∧ ({ record0 with fgBase := 192 }).inRange = false ∧ ({ record0 with evacBase := 191 }).inRange = true
    ∧ ({ record0 with evacBase := 192 }).inRange = false ∧ ({ record0 with fallback := some 64 }).inRange = false
    ∧ ({ record0 with compRef := 39 }).inRange = false ∧ ({ record0 with compRef := 90 }).inRange = true
    ∧ ({ record0 with compRef := 91 }).inRange = false ∧ ({ record0 with compLimit := 25 }).inRange = false := by decide

theorem test_range_profile : profile0.inRange = true ∧ ({ profile0 with profile := 16 }).inRange = false
    ∧ ({ profile0 with approachLead := 3601 }).inRange = false ∧ ({ profile0 with boardingLead := 3601 }).inRange = false
    ∧ ({ profile0 with finalLead := 3601 }).inRange = false ∧ ({ profile0 with clearDelay := 1801 }).inRange = false
    ∧ ({ profile0 with delayThreshold := 0 }).inRange = false ∧ ({ profile0 with delayThreshold := 1 }).inRange = true
    ∧ ({ profile0 with delayThreshold := 61 }).inRange = false ∧ ({ profile0 with concourse := some 32 }).inRange = false
    ∧ ({ profile0 with templates := (Vector.replicate 7 none).set 6 (some 128) }).inRange = false := by decide +kernel

theorem test_range_template : trecord0.inRange = true ∧ ({ trecord0 with template := 128 }).inRange = false
    ∧ ({ trecord0 with items := List.replicate 16 (.pause 1) }).inRange = true
    ∧ ({ trecord0 with items := List.replicate 17 (.pause 1) }).inRange = false
    ∧ ({ trecord0 with items := [.clip 1024] }).inRange = false ∧ ({ trecord0 with items := [.pause 0] }).inRange = false
    ∧ ({ trecord0 with items := [.pause 51] }).inRange = false ∧ ({ trecord0 with items := [.tone 4 1] }).inRange = false
    ∧ ({ trecord0 with items := [.tone 0 0] }).inRange = false ∧ ({ trecord0 with items := [.tone 0 101] }).inRange = false
    ∧ ({ trecord0 with target := .group 32 }).inRange = false ∧ ({ trecord0 with priority := 14 }).inRange = false
    ∧ ({ trecord0 with repeats := 0 }).inRange = false ∧ ({ trecord0 with repeats := 9 }).inRange = false
    ∧ ({ trecord0 with gap := 9 }).inRange = false ∧ ({ trecord0 with gap := 10 }).inRange = true
    ∧ ({ trecord0 with gap := 601 }).inRange = false ∧ ({ trecord0 with window := 3601 }).inRange = false := by decide

theorem test_range_line : lrecord0.inRange = true ∧ ({ lrecord0 with line := 16 }).inRange = false
    ∧ ({ lrecord0 with debounce := 256 }).inRange = false ∧ ({ lrecord0 with fn := .talk 31 31 13 }).inRange = true
    ∧ ({ lrecord0 with fn := .talk 32 0 0 }).inRange = false ∧ ({ lrecord0 with fn := .talk 0 32 0 }).inRange = false
    ∧ ({ lrecord0 with fn := .talk 0 0 14 }).inRange = false ∧ ({ lrecord0 with fn := .trainPresent 0 }).inRange = false
    ∧ ({ lrecord0 with fn := .doorsClosed 33 }).inRange = false ∧ ({ lrecord0 with fn := .platformWarn 32 }).inRange = true
    ∧ ({ lrecord0 with fn := .zoneFault 64 }).inRange = false
    ∧ ({ lrecord0 with fn := .output (.zoneHeld 63) 3 true .on, report := .none }).inRange = true
    ∧ ({ lrecord0 with fn := .output (.zoneHeld 63) 3 true .on }).inRange = false
    ∧ ({ lrecord0 with fn := .output (.zoneFaulted 64) 3 true .on, report := .none }).inRange = false
    ∧ ({ lrecord0 with fn := .output (.platformFinal 0) 3 true .on, report := .none }).inRange = false
    ∧ ({ lrecord0 with fn := .output .alertRaised 4 true .on, report := .none }).inRange = false
    ∧ ({ lrecord0 with fn := .evac .full }).fn.isEvac = true ∧ lrecord0.fn.isEvac = false := by decide

theorem test_range_update : updateInRange 255 (.value 0) .left = true ∧ updateInRange 256 (.value 0) .left = false
    ∧ updateInRange 0 .left .left = false ∧ updateInRange 0 .cleared .left = true ∧ updateInRange 0 .left .cleared = true
    ∧ updateInRange 0 .left (.value 32) = true ∧ updateInRange 0 .left (.value 0) = false
    ∧ updateInRange 0 .left (.value 33) = false := by decide

theorem test_range_announce : announce0.inRange = true ∧ ({ announce0 with template := 128 }).inRange = false
    ∧ ({ announce0 with priority := some 14 }).inRange = false ∧ ({ announce0 with group := some 32 }).inRange = false
    ∧ ({ values0 with platform := some 0 }).inRange = false ∧ ({ values0 with platform := some 33 }).inRange = false
    ∧ ({ values0 with destination := some 256 }).inRange = false ∧ ({ values0 with scheduled := some 4294967295 }).inRange = true
    ∧ ({ values0 with scheduled := some 4294967296 }).inRange = false
    ∧ ({ values0 with expected := some 4294967296 }).inRange = false ∧ ({ values0 with delay := some 65536 }).inRange = false := by
  decide

theorem test_range_programme : programme0.inRange = true ∧ ({ programme0 with lane := some 32 }).inRange = false
    ∧ ({ programme0 with alertList := List.replicate 8 (.clip 1023) }).inRange = true
    ∧ ({ programme0 with alertList := List.replicate 9 (.clip 0) }).inRange = false
    ∧ ({ programme0 with evacList := List.replicate 9 (.clip 0) }).inRange = false
    ∧ ({ programme0 with evacList := [.clip 1024] }).inRange = false ∧ ({ programme0 with alertList := [.tone 4 1] }).inRange = false
    ∧ ({ programme0 with evacList := [.tone 3 0] }).inRange = false ∧ ({ programme0 with evacList := [.tone 3 101] }).inRange = false
    ∧ ({ programme0 with duration := 301 }).inRange = false
    ∧ ({ programme0 with lines := Vector.replicate 16 (some ⟨.full, .activeLow, 255⟩) }).inRange = true
    ∧ ({ programme0 with lines := Vector.replicate 16 (some ⟨.full, .activeLow, 256⟩) }).inRange = false := by decide +kernel

end Sys2Proof.Tests
end

section
/-! PROOFS. Power and reset: the values of the power-on column, the loss of power, the reset line. -/

namespace Sys2Proof.Zones

open Sys2Proof.Machine Sys2Proof.Laws Sys2Proof.Statements

/-- A table of one value reads as that value everywhere, when it is also what the table reads as beyond its end. -/
@[simp] theorem tget_replicate {α : Type} (d : α) (n i : Nat) : tget d (Vector.replicate n d) i = d := by
  by_cases h : i < n
  · simp [tget_of_lt d _ h]
  · exact tget_of_ge d _ (Nat.not_lt.mp h)

/-! ### The tables at power-on, read through their accessors -/

theorem powerOn_zone (z : Nat) : Vol.powerOn.zone z = .initial := tget_replicate _ _ _
theorem powerOn_group (g : Nat) : Vol.powerOn.group g = [] := tget_replicate _ _ _
theorem powerOn_platform (p : Nat) : Vol.powerOn.platform p = .initial := tget_replicate _ _ _
theorem powerOn_claim (c : Nat) : Vol.powerOn.claim c = none := tget_replicate _ _ _
theorem powerOn_source (l : Nat) : Vol.powerOn.source l = none := tget_replicate _ _ _
theorem powerOn_gain (z : Nat) : Vol.powerOn.gain z = .initial := tget_replicate _ _ _
theorem powerOn_call (c : Nat) : Vol.powerOn.call c = none := tget_replicate _ _ _
theorem powerOn_profile (p : Nat) : Vol.powerOn.profile p = .initial := tget_replicate _ _ _
theorem powerOn_template (t : Nat) : Vol.powerOn.template t = none := tget_replicate _ _ _
theorem powerOn_voice (v : Nat) : Vol.powerOn.voice v = .initial := tget_replicate _ _ _
theorem powerOn_line (l : Nat) : Vol.powerOn.line l = .initial := tget_replicate _ _ _
theorem powerOn_gen (g : Nat) : Vol.powerOn.gen g = .initial := tget_replicate _ _ _
theorem powerOn_port (p : Nat) : Vol.powerOn.port p = .initial := tget_replicate _ _ _
theorem powerOn_place (i : Nat) : tget none Vol.powerOn.engine.places i = none := tget_replicate _ _ _

theorem exec_powerOn (s : State) : exec .powerOn s = .next (applyPower s) := rfl
theorem exec_powerLoss (s : State) : exec .powerLoss s = .next (losePower s) := rfl
theorem exec_lineReset (s : State) : exec .lineReset s = .next (assertReset s) := rfl

/-- Settles O4: the tables are read by the lemmas above, all other fields stand as they are written in `Vol.powerOn`. -/
theorem powerOnValues : Obligations.PowerOnValues := by
  intro s
  refine ⟨applyPower s, exec_powerOn s, rfl, rfl, rfl, ?_⟩
  have hvol : (applyPower s).vol = Vol.powerOn := rfl
  rw [hvol]
  simp only [powerOn_zone, powerOn_group, powerOn_platform, powerOn_claim, powerOn_source, powerOn_gain, powerOn_call,
    powerOn_profile, powerOn_template, powerOn_voice, powerOn_line, powerOn_gen, powerOn_port, powerOn_place]
  simp [Vol.powerOn, Vol.storeStarting, PhrasesEmpty, Zone.initial, Platform.initial, Gain.initial, StationClock.initial,
    Profile.initial, RequestQueue.initial, Voice.initial, StoreCtl.initial, Generator.initial, Evac.initial, Line.initial,
    Port.initial, Engine.initial, AlignBuffer.initial, FrameClock.initial, Config.mute]

/-! ### The loss of power and the reset line -/

theorem powerLossKeepsTheStore : PowerLossKeepsTheStore := fun s => ⟨losePower s, exec_powerLoss s, rfl, rfl, rfl⟩

theorem assertReset_off {s : State} (h : s.power = .off) : assertReset s = s := if_pos h

theorem assertReset_on {s : State} (h : s.power ≠ .off) :
    assertReset s = { s with power := .held, vol := s.vol.lineReset } := if_neg h

/-- R6, R16: of a zone record the reset line leaves the fault history. -/
theorem lineReset_zone (w : Vol) {z : Nat} (hz : z < 64) :
    w.lineReset.zone z = { Zone.initial with history := (w.zone z).history } := by
  simp [Vol.zone, Vol.lineReset, tget_of_lt _ _ hz]

/-- R136: a resident programme write runs on over the reset line. -/
theorem lineReset_store_programWrite {w : Vol} {p : Programme} {n : Nat} (h : w.store.op = .programWrite p n) :
    w.lineReset.store = { StoreCtl.initial with op := .programWrite p n } := by
  simp [Vol.lineReset, h]

/-- R138: without one the store controller starts again. -/
theorem lineReset_store_initial {w : Vol} (h : w.store.op.isProgramWrite = false) : w.lineReset.store = .initial := by
  cases hop : w.store.op with
  | programWrite p n => simp [hop, StoreOp.isProgramWrite] at h
  | _ => simp [Vol.lineReset, hop, StoreCtl.initial]

theorem lineResetValues : LineResetValues := by
  intro s
  refine ⟨fun h => by rw [exec_lineReset, assertReset_off h], fun h => ?_⟩
  rw [exec_lineReset, assertReset_on h]
  refine ⟨_, rfl, rfl, rfl, rfl, ?_, rfl, ?_, ?_, rfl⟩
  · exact fun z hz => lineReset_zone s.vol hz
  · exact fun p n hop => lineReset_store_programWrite hop
  · exact fun hop => lineReset_store_initial hop

/-- Settles O5. -/
theorem powerLossAndLineReset : Obligations.PowerLossAndLineReset := ⟨powerLossKeepsTheStore, lineResetValues⟩

end Sys2Proof.Zones
end

section
/-! PROOFS. The zone table: reports and the silence timer (1.6), the requests that write zones, groups and platforms (1.1 to
1.5). -/

namespace Sys2Proof.Zones

open Sys2Proof.Machine Sys2Proof.Laws Sys2Proof.Statements

/-! ### Zone reports (R12 to R14) -/

theorem exec_zoneReport {s : State} (hr : s.running = true) (p : Fin 4) (r : ReportMessage) :
    exec (.zoneReport p r) s = .next (takeReport p r s) := by
  have : exec (.zoneReport p r) s = .next (whenRunning s (takeReport p r)) := rfl
  simp [this, whenRunning, hr]

theorem exec_zoneSilenceExpiry (z : Fin 64) (s : State) : exec (.zoneSilenceExpiry z) s
    = .next (takeMark (.silence z) (fun w => w.silenceDue z) (fun nv w => w.zoneEvent nv z Zone.goSilent) s) := rfl

theorem takeReport_discarded {p : Nat} {r : ReportMessage} {s : State} (h : s.vol.reportTarget p r = none) :
    takeReport p r s = { s with vol := { s.vol with reportDiscards := min 255 (s.vol.reportDiscards + 1) } } := by
  simp [takeReport, h, satInc]

theorem takeReport_applied {p : Nat} {r : ReportMessage} {s : State} {z : Nat} {c : LineCond}
    (h : s.vol.reportTarget p r = some (z, c)) :
    takeReport p r s = State.finish { s with vol := s.vol.zoneEvent s.nv z fun x =>
      ({ x with silence := 0, ambient := r.ambient }).applyCondition c } := by
  simp [takeReport, h]
  rfl

theorem passes_iff (r : ReportMessage) :
    r.passes = true ↔ r.cls = 3 ∧ r.kind = 78 ∧ r.slot < 16 ∧ ∀ a, r.ambient = some a → 30 ≤ a ∧ a ≤ 110 := by
  simp [ReportMessage.passes, optWithin_iff, and_assoc]

theorem reportedCond_of_ge {n : Nat} (h : 4 ≤ n) : reportedCond n = none := by
  match n, h with
  | _ + 4, _ => rfl

/-- The four codes of a reported condition (1.6). -/
theorem reportedCond_coded {n : Nat} {c : LineCond}
    (h : (n, c) ∈ [(0, LineCond.normal), (1, .hot), (2, .opened), (3, .short)]) : reportedCond n = some c := by
  simp only [List.mem_cons, Prod.mk.injEq, List.not_mem_nil, or_false] at h
  obtain ⟨rfl, rfl⟩ | ⟨rfl, rfl⟩ | ⟨rfl, rfl⟩ | ⟨rfl, rfl⟩ := h <;> rfl

theorem zoneAt_eq_none {w : Vol} {p q : Nat} (h : ∀ z < 64, (w.zone z).placement ≠ some (p, q)) : w.zoneAt p q = none := by
  simpa [Vol.zoneAt] using h

theorem zoneAt_eq_some {w : Vol} {p q z : Nat} (hz : z < 64) (h : (w.zone z).placement = some (p, q))
    (hlow : ∀ y < z, (w.zone y).placement ≠ some (p, q)) : w.zoneAt p q = some z := by
  rw [Vol.zoneAt, List.find?_range_eq_some]
  simp [hz, h]
  exact hlow

/-- R12: what discards a message of a downstream channel. -/
theorem reportTarget_eq_none {w : Vol} {p : Nat} {r : ReportMessage}
    (h : r.cls ≠ 3 ∨ r.kind ≠ 78 ∨ 16 ≤ r.slot ∨ 4 ≤ r.condition ∨ (∃ a, r.ambient = some a ∧ (a < 30 ∨ 110 < a))
      ∨ ∀ z < 64, (w.zone z).placement ≠ some (p, r.slot)) : w.reportTarget p r = none := by
  unfold Vol.reportTarget
  split
  next hp =>
    obtain ⟨hcls, hkind, hslot, hambient⟩ := (passes_iff r).mp hp
    rcases h with h | h | h | h | ⟨a, ha, h⟩ | h
    · exact absurd hcls h
    · exact absurd hkind h
    · omega
    · simp [reportedCond_of_ge h]
    · have := hambient a ha
      omega
    · simp [zoneAt_eq_none h]
  next => rfl

theorem reportTarget_eq_some {w : Vol} {p z : Nat} {c : LineCond} {r : ReportMessage} (hp : r.passes = true)
    (hc : reportedCond r.condition = some c) (hz : w.zoneAt p r.slot = some z) : w.reportTarget p r = some (z, c) := by
  simp [Vol.reportTarget, hp, hc, hz]

/-- R14: the block mark that brings the silence timer of a placed zone to 5,000. -/
theorem silenceDue_of_4999 {w : Vol} {z : Nat} (he : (w.zone z).enabled = true) (hp : (w.zone z).placement ≠ none)
    (hs : (w.zone z).silence = 4999) : w.silenceDue z = true := by
  simp [Vol.silenceDue, Zone.on, he, hs, Config.silenceLimit, Option.isSome_iff_ne_none, hp]

/-- Settles O53. -/
theorem zoneReports : Obligations.ZoneReports := by
  refine ⟨fun p r s hr => ⟨fun h => ?_, ?_⟩, fun z s hm he hp hs => ?_⟩
  · rw [exec_zoneReport hr, takeReport_discarded (reportTarget_eq_none h)]
  · intro z c hz hcls hkind hslot hc hambient hplaced hlow
    have hpass : r.passes = true := (passes_iff r).mpr ⟨hcls, hkind, hslot, hambient⟩
    have htarget := reportTarget_eq_some hpass (reportedCond_coded hc) (zoneAt_eq_some hz hplaced hlow)
    exact ⟨_, by rw [exec_zoneReport hr, takeReport_applied htarget], finish_ends _⟩
  · have hdue := silenceDue_of_4999 he hp hs
    rw [Happens, exec_zoneSilenceExpiry, takeMark_due hm hdue]
    exact ⟨_, rfl, finish_ends _⟩

/-! ### Requests that write the tables -/

/-- A TABLE WRITE whose owner refuses it changes nothing but its reply. -/
theorem declines_of_refuse {i : Instr} {h : RequestHeader} {s : State} {place : Nat} (hs : s.Reaches i h place) {act : Act}
    (he : exec i s = .next (takeRequest h 6 i.wf act s)) {code : ResultCode} (ha : act s = refuse code s) :
    Declines i s h 6 place code :=
  ⟨_, he, takeRequest_ends hs (by decide) act ha⟩

/-- A TABLE WRITE whose owner answers OK leaves the volatile state its owner gives. -/
theorem answers_of_okVol {i : Instr} {h : RequestHeader} {s : State} {place : Nat} (hs : s.Reaches i h place) {act : Act}
    (he : exec i s = .next (takeRequest h 6 i.wf act s)) {w : Vol} (ha : act s = okVol s w) :
    Answers i s { s with vol := w } h 6 place .ok :=
  ⟨_, he, takeRequest_ends hs (by decide) act ha⟩

theorem exec_tableWriteZone (h : RequestHeader) (r : ZoneRecord) (s : State) : exec (.tableWriteZone h r) s
    = .next (takeRequest h 6 (Instr.wf (.tableWriteZone h r)) (actWriteZone r) s) := rfl

theorem exec_tableWriteGroup (h : RequestHeader) (g : Nat) (ms : List Nat) (s : State) : exec (.tableWriteGroup h g ms) s
    = .next (takeRequest h 6 (Instr.wf (.tableWriteGroup h g ms)) (actWriteGroup g ms) s) := rfl

theorem exec_tableWritePlatform (h : RequestHeader) (p : Nat) (g t : Option Nat) (s : State) :
    exec (.tableWritePlatform h p g t) s
      = .next (takeRequest h 6 (Instr.wf (.tableWritePlatform h p g t)) (actWritePlatform p g t) s) := rfl

/-! ### Ordered insertion -/

theorem insertBy_perm {α : Type} (lt : α → α → Bool) (x : α) (l : List α) : (insertBy lt x l).Perm (x :: l) := by
  induction l with
  | nil => exact .refl _
  | cons y t ih =>
    unfold insertBy
    split
    · exact .refl _
    · exact (ih.cons y).trans (.swap x y t)

theorem sortBy_perm {α : Type} (lt : α → α → Bool) (l : List α) : (sortBy lt l).Perm l := by
  induction l with
  | nil => exact .refl _
  | cons x t ih => exact (insertBy_perm lt x _).trans (ih.cons x)

/-- An insertion goes behind what it does not precede, and before what it precedes. -/
theorem insertBy_append {α : Type} {lt : α → α → Bool} {x : α} {a b : List α} (ha : ∀ d ∈ a, lt x d = false)
    (hb : ∀ d, b.head? = some d → lt x d = true) : insertBy lt x (a ++ b) = a ++ x :: b := by
  induction a with
  | nil =>
    cases b with
    | nil => rfl
    | cons y t => simp [insertBy, hb y rfl]
  | cons y t ih =>
    have hy : lt x y = false := ha y (by simp)
    simp [insertBy, hy, ih fun d hd => ha d (by simp [hd])]

/-- Ordered insertion finds the one order there is: a list that stands in an order without two elements each before the other
is what the sort of its elements gives. -/
theorem sortBy_eq_of_pairwise {α : Type} {lt : α → α → Bool} (asymm : ∀ a b, lt a b = true → lt b a = false)
    {l cs : List α} (hp : l.Perm cs) (hs : cs.Pairwise fun a b => lt a b = true) : sortBy lt l = cs := by
  induction l generalizing cs with
  | nil => exact (List.nil_perm.mp hp).symm
  | cons x t ih =>
    obtain ⟨a, b, rfl⟩ := List.append_of_mem (hp.subset (List.mem_cons_self))
    have ht : t.Perm (a ++ b) := (hp.trans List.perm_middle).cons_inv
    obtain ⟨_, hxb, hab⟩ := List.pairwise_append.mp hs
    have hsub : (a ++ b).Pairwise fun a b => lt a b = true :=
      hs.sublist (List.Sublist.append_left (List.sublist_cons_self x b) a)
    rw [sortBy, ih ht hsub]
    apply insertBy_append
    · exact fun d hd => asymm d x (hab d hd x List.mem_cons_self)
    · exact fun d hd => List.rel_of_pairwise_cons hxb (List.mem_of_head? hd)

/-- Not after, by a key. -/
def keyLe {α : Type} (f : α → Nat) (a b : α) : Bool := decide (f a ≤ f b)

/-- Elements with different keys, sorted by their keys. -/
theorem sortBy_key_pairwise {α : Type} (f : α → Nat) {l : List α} (hn : l.Pairwise fun a b => f a ≠ f b) :
    (sortBy (fun a b => decide (f a < f b)) l).Pairwise fun a b => f a < f b := by
  have hperm : l.Perm (l.mergeSort (keyLe f)) := (List.mergeSort_perm l _).symm
  have hle : (l.mergeSort (keyLe f)).Pairwise fun a b => keyLe f a b = true :=
    List.pairwise_mergeSort (by simp [keyLe]; omega) (by simp [keyLe]; omega) l
  have hne : (l.mergeSort (keyLe f)).Pairwise fun a b => f a ≠ f b := (hperm.pairwise_iff fun h => Ne.symm h).mp hn
  have hlt : (l.mergeSort (keyLe f)).Pairwise fun a b => f a < f b :=
    (hle.and hne).imp fun ⟨h, hne⟩ => lt_of_le_of_ne (by simpa [keyLe] using h) hne
  have hsort := sortBy_eq_of_pairwise (lt := fun a b => decide (f a < f b)) (by simp; omega) hperm (by simpa using hlt)
  rwa [hsort]

/-! ### GROUP and PLATFORM (R7, R8, R10) -/

theorem distinct_iff (l : List Nat) : distinct l = true ↔ l.Nodup := by
  induction l with
  | nil => simp [distinct]
  | cons x t ih => simp [distinct, ih]

theorem groupInRange_iff (g : Nat) (ms : List Nat) :
    groupInRange g ms = true ↔ g < 32 ∧ (∀ z ∈ ms, z < 64) ∧ ms.Nodup := by
  simp [groupInRange, distinct_iff, and_assoc]

/-- The members of a group record, sorted. -/
def ascending (ms : List Nat) : List Nat := sortBy (fun a e => decide (a < e)) ms

theorem mem_ascending (ms : List Nat) (z : Nat) : z ∈ ascending ms ↔ z ∈ ms := (sortBy_perm _ ms).mem_iff

theorem actWriteGroup_badArg {g : Nat} {ms : List Nat} (s : State) (h : groupInRange g ms = false) :
    actWriteGroup g ms s = refuse .badArg s := by
  simp [actWriteGroup, h]

theorem actWriteGroup_resident {ms : List Nat} {s : State} (h : groupInRange 31 ms = true) (hm : s.vol.mode = .normal) :
    actWriteGroup 31 ms s = refuse .resident s := by
  simp [actWriteGroup, h, hm]

theorem actWriteGroup_evacActive {ms : List Nat} {s : State} (h : groupInRange 31 ms = true)
    (hm : s.vol.mode = .maintenance) (he : s.vol.evac.state ≠ .normal) :
    actWriteGroup 31 ms s = refuse .evacActive s := by
  simp [actWriteGroup, h, hm, he]

theorem actWriteGroup_passes {g : Nat} {ms : List Nat} {s : State} (h : groupInRange g ms = true)
    (hr : g = 31 → s.vol.mode = .maintenance ∧ s.vol.evac.state = .normal) :
    actWriteGroup g ms s = okVol s (s.vol.setGroup g (ascending ms)) := by
  by_cases hg : g = 31
  · obtain ⟨hm, he⟩ := hr hg
    simp [actWriteGroup, h, hm, he, ascending]
  · simp [actWriteGroup, h, hg, ascending]

theorem actWritePlatform_passes {p : Nat} {g t : Option Nat} (s : State)
    (h : 1 ≤ p ∧ p ≤ 32 ∧ (∀ x, g = some x → x < 32) ∧ ∀ x, t = some x → x < 128) :
    actWritePlatform p g t s
      = okVol s (s.vol.setPlatform p { s.vol.platform p with group := g, warning := t }) := by
  rw [actWritePlatform, if_pos (by simpa [within_iff, optBelow_iff, and_assoc] using h)]
  rfl

theorem actWritePlatform_badArg {p : Nat} {g t : Option Nat} (s : State)
    (h : ¬ (1 ≤ p ∧ p ≤ 32 ∧ (∀ x, g = some x → x < 32) ∧ ∀ x, t = some x → x < 128)) :
    actWritePlatform p g t s = refuse .badArg s := by
  rw [actWritePlatform, if_neg (by simpa [within_iff, optBelow_iff, and_assoc] using h)]

/-- Settles O23. -/
theorem groupAndPlatformWritten : Obligations.GroupAndPlatformWritten := by
  refine ⟨fun h g ms s place hs => ?_, fun h p g t s place hs => ⟨fun hp => ?_, fun hp => ?_⟩⟩
  · have he := exec_tableWriteGroup h g ms s
    have writes (hg : g < 32) (hz : ∀ z ∈ ms, z < 64) (hn : ms.Nodup)
        (hr : g = 31 → s.vol.mode = .maintenance ∧ s.vol.evac.state = .normal) :
        ∃ l, l.Pairwise (· < ·) ∧ (∀ z, z ∈ l ↔ z ∈ ms)
          ∧ Answers (.tableWriteGroup h g ms) s { s with vol := s.vol.setGroup g l } h 6 place .ok :=
      ⟨ascending ms, sortBy_key_pairwise id hn, mem_ascending ms,
        answers_of_okVol hs he (actWriteGroup_passes ((groupInRange_iff g ms).mpr ⟨hg, hz, hn⟩) hr)⟩
    refine ⟨?_, ?_, ?_, ?_, ?_⟩
    · intro hbad
      refine declines_of_refuse hs he (actWriteGroup_badArg s ?_)
      rw [Bool.eq_false_iff, ne_eq, groupInRange_iff]
      rintro ⟨hg, hz, hn⟩
      rcases hbad with hbad | ⟨z, hmem, hbad⟩ | hbad
      · omega
      · exact absurd (hz z hmem) (by omega)
      · exact hbad hn
    · rintro rfl hz hn hm
      exact declines_of_refuse hs he (actWriteGroup_resident ((groupInRange_iff 31 ms).mpr ⟨by decide, hz, hn⟩) hm)
    · rintro rfl hz hn hm hev
      exact declines_of_refuse hs he (actWriteGroup_evacActive ((groupInRange_iff 31 ms).mpr ⟨by decide, hz, hn⟩) hm hev)
    · rintro hg hz hn rfl hr
      exact writes hg hz hn fun _ => hr
    · intro hg hz hn
      exact writes (by omega) hz hn fun h31 => absurd h31 (by omega)
  · exact answers_of_okVol hs (exec_tableWritePlatform h p g t s) (actWritePlatform_passes s hp)
  · exact declines_of_refuse hs (exec_tableWritePlatform h p g t s) (actWritePlatform_badArg s hp)

/-! ### ZONE (R2 to R5, R14, R44) -/

theorem zone_on_iff (x : Zone) : x.on = true ↔ x.enabled = true ∧ x.placement ≠ none := by
  simp [Zone.on, Option.isSome_iff_ne_none]

theorem zone_off_iff (x : Zone) : x.on = false ↔ x.enabled = false ∨ x.placement = none := by
  rw [← Bool.not_eq_true, zone_on_iff]
  cases x.enabled <;> simp

/-- R1: a zone is OFF exactly when it takes no part in arbitration. -/
theorem state_off_iff (x : Zone) : x.state = .off ↔ x.enabled = false ∨ x.placement = none := by
  rw [← zone_off_iff]
  unfold Zone.state
  cases x.on
  · simp
  · by_cases hf : x.health = .faulted
    · simp [hf]
    · cases x.holder <;> simp [hf]

theorem placement_eq_some_iff (r : ZoneRecord) (p q : Nat) :
    r.placement = some (p, q) ↔ r.port = some p ∧ r.slot = some q := by
  cases hp : r.port <;> cases hq : r.slot <;> simp [ZoneRecord.placement, hp, hq]

theorem placementHeld_iff (w : Vol) (z : Nat) (x : Option (Nat × Nat)) :
    w.placementHeld z x = true ↔ x ≠ none ∧ ∃ y < 64, y ≠ z ∧ (w.zone y).placement = x := by
  simp [Vol.placementHeld, Option.isSome_iff_ne_none]

/-- The zone record with the writable fields of a table write, its supervision not yet looked at. -/
def configuredBy (x : Zone) (r : ZoneRecord) : Zone :=
  { x with
    placement := r.placement, enabled := r.enabled, bgLane := r.bgLane, bgBase := r.bgBase, duck := r.duck,
    fgBase := r.fgBase, evacBase := r.evacBase, fallback := r.fallback, compOn := r.compOn, compRef := r.compRef,
    compLimit := r.compLimit }

/-- R5: on a new line the supervision starts afresh. -/
theorem written_new_line {x : Zone} {r : ZoneRecord} (h : r.placement.isSome = true ∧ r.placement ≠ x.placement) :
    x.written r = (configuredBy x r).freshSupervision := by
  unfold Zone.written
  dsimp only
  rw [if_pos h]
  split <;> rfl

/-- R4, R5, R14: without a new line only the silence timer is set, to 0, when the zone is turned on. -/
theorem written_kept_line {x : Zone} {r : ZoneRecord} (h : ¬ (r.placement.isSome = true ∧ r.placement ≠ x.placement)) :
    x.written r = { configuredBy x r with
      silence := if x.on = false ∧ (configuredBy x r).on = true then 0 else x.silence } := by
  unfold Zone.written
  dsimp only
  rw [if_neg h]
  by_cases hon : x.on = false ∧ (configuredBy x r).on = true
  · rw [if_pos hon]
    exact if_pos hon
  · rw [if_neg hon]
    exact if_neg hon

/-- R3: a write sets every writable field; it leaves the external flag, the history, the holder and the wait list. -/
theorem written_fields (x : Zone) (r : ZoneRecord) :
    (x.written r).placement = r.placement ∧ (x.written r).enabled = r.enabled ∧ (x.written r).bgLane = r.bgLane
      ∧ (x.written r).bgBase = r.bgBase ∧ (x.written r).duck = r.duck ∧ (x.written r).fgBase = r.fgBase
      ∧ (x.written r).evacBase = r.evacBase ∧ (x.written r).fallback = r.fallback ∧ (x.written r).compOn = r.compOn
      ∧ (x.written r).compRef = r.compRef ∧ (x.written r).compLimit = r.compLimit ∧ (x.written r).extFault = x.extFault
      ∧ (x.written r).history = x.history ∧ (x.written r).holder = x.holder := by
  by_cases h : r.placement.isSome = true ∧ r.placement ≠ x.placement
  · rw [written_new_line h]
    exact ⟨rfl, rfl, rfl, rfl, rfl, rfl, rfl, rfl, rfl, rfl, rfl, rfl, rfl, rfl⟩
  · rw [written_kept_line h]
    exact ⟨rfl, rfl, rfl, rfl, rfl, rfl, rfl, rfl, rfl, rfl, rfl, rfl, rfl, rfl⟩

theorem written_on (x : Zone) (r : ZoneRecord) : (x.written r).on = (configuredBy x r).on := by
  obtain ⟨hplaced, henabled, _⟩ := written_fields x r
  rw [Zone.on, hplaced, henabled]
  rfl

theorem leavesOff_iff (w : Vol) (r : ZoneRecord) : w.leavesOff r = true ↔ w.evac.state ≠ .normal ∧ r.zone ∈ w.group 31
    ∧ (w.zone r.zone).state ≠ .off ∧ (r.enabled = false ∨ r.placement = none) := by
  have hon : (w.zone r.zone).on = true ↔ (w.zone r.zone).state ≠ .off := by
    rw [ne_eq, state_off_iff, ← zone_off_iff, Bool.not_eq_false]
  have hleft : ((w.zone r.zone).written r).on = false ↔ r.enabled = false ∨ r.placement = none := by
    obtain ⟨hplaced, henabled, _⟩ := written_fields (w.zone r.zone) r
    rw [zone_off_iff, hplaced, henabled]
  simp [Vol.leavesOff, hon, hleft, and_assoc]

/-- Port and slot of a zone record: both in range or both none. -/
def lineInRange (r : ZoneRecord) : Bool :=
  match r.port, r.slot with
  | none, none => true
  | some p, some q => decide (p < 4) && decide (q < 16)
  | _, _ => false

theorem lineInRange_iff (r : ZoneRecord) : lineInRange r = true
    ↔ (r.port = none ∧ r.slot = none) ∨ ∃ p q, r.port = some p ∧ r.slot = some q ∧ p ≤ 3 ∧ q ≤ 15 := by
  unfold lineInRange
  cases r.port <;> cases r.slot <;> simp
  omega

theorem inRange_eq (r : ZoneRecord) : r.inRange = (decide (r.zone < 64) && lineInRange r && optBelow 32 r.bgLane
    && decide (r.bgBase ≤ 191) && decide (r.duck ≤ 80) && decide (r.fgBase ≤ 191) && decide (r.evacBase ≤ 191)
    && optBelow 64 r.fallback && within 40 90 r.compRef && decide (r.compLimit ≤ 24)) := rfl

theorem inRange_iff (r : ZoneRecord) : r.inRange = true ↔ r.zone ≤ 63
    ∧ ((r.port = none ∧ r.slot = none) ∨ ∃ p q, r.port = some p ∧ r.slot = some q ∧ p ≤ 3 ∧ q ≤ 15)
    ∧ (∀ l, r.bgLane = some l → l ≤ 31) ∧ r.bgBase ≤ 191 ∧ r.duck ≤ 80 ∧ r.fgBase ≤ 191 ∧ r.evacBase ≤ 191
    ∧ (∀ z, r.fallback = some z → z ≤ 63) ∧ 40 ≤ r.compRef ∧ r.compRef ≤ 90 ∧ r.compLimit ≤ 24 := by
  simp only [inRange_eq, Bool.and_eq_true, decide_eq_true_eq, lineInRange_iff, optBelow_iff, within_iff, and_assoc,
    Nat.lt_succ_iff]

theorem zoneRanges : ZoneRanges :=
  ⟨inRange_iff, placement_eq_some_iff, placementHeld_iff, leavesOff_iff⟩

/-! The four checks of R3 in their order, and the write. -/

theorem actWriteZone_badArg {r : ZoneRecord} (s : State) (h : r.inRange = false) :
    actWriteZone r s = refuse .badArg s := by
  simp [actWriteZone, h]

theorem actWriteZone_resident {r : ZoneRecord} {s : State} (h : r.inRange = true) (hm : s.vol.mode = .normal)
    (hne : r.placement ≠ (s.vol.zone r.zone).placement ∨ r.evacBase ≠ (s.vol.zone r.zone).evacBase) :
    actWriteZone r s = refuse .resident s := by
  have : ¬ (r.placement = (s.vol.zone r.zone).placement ∧ r.evacBase = (s.vol.zone r.zone).evacBase) := by tauto
  simp [actWriteZone, h, hm, this]

/-- A record in range that passes the check of residence comes to the checks of conflict and of evacuation. -/
theorem actWriteZone_passed {r : ZoneRecord} {s : State} (h : r.inRange = true) (hp : PassesResident s.vol r) :
    actWriteZone r s =
      if s.vol.placementHeld r.zone r.placement then refuse .conflict s
      else if s.vol.leavesOff r then refuse .evacActive s
      else okVol s ((s.vol.setGain r.zone { s.vol.gain r.zone with stagedFg := none, stagedBg := none }).zoneEvent s.nv
        r.zone fun x => x.written r) := by
  have hres : ¬ (s.vol.mode = .normal ∧
      ¬ (r.placement = (s.vol.zone r.zone).placement ∧ r.evacBase = (s.vol.zone r.zone).evacBase)) := by
    rintro ⟨hm, hne⟩
    rcases hp with hp | hp
    · simp [hm] at hp
    · exact hne hp
  simp only [actWriteZone, h, Bool.not_true, Bool.false_eq_true, if_false, if_neg hres]
  rfl

theorem zoneWriteRefused : ZoneWriteRefused := by
  intro h r s place hs
  have he := exec_tableWriteZone h r s
  refine ⟨fun hr => ?_, fun hr hm hne => ?_, fun hr hp hheld => ?_, fun hr hp hfree hev hmem hon hoff => ?_⟩
  · exact declines_of_refuse hs he (actWriteZone_badArg s hr)
  · exact declines_of_refuse hs he (actWriteZone_resident hr hm hne)
  · obtain ⟨z, hz, hne, hsome, hplaced⟩ := hheld
    have hheld : s.vol.placementHeld r.zone r.placement = true :=
      (placementHeld_iff _ _ _).mpr ⟨Option.isSome_iff_ne_none.mp hsome, z, hz, hne, hplaced⟩
    exact declines_of_refuse hs he (by rw [actWriteZone_passed hr hp, if_pos hheld])
  · have hleft : s.vol.leavesOff r = true := (leavesOff_iff _ _).mpr ⟨hev, hmem, hon, hoff⟩
    exact declines_of_refuse hs he (by rw [actWriteZone_passed hr hp, if_neg (by simp [hfree]), if_pos hleft])

theorem zoneWritten : ZoneWritten := by
  intro h r s place hs hr hp hfree hstays
  refine ⟨answers_of_okVol hs (exec_tableWriteZone h r s) ?_, fun x => ?_⟩
  · rw [actWriteZone_passed hr hp, if_neg (by simp [hfree]), if_neg (by simp [hstays])]
  · obtain ⟨h1, h2, h3, h4, h5, h6, h7, h8, h9, h10, h11, h12, h13, h14⟩ := written_fields x r
    refine ⟨h1, h2, h3, h4, h5, h6, h7, h8, h9, h10, h11, h12, h13, h14, fun hsome hne => ?_, fun hkept => ?_⟩
    · rw [written_new_line ⟨hsome, hne⟩]
      exact ⟨rfl, rfl, rfl, rfl⟩
    · have hold : ¬ (r.placement.isSome = true ∧ r.placement ≠ x.placement) := by
        rintro ⟨hsome, hne⟩
        rcases hkept with hkept | hkept
        · simp [hkept] at hsome
        · exact hne hkept
      rw [written_on, written_kept_line hold]
      exact ⟨rfl, rfl, rfl, rfl⟩

/-- Settles O22. -/
theorem zoneTable : Obligations.ZoneTable := ⟨zoneWriteRefused, zoneRanges, zoneWritten⟩

end Sys2Proof.Zones
end

section
/-! PROOFS. Derivations of the zone table and of the claim table: health and state of a zone (R1), the condition table (R13),
the state of a claim (R19), obtainable zones (R20), the fallback walk (R30). -/

namespace Sys2Proof.Zones

open Sys2Proof.Machine Sys2Proof.Laws Sys2Proof.Statements

/-- Beyond the table a zone reads as one without placement. -/
theorem zone_beyond (w : Vol) {z : Nat} (h : ¬ z < 64) : w.zone z = .initial := tget_of_ge _ _ (Nat.not_lt.mp h)

/-! ### Health and state of a zone (R1) -/

theorem health_faulted_iff (x : Zone) :
    x.health = .faulted ↔ x.extFault = true ∨ x.cond = .opened ∨ x.cond = .short ∨ x.cond = .silent := by
  cases hx : x.extFault <;> cases hc : x.cond <;> simp [Zone.health, hx, hc]

theorem health_derated_iff (x : Zone) : x.health = .derated ↔ x.cond = .hot ∧ x.extFault = false := by
  cases hx : x.extFault <;> cases hc : x.cond <;> simp [Zone.health, hx, hc]

/-- R1 of a zone that is on: FAULTED by its health, else HELD or QUIET by its holder. -/
theorem state_of_on {x : Zone} (h : x.on = true) :
    x.state = if x.health = .faulted then .faulted else if x.holder.isSome then .held else .quiet := by
  simp [Zone.state, h]

theorem state_of_not_on {x : Zone} (h : x.on = false) : x.state = .off := by simp [Zone.state, h]

theorem state_faulted_iff (x : Zone) : x.state = .faulted ↔ x.enabled = true ∧ x.placement ≠ none
    ∧ (x.extFault = true ∨ x.cond = .opened ∨ x.cond = .short ∨ x.cond = .silent) := by
  rw [← health_faulted_iff, ← and_assoc, ← zone_on_iff]
  cases hon : x.on with
  | false => simp [state_of_not_on hon]
  | true =>
    rw [state_of_on hon]
    by_cases hf : x.health = .faulted
    · simp [hf]
    · cases x.holder <;> simp [hf]

theorem holder_of_held {x : Zone} (h : x.state = .held) : x.holder ≠ none := by
  intro hn
  cases hon : x.on with
  | false => simp [state_of_not_on hon] at h
  | true =>
    rw [state_of_on hon, hn] at h
    split at h <;> simp at h

theorem holder_of_quiet {x : Zone} (h : x.state = .quiet) : x.holder = none := by
  cases hn : x.holder with
  | none => rfl
  | some c =>
    cases hon : x.on with
    | false => simp [state_of_not_on hon] at h
    | true =>
      rw [state_of_on hon, hn] at h
      split at h <;> simp at h

/-- A HELD zone that loses its holder is QUIET. -/
theorem state_without_holder {x : Zone} (h : x.state = .held) : ({ x with holder := none } : Zone).state = .quiet := by
  have hon : x.on = true := by
    cases hon : x.on with
    | false => simp [state_of_not_on hon] at h
    | true => rfl
  have hf : x.health ≠ .faulted := fun hf => by simp [state_of_on hon, hf] at h
  rw [state_of_on (x := { x with holder := none }) hon]
  exact if_neg hf

/-! ### The condition table (R13) -/

theorem hard_iff (c : LineCond) : c.hard = true ↔ c = .opened ∨ c = .short := by simp [LineCond.hard]

theorem applyCondition_hard {x : Zone} {r : LineCond} (h : r.hard = true) :
    x.applyCondition r = { x with history := x.history.join r, cond := r, normals := 0 } := by
  simp [Zone.applyCondition, h]

theorem applyCondition_soft {x : Zone} {r : LineCond} (hr : r.hard = false) (hx : x.cond.hard = false) :
    x.applyCondition r = { x with history := x.history.join r, cond := r } := by
  simp [Zone.applyCondition, hr, hx]

theorem applyCondition_normal {x : Zone} (hx : x.cond.hard = true) :
    x.applyCondition .normal =
      if x.normals + 1 ≥ 3 then { x with history := x.history.join .normal, cond := .normal, normals := 3 }
      else { x with history := x.history.join .normal, normals := x.normals + 1 } := by
  have hsoft : LineCond.normal.hard = false := rfl
  simp [Zone.applyCondition, hx, hsoft]

theorem applyCondition_hot {x : Zone} (hx : x.cond.hard = true) :
    x.applyCondition .hot = { x with history := x.history.join .hot, normals := 0 } := by
  have hsoft : LineCond.hot.hard = false := rfl
  simp [Zone.applyCondition, hx, hsoft]

theorem applyCondition_history (x : Zone) (r : LineCond) : (x.applyCondition r).history = x.history.join r := by
  unfold Zone.applyCondition
  dsimp only
  repeat' split
  all_goals rfl

/-- R13: the table of a reported condition, for NORMAL, HOT, OPEN and SHORT. -/
theorem conditionTable (x : Zone) (r : LineCond) (h : r = .normal ∨ r = .hot ∨ r = .opened ∨ r = .short) :
    (r = .opened ∨ r = .short → (x.applyCondition r).cond = r ∧ (x.applyCondition r).normals = 0)
    ∧ (x.cond ≠ .opened → x.cond ≠ .short → (x.applyCondition r).cond = r
        ∧ (r = .normal ∨ r = .hot → (x.applyCondition r).normals = x.normals))
    ∧ (x.cond = .opened ∨ x.cond = .short → r = .hot →
        (x.applyCondition r).cond = x.cond ∧ (x.applyCondition r).normals = 0)
    ∧ (x.cond = .opened ∨ x.cond = .short → r = .normal →
        (x.normals + 1 < 3 → (x.applyCondition r).cond = x.cond ∧ (x.applyCondition r).normals = x.normals + 1)
        ∧ (3 ≤ x.normals + 1 → (x.applyCondition r).cond = .normal ∧ (x.applyCondition r).normals = 3))
    ∧ (x.applyCondition r).history = x.history.join r := by
  refine ⟨fun hr => ?_, fun ho hs => ?_, fun hx hr => ?_, fun hx hr => ⟨fun hn => ?_, fun hn => ?_⟩,
    applyCondition_history x r⟩
  · rw [applyCondition_hard ((hard_iff r).mpr hr)]
    exact ⟨rfl, rfl⟩
  · have hx : x.cond.hard = false := by simp [LineCond.hard, ho, hs]
    cases hr : r.hard with
    | true =>
      rw [applyCondition_hard hr]
      refine ⟨rfl, ?_⟩
      rintro (rfl | rfl) <;> simp [LineCond.hard] at hr
    | false =>
      rw [applyCondition_soft hr hx]
      exact ⟨rfl, fun _ => rfl⟩
  · rw [hr, applyCondition_hot ((hard_iff _).mpr hx)]
    exact ⟨rfl, rfl⟩
  · rw [hr, applyCondition_normal ((hard_iff _).mpr hx), if_neg (by omega)]
    exact ⟨rfl, rfl⟩
  · rw [hr, applyCondition_normal ((hard_iff _).mpr hx), if_pos hn]
    exact ⟨rfl, rfl⟩

/-! ### The state of a claim (R19) -/

/-- R19: the state of a claim, derived from its elements. -/
theorem claimStates : ClaimStates := by
  intro c
  unfold Claim.state
  by_cases hh : ∃ e ∈ c.elems, e.status = .held
  · obtain ⟨e, he, hs⟩ := hh
    have hany : c.elems.any (fun e => decide (e.status = .held)) = true := by simpa using ⟨e, he, hs⟩
    simp only [hany, if_true, true_iff, reduceCtorEq, false_iff]
    exact ⟨⟨e, he, hs⟩, fun h => h.1 e he hs, fun h => (h e he).1 hs⟩
  · have hno : c.elems.any (fun e => decide (e.status = .held)) = false := by simpa using hh
    have hno' : ∀ e ∈ c.elems, e.status ≠ .held := by simpa using hh
    by_cases hw : ∃ e ∈ c.elems, e.status = .waiting
    · obtain ⟨e, he, hs⟩ := hw
      have hany : c.elems.any (fun e => decide (e.status = .waiting)) = true := by simpa using ⟨e, he, hs⟩
      simp only [hno, hany, Bool.false_eq_true, if_false, if_true, true_iff, reduceCtorEq, false_iff]
      exact ⟨hh, ⟨hno', e, he, hs⟩, fun h => (h e he).2 hs⟩
    · have hnw : c.elems.any (fun e => decide (e.status = .waiting)) = false := by simpa using hw
      have hnw' : ∀ e ∈ c.elems, e.status ≠ .waiting := by simpa using hw
      simp only [hno, hnw, Bool.false_eq_true, if_false, true_iff, reduceCtorEq, false_iff]
      exact ⟨hh, fun h => hw h.2, fun e he => ⟨hno' e he, hnw' e he⟩⟩

/-! ### Obtainable zones (R20) -/

theorem obtainableAt_iff (w : Vol) (p z : Nat) : w.obtainableAt p z = true ↔
    (w.zone z).state = .quiet ∨ ((w.zone z).state = .held ∧
      ∃ h c, (w.zone z).holder = some h ∧ w.claim h = some c ∧ c.priority < p) := by
  unfold Vol.obtainableAt
  split
  next hs => simp [hs]
  next h hs hh => cases hc : w.claim h <;> simp [hs, hh, hc]
  next hq hh =>
    simp only [Bool.false_eq_true, false_iff]
    rintro (h | ⟨h, k, c, hk, -⟩)
    · exact hq h
    · exact hh k h hk

theorem obtainable_of_claim {w : Vol} {c : Nat} {x : Claim} (h : w.claim c = some x) (z : Nat) :
    w.obtainable c z = w.obtainableAt x.priority z := by
  simp [Vol.obtainable, h]

/-- What is obtainable turns on the state and the holder of a zone and on the priority of that holder. -/
theorem obtainableAt_congr {w u : Vol} {z : Nat} (hs : (u.zone z).state = (w.zone z).state)
    (hh : (u.zone z).holder = (w.zone z).holder)
    (hp : ∀ h, (u.claim h).map (·.priority) = (w.claim h).map (·.priority)) (p : Nat) :
    u.obtainableAt p z = w.obtainableAt p z := by
  have lower (v : Vol) (h : Nat) :
      (∃ c, v.claim h = some c ∧ c.priority < p) ↔ ∃ q, (v.claim h).map (·.priority) = some q ∧ q < p := by simp
  rw [Bool.eq_iff_iff, obtainableAt_iff, obtainableAt_iff, hs, hh]
  simp only [exists_and_left, lower, hp]

/-- Only a zone of the table is obtainable. -/
theorem lt_of_obtainableAt {w : Vol} {p z : Nat} (h : w.obtainableAt p z = true) : z < 64 := by
  by_contra hz
  have hoff : Zone.initial.state = .off := by decide
  simp [obtainableAt_iff, zone_beyond w hz, hoff] at h

/-! ### The fallback walk (R30) -/

/-- QUIET or HELD: what the fallback walk looks for. -/
def Usable (w : Vol) (z : Nat) : Prop := (w.zone z).state = .quiet ∨ (w.zone z).state = .held

theorem fallbackWalk_succ {w : Vol} {k z y : Nat} {visited : List Nat} (h : (w.zone z).fallback = some y) :
    w.fallbackWalk (k + 1) visited z =
      if visited.contains y then none
      else if (w.zone y).state = .quiet ∨ (w.zone y).state = .held then some y
      else w.fallbackWalk k (y :: visited) y := by
  simp [Vol.fallbackWalk, h]

theorem fallbackWalk_none {w : Vol} {k z : Nat} {visited : List Nat} (h : (w.zone z).fallback = none) :
    w.fallbackWalk k visited z = none := by
  cases k <;> simp [Vol.fallbackWalk, h]

/-- The walk from `z` to `y`: `ys` are the zones after `z` up to `y`, each the fallback of the one before, none visited before,
and `y` alone QUIET or HELD. -/
inductive WalksTo (w : Vol) : List Nat → Nat → Nat → List Nat → Prop
  | last {visited z y} : (w.zone z).fallback = some y → y ∉ visited → Usable w y → WalksTo w visited z y [y]
  | hop {visited z x y ys} : (w.zone z).fallback = some x → x ∉ visited → ¬ Usable w x →
      WalksTo w (x :: visited) x y ys → WalksTo w visited z y (x :: ys)

theorem fallbackWalk_iff (w : Vol) (n : Nat) (visited : List Nat) (z y : Nat) :
    w.fallbackWalk n visited z = some y ↔ ∃ ys, ys.length ≤ n ∧ WalksTo w visited z y ys := by
  induction n generalizing visited z with
  | zero =>
    simp only [Vol.fallbackWalk, reduceCtorEq, Nat.le_zero, List.length_eq_zero_iff, false_iff, not_exists, not_and]
    rintro _ rfl h
    cases h
  | succ n ih =>
    constructor
    · intro h
      cases hx : (w.zone z).fallback with
      | none => simp [fallbackWalk_none hx] at h
      | some x =>
        rw [fallbackWalk_succ hx] at h
        split at h
        next => simp at h
        next hv =>
          have hv : x ∉ visited := by simpa using hv
          split at h
          next hu =>
            obtain rfl : x = y := by simpa using h
            exact ⟨[x], by simp, .last hx hv hu⟩
          next hu =>
            obtain ⟨ys, hlen, hw⟩ := (ih _ _).mp h
            exact ⟨x :: ys, by simpa using hlen, .hop hx hv hu hw⟩
    · rintro ⟨ys, hlen, hw⟩
      cases hw with
      | last hf hv hu =>
        rw [fallbackWalk_succ hf, if_neg (by simpa using hv)]
        exact if_pos hu
      | hop hf hv hu hw =>
        rw [fallbackWalk_succ hf, if_neg (by simpa using hv)]
        exact (if_neg hu).trans ((ih _ _).mpr ⟨_, by simpa using hlen, hw⟩)

/-- The end of a walk is QUIET or HELD and was not visited. -/
theorem WalksTo.ends {w : Vol} {visited : List Nat} {z y : Nat} {ys : List Nat} (h : WalksTo w visited z y ys) :
    y ∉ visited ∧ Usable w y := by
  induction h with
  | last _ hv hu => exact ⟨hv, hu⟩
  | hop _ _ _ _ ih => exact ⟨fun hm => ih.1 (List.mem_cons_of_mem _ hm), ih.2⟩

theorem substitute_iff (w : Vol) (z y : Nat) :
    w.substitute z = some y ↔ ∃ ys, ys.length ≤ 4 ∧ WalksTo w [z] z y ys := fallbackWalk_iff w 4 [z] z y

theorem substitute_usable {w : Vol} {z y : Nat} (h : w.substitute z = some y) : y ≠ z ∧ Usable w y := by
  obtain ⟨ys, -, hw⟩ := (substitute_iff w z y).mp h
  simpa using hw.ends

/-- A substitute is a zone of the table: what is read beyond it is OFF. -/
theorem substitute_lt {w : Vol} {z y : Nat} (h : w.substitute z = some y) : y < 64 := by
  by_contra hy
  have hu : Usable w y := (substitute_usable h).2
  rw [Usable, zone_beyond w hy] at hu
  exact absurd hu (by decide)

/-- A path of fallback fields from `z` to `y` in `k` hops, as `FallsBack` has it, that also avoids the zones visited. -/
def Avoids (w : Vol) (visited : List Nat) (z y k : Nat) (hop : Nat → Nat) : Prop :=
  FallsBack w z y k hop ∧ ∀ i, 1 ≤ i → i ≤ k → hop i ∉ visited

/-- The first hop of a path, put before a path from its end. -/
def firstHop (z : Nat) (hop : Nat → Nat) : Nat → Nat
  | 0 => z
  | i + 1 => hop i

theorem WalksTo.path {w : Vol} {visited : List Nat} {z y : Nat} {ys : List Nat} (h : WalksTo w visited z y ys)
    (hz : z ∈ visited) : ∃ hop, 1 ≤ ys.length ∧ Avoids w visited z y ys.length hop := by
  induction h with
  | @last visited z y hf hv hu =>
    refine ⟨firstHop z fun _ => y, by simp, ⟨rfl, rfl, ?_, ?_, ?_, hu⟩, ?_⟩
    · intro i hi
      obtain rfl : i = 0 := by simpa using hi
      exact hf
    · intro i j hij hj
      obtain ⟨rfl, rfl⟩ : i = 0 ∧ j = 1 := by simp at hj; omega
      intro he
      change z = y at he
      exact hv (he ▸ hz)
    · intro i h1 hk
      simp at hk
      omega
    · intro i h1 hk
      obtain rfl : i = 1 := by simp at hk; omega
      exact hv
  | @hop visited z x y ys hf hv hu hw ih =>
    obtain ⟨hop, hlen, ⟨h0, hk, hnext, hdiff, hmid, hend⟩, havoid⟩ := ih List.mem_cons_self
    have outside : ∀ i, i ≤ ys.length → hop i ∉ visited := by
      intro i hi
      match i with
      | 0 => rwa [h0]
      | i + 1 => exact fun hm => havoid (i + 1) (by omega) hi (List.mem_cons_of_mem _ hm)
    refine ⟨firstHop z hop, by simp, ⟨rfl, hk, ?_, ?_, ?_, hend⟩, ?_⟩
    · intro i hi
      match i with
      | 0 => rwa [firstHop, firstHop, h0]
      | i + 1 => exact hnext i (by simpa using hi)
    · intro i j hij hj
      match i, j with
      | 0, j + 1 => exact fun he => outside j (by simpa using hj) (by rw [firstHop, firstHop] at he; rwa [← he])
      | i + 1, j + 1 => exact hdiff i j (by omega) (by simpa using hj)
    · intro i h1 hi
      match i with
      | 1 =>
        rw [firstHop, h0]
        exact ⟨fun h => hu (.inl h), fun h => hu (.inr h)⟩
      | i + 2 => exact hmid (i + 1) (by omega) (by simp at hi; omega)
    · intro i h1 hi
      match i with
      | i + 1 => exact outside i (by simpa using hi)

theorem WalksTo.of_path {w : Vol} {k : Nat} : ∀ {visited : List Nat} {z y : Nat} {hop : Nat → Nat}, 1 ≤ k →
    Avoids w visited z y k hop → ∃ ys, ys.length = k ∧ WalksTo w visited z y ys := by
  induction k with
  | zero => intro _ _ _ _ h; omega
  | succ k ih =>
    rintro visited z y hop - ⟨⟨h0, hk, hnext, hdiff, hmid, hend⟩, havoid⟩
    have hf : (w.zone z).fallback = some (hop 1) := by rw [← h0]; exact hnext 0 (by omega)
    have hv : hop 1 ∉ visited := havoid 1 (by omega) (by omega)
    by_cases hk0 : k = 0
    · subst hk0
      rw [← hk] at hend ⊢
      exact ⟨[hop 1], rfl, .last hf hv hend⟩
    · have hu : ¬ Usable w (hop 1) := by
        rintro (h | h)
        · exact (hmid 1 (by omega) (by omega)).1 h
        · exact (hmid 1 (by omega) (by omega)).2 h
      obtain ⟨ys, hlen, hw⟩ := ih (visited := hop 1 :: visited) (z := hop 1) (y := y) (hop := fun i => hop (i + 1)) (by omega)
        ⟨⟨rfl, hk, fun i hi => hnext (i + 1) (by omega), fun i j hij hj => hdiff (i + 1) (j + 1) (by omega) (by omega),
          fun i h1 hi => hmid (i + 1) (by omega) (by omega), hend⟩, by
          intro i h1 hi hm
          rcases List.mem_cons.mp hm with hm | hm
          · exact hdiff 1 (i + 1) (by omega) (by omega) hm.symm
          · exact havoid (i + 1) (by omega) (by omega) hm⟩
      exact ⟨hop 1 :: ys, by simp [hlen], .hop hf hv hu hw⟩

theorem substituteFound : SubstituteFound := by
  intro w z y
  rw [substitute_iff]
  constructor
  · rintro ⟨ys, hlen, hw⟩
    obtain ⟨hop, h1, hpath⟩ := hw.path (List.mem_singleton.mpr rfl)
    exact ⟨ys.length, hop, h1, hlen, hpath.1⟩
  · rintro ⟨k, hop, h1, h4, hpath⟩
    have ⟨h0, _, _, hdiff, _⟩ := hpath
    have havoid : Avoids w [z] z y k hop :=
      ⟨hpath, fun i hi hk hm => hdiff 0 i (by omega) hk (by rw [h0, List.mem_singleton.mp hm])⟩
    obtain ⟨ys, hlen, hw⟩ := WalksTo.of_path h1 havoid
    exact ⟨ys, by omega, hw⟩

end Sys2Proof.Zones
end

section
/-! PROOFS. The arbiter's operations on zones and claims: what each changes, and that nothing else is changed. -/

namespace Sys2Proof.Zones

open Sys2Proof.Machine Sys2Proof.Laws Sys2Proof.Statements

/-! ### The elements of a claim -/

/-- A claim whose elements for zone `z` have status `st`. -/
def marked (x : Claim) (z : Nat) (st : Status) : Claim :=
  { x with elems := x.elems.map fun e => if e.zone = z then { e with status := st } else e }

/-- The zones of a claim, each with its via-zone. -/
def targets (x : Claim) : List (Nat × Option Nat) := x.elems.map fun e => (e.zone, e.via)

/-- A claim with one element more. -/
def extended (x : Claim) (e : Elem) : Claim := { x with elems := x.elems ++ [e] }

theorem mem_waitingZones (x : Claim) (z : Nat) :
    z ∈ x.waitingZones ↔ ∃ e ∈ x.elems, e.zone = z ∧ e.status = .waiting := by
  simp only [Claim.waitingZones, List.mem_map, List.mem_filter, decide_eq_true_eq]
  exact ⟨fun ⟨e, ⟨he, hs⟩, hz⟩ => ⟨e, he, hz, hs⟩, fun ⟨e, he, hz, hs⟩ => ⟨e, ⟨he, hs⟩, hz⟩⟩

theorem hasZone_iff (x : Claim) (z : Nat) : x.hasZone z = true ↔ ∃ e ∈ x.elems, e.zone = z := by simp [Claim.hasZone]

theorem hasZone_of_waiting {x : Claim} {z : Nat} (h : z ∈ x.waitingZones) : x.hasZone z = true := by
  obtain ⟨e, he, hz, -⟩ := (mem_waitingZones x z).mp h
  exact (hasZone_iff x z).mpr ⟨e, he, hz⟩

/-- A zone with a status is in the list. -/
theorem hasZone_of_statusOf {x : Claim} {z : Nat} {st : Status} (h : x.statusOf z = some st) : x.hasZone z = true := by
  obtain ⟨e, he, -⟩ := Option.map_eq_some_iff.mp h
  exact (hasZone_iff x z).mpr ⟨e, List.mem_of_find?_eq_some he, by simpa using List.find?_some he⟩

/-- A zone whose first element waits is among those the claim waits for. -/
theorem mem_waitingZones_of_statusOf {x : Claim} {z : Nat} (h : x.statusOf z = some .waiting) : z ∈ x.waitingZones := by
  obtain ⟨e, he, hs⟩ := Option.map_eq_some_iff.mp h
  exact (mem_waitingZones x z).mpr ⟨e, List.mem_of_find?_eq_some he, by simpa using List.find?_some he, hs⟩

/-- In a list of different zones each element is the one its zone is read by. -/
theorem statusOf_of_mem {x : Claim} (hn : (x.elems.map (·.zone)).Nodup) {e : Elem} (he : e ∈ x.elems) :
    x.statusOf e.zone = some e.status := by
  unfold Claim.statusOf
  generalize x.elems = es at hn he
  induction es with
  | nil => simp at he
  | cons d t ih =>
    rw [List.map_cons, List.nodup_cons] at hn
    rcases List.mem_cons.mp he with rfl | he
    · simp
    · have hne : d.zone ≠ e.zone := fun h => hn.1 (h ▸ List.mem_map_of_mem he)
      simpa [List.find?_cons, hne] using ih hn.2 he

theorem waitingZones_nodup {x : Claim} (hn : (x.elems.map (·.zone)).Nodup) : x.waitingZones.Nodup :=
  hn.sublist (List.filter_sublist.map _)

theorem marked_hasZone (x : Claim) (z y : Nat) (st : Status) : (marked x z st).hasZone y = x.hasZone y := by
  have (e : Elem) : (if e.zone = z then { e with status := st } else e : Elem).zone = e.zone := by split <;> rfl
  simp [Claim.hasZone, marked, List.any_map, Function.comp_def, this]

theorem marked_targets (x : Claim) (z : Nat) (st : Status) : targets (marked x z st) = targets x := by
  have (e : Elem) : ((if e.zone = z then { e with status := st } else e : Elem).zone,
      (if e.zone = z then { e with status := st } else e : Elem).via) = (e.zone, e.via) := by split <;> rfl
  simp [targets, marked, Function.comp_def, this]

theorem marked_statusOf_self {x : Claim} {z : Nat} (st : Status) (h : x.hasZone z = true) :
    (marked x z st).statusOf z = some st := by
  unfold Claim.statusOf marked
  rw [hasZone_iff] at h
  generalize x.elems = es at h
  dsimp only
  induction es with
  | nil => simp at h
  | cons d t ih =>
    by_cases hd : d.zone = z
    · simp [hd]
    · simpa [List.find?_cons, hd] using ih (by simpa [hd] using h)

theorem marked_statusOf_ne (x : Claim) {z y : Nat} (st : Status) (h : y ≠ z) :
    (marked x z st).statusOf y = x.statusOf y := by
  unfold Claim.statusOf marked
  generalize x.elems = es
  dsimp only
  induction es with
  | nil => rfl
  | cons d t ih =>
    by_cases hy : d.zone = y
    · subst hy
      simp [h]
    · by_cases hz : d.zone = z
      · have hzy : z ≠ y := h.symm
        simpa [List.find?_cons, hz, hzy] using ih
      · simpa [List.find?_cons, hz, hy] using ih

theorem marked_waits_ne (x : Claim) {z y : Nat} (st : Status) (h : y ≠ z) :
    y ∈ (marked x z st).waitingZones ↔ y ∈ x.waitingZones := by
  simp only [mem_waitingZones, marked, List.mem_map]
  constructor
  · rintro ⟨_, ⟨e, he, rfl⟩, hy, hs⟩
    split at hy
    next hz => exact absurd (hy.symm.trans hz) h
    next hz => exact ⟨e, he, hy, by rwa [if_neg hz] at hs⟩
  · rintro ⟨e, he, hy, hs⟩
    have hz : e.zone ≠ z := fun hz => h (hy ▸ hz)
    exact ⟨e, ⟨e, he, if_neg hz⟩, hy, hs⟩

/-- A zone whose elements have another status is not waited for. -/
theorem marked_not_waits (x : Claim) (z : Nat) {st : Status} (h : st ≠ .waiting) : z ∉ (marked x z st).waitingZones := by
  simp only [mem_waitingZones, marked, List.mem_map]
  rintro ⟨_, ⟨e, -, rfl⟩, hz, hs⟩
  split at hs
  next => exact h hs
  next hne => exact hne (by rwa [if_neg hne] at hz)

/-! ### What stands of a claim and of the part beside the zones that an operation works on -/

/-- `y` is the claim `x` but for its elements of the zones in `P`. -/
structure KeepsOff (P : Nat → Prop) (x y : Claim) : Prop where
  owner : y.owner = x.owner
  priority : y.priority = x.priority
  mode : y.mode = x.mode
  stamp : y.stamp = x.stamp
  status : ∀ z, ¬ P z → y.statusOf z = x.statusOf z
  waits : ∀ z, ¬ P z → (z ∈ y.waitingZones ↔ z ∈ x.waitingZones)
  zones : ∀ z, x.hasZone z = true → y.hasZone z = true

/-- `u` is `w`, as far as zones, claims and the stamp counter go, but for the zones in `P` and the elements for them. -/
structure SameOff (P : Nat → Prop) (w u : Vol) : Prop where
  zone : ∀ z, ¬ P z → u.zone z = w.zone z
  absent : ∀ c, w.claim c = none → u.claim c = none
  present : ∀ c x, w.claim c = some x → ∃ y, u.claim c = some y ∧ KeepsOff P x y
  counter : u.stampCounter = w.stampCounter

theorem KeepsOff.refl (P : Nat → Prop) (x : Claim) : KeepsOff P x x :=
  ⟨rfl, rfl, rfl, rfl, fun _ _ => rfl, fun _ _ => .rfl, fun _ => id⟩

theorem KeepsOff.trans {P : Nat → Prop} {x y z : Claim} (h : KeepsOff P x y) (k : KeepsOff P y z) : KeepsOff P x z :=
  ⟨k.owner.trans h.owner, k.priority.trans h.priority, k.mode.trans h.mode, k.stamp.trans h.stamp,
    fun a ha => (k.status a ha).trans (h.status a ha), fun a ha => (k.waits a ha).trans (h.waits a ha),
    fun a ha => k.zones a (h.zones a ha)⟩

theorem KeepsOff.mono {P Q : Nat → Prop} {x y : Claim} (h : KeepsOff P x y) (hq : ∀ z, P z → Q z) : KeepsOff Q x y :=
  ⟨h.owner, h.priority, h.mode, h.stamp, fun a ha => h.status a (mt (hq a) ha), fun a ha => h.waits a (mt (hq a) ha), h.zones⟩

theorem keepsOff_marked (x : Claim) (z : Nat) (st : Status) : KeepsOff (· = z) x (marked x z st) :=
  ⟨rfl, rfl, rfl, rfl, fun _ h => marked_statusOf_ne x st h, fun _ h => marked_waits_ne x st h,
    fun y h => by rwa [marked_hasZone]⟩

theorem keepsOff_extended (x : Claim) (e : Elem) : KeepsOff (· = e.zone) x (extended x e) := by
  refine ⟨rfl, rfl, rfl, rfl, fun z hz => ?_, fun z hz => ?_, fun z hz => ?_⟩
  · simp [Claim.statusOf, extended, List.find?_append, Ne.symm hz]
  · simp [mem_waitingZones, extended, or_and_right, exists_or, Ne.symm hz]
  · obtain ⟨d, hd, rfl⟩ := (hasZone_iff x z).mp hz
    exact (hasZone_iff _ _).mpr ⟨d, List.mem_append_left _ hd, rfl⟩

theorem SameOff.refl (P : Nat → Prop) (w : Vol) : SameOff P w w :=
  ⟨fun _ _ => rfl, fun _ => id, fun _ x h => ⟨x, h, .refl P x⟩, rfl⟩

theorem SameOff.trans {P : Nat → Prop} {w u v : Vol} (h : SameOff P w u) (k : SameOff P u v) : SameOff P w v := by
  refine ⟨fun z hz => (k.zone z hz).trans (h.zone z hz), fun c hc => k.absent c (h.absent c hc), fun c x hc => ?_,
    k.counter.trans h.counter⟩
  obtain ⟨y, hy, hxy⟩ := h.present c x hc
  obtain ⟨y', hy', hyy⟩ := k.present c y hy
  exact ⟨y', hy', hxy.trans hyy⟩

theorem SameOff.mono {P Q : Nat → Prop} {w u : Vol} (h : SameOff P w u) (hq : ∀ z, P z → Q z) : SameOff Q w u := by
  refine ⟨fun z hz => h.zone z (mt (hq z) hz), h.absent, fun c x hc => ?_, h.counter⟩
  obtain ⟨y, hy, hxy⟩ := h.present c x hc
  exact ⟨y, hy, hxy.mono hq⟩

/-- A part of a fold that works on zones of `P` alone. -/
theorem SameOff.foldl {β : Type} {P : Nat → Prop} {step : Vol → β → Vol} {l : List β} (h : ∀ w, ∀ b ∈ l, SameOff P w (step w b))
    (w : Vol) : SameOff P w (l.foldl step w) := by
  induction l generalizing w with
  | nil => exact .refl P w
  | cons b t ih =>
    exact (h w b List.mem_cons_self).trans (ih (fun w b hb => h w b (List.mem_cons_of_mem _ hb)) _)

theorem SameOff.claim_isSome {P : Nat → Prop} {w u : Vol} (h : SameOff P w u) (c : Nat) :
    (u.claim c).isSome = (w.claim c).isSome := by
  cases hc : w.claim c with
  | none => rw [h.absent c hc]
  | some x =>
    obtain ⟨y, hy, -⟩ := h.present c x hc
    rw [hy]
    rfl

theorem SameOff.priority {P : Nat → Prop} {w u : Vol} (h : SameOff P w u) (c : Nat) :
    (u.claim c).map (·.priority) = (w.claim c).map (·.priority) := by
  cases hc : w.claim c with
  | none => rw [h.absent c hc]
  | some x =>
    obtain ⟨y, hy, hxy⟩ := h.present c x hc
    simp [hy, hxy.priority]

theorem SameOff.statusOf {P : Nat → Prop} {w u : Vol} (h : SameOff P w u) {z : Nat} (hz : ¬ P z) (c : Nat) :
    (u.claim c).bind (·.statusOf z) = (w.claim c).bind (·.statusOf z) := by
  cases hc : w.claim c with
  | none => rw [h.absent c hc]
  | some x =>
    obtain ⟨y, hy, hxy⟩ := h.present c x hc
    simp [hy, hxy.status z hz]

/-- What a zone is obtainable at stands, when the zone stands. -/
theorem SameOff.obtainableAt {P : Nat → Prop} {w u : Vol} (h : SameOff P w u) {z : Nat} (hz : ¬ P z) (p : Nat) :
    u.obtainableAt p z = w.obtainableAt p z :=
  obtainableAt_congr (by rw [h.zone z hz]) (by rw [h.zone z hz]) h.priority p

theorem SameOff.holds {P : Nat → Prop} {w u : Vol} (h : SameOff P w u) {c z : Nat} (hz : ¬ P z) (hh : HoldsZone w c z) :
    HoldsZone u c z := by
  obtain ⟨hholder, hstatus⟩ := hh
  exact ⟨by rw [h.zone z hz, hholder], by rw [h.statusOf hz, hstatus]⟩

/-! ### Reads after an update -/

theorem claim_modClaim (w : Vol) (c : Nat) (f : Claim → Claim) (d : Nat) :
    (w.modClaim c f).claim d = if d = c then (w.claim d).map f else w.claim d := by
  simp only [Vol.modClaim, Vol.setClaim, Vol.claim, tget_tset]
  by_cases hd : d = c
  · subst hd
    by_cases hlt : d < 40
    · simp [hlt]
    · simp [hlt, tget_of_ge _ _ (Nat.not_lt.mp hlt)]
  · simp [hd, Ne.symm hd]

theorem claim_setClaim_ne (w : Vol) {c d : Nat} (x : Option Claim) (h : d ≠ c) : (w.setClaim c x).claim d = w.claim d :=
  tget_tset_ne _ _ _ (Ne.symm h)

/-- Only the ids of the table have claims. -/
theorem lt_of_claim {w : Vol} {c : Nat} {x : Claim} (h : w.claim c = some x) : c < 40 := by
  by_contra hc
  simp [Vol.claim, tget_of_ge _ _ (Nat.not_lt.mp hc)] at h

theorem claim_setStatus (w : Vol) (c z : Nat) (st : Status) (d : Nat) :
    (w.setStatus c z st).claim d = if d = c then (w.claim d).map (marked · z st) else w.claim d := claim_modClaim w c _ d

@[simp] theorem zone_setStatus (w : Vol) (c z : Nat) (st : Status) (y : Nat) : (w.setStatus c z st).zone y = w.zone y := rfl
@[simp] theorem zone_setClaim (w : Vol) (c : Nat) (x : Option Claim) (y : Nat) : (w.setClaim c x).zone y = w.zone y := rfl
@[simp] theorem zone_modGain (w : Vol) (z : Nat) (f : Gain → Gain) (y : Nat) : (w.modGain z f).zone y = w.zone y := rfl
@[simp] theorem claim_modZone (w : Vol) (z : Nat) (f : Zone → Zone) (c : Nat) : (w.modZone z f).claim c = w.claim c := rfl
@[simp] theorem claim_modGain (w : Vol) (z : Nat) (f : Gain → Gain) (c : Nat) : (w.modGain z f).claim c = w.claim c := rfl
@[simp] theorem claim_enterWait (w : Vol) (c z d : Nat) : (w.enterWait c z).claim d = w.claim d := rfl
@[simp] theorem claim_leaveWait (w : Vol) (c z d : Nat) : (w.leaveWait c z).claim d = w.claim d := rfl

theorem zone_enterWait (w : Vol) (c : Nat) {z : Nat} (hz : z < 64) : (w.enterWait c z).zone z =
    { w.zone z with waiters := insertBy w.claimBefore c ((w.zone z).waiters.filter (· ≠ c)) } := Vol.zone_modZone w _ hz

theorem zone_enterWait_ne (w : Vol) (c : Nat) {z y : Nat} (h : y ≠ z) : (w.enterWait c z).zone y = w.zone y :=
  Vol.zone_modZone_ne w _ (Ne.symm h)

theorem zone_leaveWait (w : Vol) (c : Nat) {z : Nat} (hz : z < 64) :
    (w.leaveWait c z).zone z = { w.zone z with waiters := (w.zone z).waiters.filter (· ≠ c) } := Vol.zone_modZone w _ hz

theorem mem_insertBy {α : Type} (lt : α → α → Bool) (x y : α) (l : List α) : y ∈ insertBy lt x l ↔ y = x ∨ y ∈ l := by
  rw [(insertBy_perm lt x l).mem_iff, List.mem_cons]

theorem sameOff_modZone (w : Vol) (z : Nat) (f : Zone → Zone) : SameOff (· = z) w (w.modZone z f) :=
  ⟨fun _ hy => Vol.zone_modZone_ne w f (Ne.symm hy), fun _ => id, fun _ x h => ⟨x, h, .refl _ x⟩, rfl⟩

theorem sameOff_modGain (P : Nat → Prop) (w : Vol) (z : Nat) (f : Gain → Gain) : SameOff P w (w.modGain z f) :=
  ⟨fun _ _ => rfl, fun _ => id, fun _ x h => ⟨x, h, .refl _ x⟩, rfl⟩

theorem sameOff_modClaim {P : Nat → Prop} (w : Vol) (c : Nat) {f : Claim → Claim} (hf : ∀ x, KeepsOff P x (f x)) :
    SameOff P w (w.modClaim c f) := by
  refine ⟨fun _ _ => rfl, fun d hd => ?_, fun d x hd => ?_, rfl⟩
  · simp [claim_modClaim, hd]
  · by_cases hdc : d = c
    · exact ⟨f x, by simp [claim_modClaim, hdc ▸ hd, hdc], hf x⟩
    · exact ⟨x, by simp [claim_modClaim, hd, hdc], .refl P x⟩

theorem sameOff_setStatus (w : Vol) (c z : Nat) (st : Status) : SameOff (· = z) w (w.setStatus c z st) :=
  sameOff_modClaim w c fun x => keepsOff_marked x z st

theorem sameOff_enterWait (w : Vol) (c z : Nat) : SameOff (· = z) w (w.enterWait c z) := sameOff_modZone w z _

theorem sameOff_leaveWait (w : Vol) (c z : Nat) : SameOff (· = z) w (w.leaveWait c z) := sameOff_modZone w z _

theorem sameOff_missZone (w : Vol) (c z : Nat) (m : MissCause) : SameOff (· = z) w (w.missZone c z m) :=
  (sameOff_setStatus w c z _).trans (sameOff_leaveWait _ c z)

theorem sameOff_loseZone (w : Vol) (c z : Nat) (m : MissCause) : SameOff (· = z) w (w.loseZone c z m) :=
  (sameOff_setStatus w c z _).trans (sameOff_modZone _ z _)

/-! ### Preemption (R25) -/

theorem preempt_join {w : Vol} {h : Nat} {x : Claim} (hc : w.claim h = some x) (hm : x.mode = .join) (z : Nat) :
    w.preempt h z = (w.setStatus h z .waiting).enterWait h z := by
  simp [Vol.preempt, hc, hm]

theorem preempt_other {w : Vol} {h : Nat} {x : Claim} (hc : w.claim h = some x) (hm : x.mode ≠ .join) (z : Nat) :
    w.preempt h z = w.setStatus h z (.missed .preempted) := by
  simp [Vol.preempt, hc, hm]

theorem preempt_none {w : Vol} {h : Nat} (hc : w.claim h = none) (z : Nat) : w.preempt h z = w := by
  simp [Vol.preempt, hc]

/-- The three things that a preemption can be. -/
theorem preempt_cases (w : Vol) (h z : Nat) : w.preempt h z = w
    ∨ ((w.claim h).isSome = true ∧ w.preempt h z = (w.setStatus h z .waiting).enterWait h z)
    ∨ w.preempt h z = w.setStatus h z (.missed .preempted) := by
  cases hc : w.claim h with
  | none => exact .inl (preempt_none hc z)
  | some x =>
    by_cases hm : x.mode = .join
    · exact .inr (.inl ⟨rfl, preempt_join hc hm z⟩)
    · exact .inr (.inr (preempt_other hc hm z))

theorem sameOff_preempt (w : Vol) (h z : Nat) : SameOff (· = z) w (w.preempt h z) := by
  rcases preempt_cases w h z with he | ⟨-, he⟩ | he <;> rw [he]
  · exact .refl _ w
  · exact (sameOff_setStatus w h z _).trans (sameOff_enterWait _ h z)
  · exact sameOff_setStatus w h z _

theorem claim_preempt_ne (w : Vol) {h c : Nat} (z : Nat) (hne : c ≠ h) : (w.preempt h z).claim c = w.claim c := by
  rcases preempt_cases w h z with he | ⟨-, he⟩ | he <;> rw [he] <;> simp [claim_setStatus, hne]

/-- A preemption puts none but the preempted claim on the wait list. -/
theorem mem_waiters_preempt {w : Vol} {h z d : Nat} (hz : z < 64) (hd : d ∈ ((w.preempt h z).zone z).waiters) :
    d ∈ (w.zone z).waiters ∨ (d = h ∧ (w.claim d).isSome = true) := by
  rcases preempt_cases w h z with he | ⟨hc, he⟩ | he
  · exact .inl (he ▸ hd)
  · rw [he, zone_enterWait _ h hz, mem_insertBy, zone_setStatus] at hd
    rcases hd with rfl | hd
    · exact .inr ⟨rfl, hc⟩
    · exact .inl (List.mem_of_mem_filter hd)
  · rw [he] at hd
    exact .inl hd

/-! ### A claim takes a zone (R20) -/

/-- The part after the holder of a zone, if it is another claim, has been preempted. -/
def vacated (w : Vol) (c z : Nat) : Vol :=
  match (w.zone z).holder with
  | some h => if h = c then w else w.preempt h z
  | none => w

theorem takeZone_eq (w : Vol) (c z : Nat) : w.takeZone c z =
    (((vacated w c z).modZone z fun x => { x with holder := some c, waiters := x.waiters.filter (· ≠ c) }).setStatus c z
      .held).modGain z fun g => { g with cut := true } := rfl

theorem vacated_of_holder {w : Vol} {c z h : Nat} (hh : (w.zone z).holder = some h) (hne : h ≠ c) :
    vacated w c z = w.preempt h z := by
  simp [vacated, hh, hne]

/-- The two things that vacating a zone can be. -/
theorem vacated_cases (w : Vol) (c z : Nat) :
    vacated w c z = w ∨ ∃ h, h ≠ c ∧ (w.zone z).holder = some h ∧ vacated w c z = w.preempt h z := by
  cases hh : (w.zone z).holder with
  | none => exact .inl (by simp [vacated, hh])
  | some h =>
    by_cases hc : h = c
    · exact .inl (by simp [vacated, hh, hc])
    · exact .inr ⟨h, hc, rfl, vacated_of_holder hh hc⟩

theorem sameOff_vacated (w : Vol) (c z : Nat) : SameOff (· = z) w (vacated w c z) := by
  rcases vacated_cases w c z with he | ⟨h, -, -, he⟩ <;> rw [he]
  · exact .refl _ w
  · exact sameOff_preempt w h z

theorem sameOff_takeZone (w : Vol) (c z : Nat) : SameOff (· = z) w (w.takeZone c z) := by
  rw [takeZone_eq]
  refine .trans (.trans ?_ (sameOff_setStatus _ c z _)) (sameOff_modGain _ _ z _)
  exact (sameOff_vacated w c z).trans (sameOff_modZone _ z _)

/-- The zone taken: its holder is the claim, which stands on its wait list no more. -/
theorem zone_takeZone (w : Vol) (c : Nat) {z : Nat} (hz : z < 64) : (w.takeZone c z).zone z =
    { (vacated w c z).zone z with
      holder := some c, waiters := ((vacated w c z).zone z).waiters.filter (· ≠ c) } := by
  rw [takeZone_eq, zone_modGain, zone_setStatus, Vol.zone_modZone _ _ hz]

theorem zone_takeZone_ne (w : Vol) (c : Nat) {z y : Nat} (h : y ≠ z) : (w.takeZone c z).zone y = w.zone y :=
  (sameOff_takeZone w c z).zone y h

theorem holder_takeZone (w : Vol) (c : Nat) {z : Nat} (hz : z < 64) : ((w.takeZone c z).zone z).holder = some c := by
  rw [zone_takeZone w c hz]

theorem claim_takeZone (w : Vol) (c z d : Nat) : (w.takeZone c z).claim d =
    if d = c then ((vacated w c z).claim d).map (marked · z .held) else (vacated w c z).claim d := by
  rw [takeZone_eq, claim_modGain, claim_setStatus, claim_modZone]

theorem claim_takeZone_self (w : Vol) (c z : Nat) :
    (w.takeZone c z).claim c = (w.claim c).map (marked · z .held) := by
  have hv : (vacated w c z).claim c = w.claim c := by
    rcases vacated_cases w c z with he | ⟨h, hne, -, he⟩ <;> rw [he]
    exact claim_preempt_ne w z (Ne.symm hne)
  rw [claim_takeZone, if_pos rfl, hv]

/-- R48: the mixer sees the change of holder. -/
theorem gain_takeZone (w : Vol) (c : Nat) {z : Nat} (hz : z < 64) : ((w.takeZone c z).gain z).cut = true := by
  rw [takeZone_eq, Vol.modGain, Vol.setGain, Vol.gain, tget_tset_self _ _ _ hz]

theorem engine_preempt (w : Vol) (h z : Nat) : (w.preempt h z).engine = w.engine := by
  rcases preempt_cases w h z with he | ⟨-, he⟩ | he <;> rw [he] <;> rfl

/-- A change of holders sends nothing. -/
theorem engine_takeZone (w : Vol) (c z : Nat) : (w.takeZone c z).engine = w.engine := by
  have hv : (vacated w c z).engine = w.engine := by
    rcases vacated_cases w c z with he | ⟨h, -, -, he⟩ <;> rw [he]
    exact engine_preempt w h z
  exact hv

/-- A claim with the zone in its list that takes it holds it. -/
theorem takeZone_holds {w : Vol} {c z : Nat} {x : Claim} (hz : z < 64) (hc : w.claim c = some x)
    (hx : x.hasZone z = true) : HoldsZone (w.takeZone c z) c z := by
  refine ⟨holder_takeZone w c hz, ?_⟩
  simp [claim_takeZone_self, hc, marked_statusOf_self .held hx]

/-- Who waits for a zone that is taken waited before, or is a claim of the table that was preempted; the taker waits no more. -/
theorem mem_waiters_takeZone {w : Vol} {c z d : Nat} (hz : z < 64) (hd : d ∈ ((w.takeZone c z).zone z).waiters) :
    d ≠ c ∧ (d ∈ (w.zone z).waiters ∨ (w.claim d).isSome = true) := by
  rw [zone_takeZone w c hz, List.mem_filter] at hd
  obtain ⟨hd, hne⟩ := hd
  refine ⟨by simpa using hne, ?_⟩
  rcases vacated_cases w c z with he | ⟨h, -, -, he⟩ <;> rw [he] at hd
  · exact .inl hd
  · rcases mem_waiters_preempt hz hd with hd | ⟨-, hd⟩
    · exact .inl hd
    · exact .inr hd

/-! ### The steps of a claim that takes what it waits for -/

/-- `u` is `w` after takes and misses by claim `c` of zones in `P`: all that one claim's taking can do (R22 to R24). -/
inductive TakesOf (c : Nat) (P : Nat → Prop) (w : Vol) : Vol → Prop
  | refl : TakesOf c P w w
  | take {u z} : TakesOf c P w u → P z → TakesOf c P w (u.takeZone c z)
  | miss {u z} : TakesOf c P w u → P z → TakesOf c P w (u.missZone c z .busy)

theorem TakesOf.trans {c : Nat} {P : Nat → Prop} {w u v : Vol} (h : TakesOf c P w u) (k : TakesOf c P u v) :
    TakesOf c P w v := by
  induction k with
  | refl => exact h
  | take _ hz ih => exact ih.take hz
  | miss _ hz ih => exact ih.miss hz

theorem TakesOf.foldl {c : Nat} {P : Nat → Prop} {step : Vol → Nat → Vol} {zs : List Nat}
    (h : ∀ w, ∀ z ∈ zs, TakesOf c P w (step w z)) (w : Vol) : TakesOf c P w (zs.foldl step w) := by
  induction zs generalizing w with
  | nil => exact .refl
  | cons z t ih =>
    exact (h w z List.mem_cons_self).trans (ih (fun w z hz => h w z (List.mem_cons_of_mem _ hz)) _)

theorem TakesOf.sameOff {c : Nat} {P : Nat → Prop} {w u : Vol} (h : TakesOf c P w u) : SameOff P w u := by
  induction h with
  | refl => exact .refl P w
  | @take u z _ hz ih => exact ih.trans ((sameOff_takeZone u c z).mono fun y hy => hy ▸ hz)
  | @miss u z _ hz ih => exact ih.trans ((sameOff_missZone u c z _).mono fun y hy => hy ▸ hz)

/-- A zone that the claim takes if it can. -/
def takeIfFree (c : Nat) (w : Vol) (z : Nat) : Vol := if w.obtainable c z then w.takeZone c z else w

/-- A zone that the claim takes if it can and misses with BUSY if it cannot. -/
def takeOrMiss (c : Nat) (w : Vol) (z : Nat) : Vol := if w.obtainable c z then w.takeZone c z else w.missZone c z .busy

/-- R24, R27. -/
theorem joinTake_eq {w : Vol} {c : Nat} {x : Claim} (h : w.claim c = some x) :
    w.joinTake c = x.waitingZones.foldl (takeIfFree c) w := by
  simp only [Vol.joinTake, h]
  rfl

/-- R22. -/
theorem wholeTake_eq {w : Vol} {c : Nat} {x : Claim} (h : w.claim c = some x) : w.wholeTake c =
    if x.state = .waiting ∧ ∀ z ∈ x.waitingZones, w.obtainableAt x.priority z = true then
      x.waitingZones.foldl (fun w z => w.takeZone c z) w
    else w := by
  simp only [Vol.wholeTake, h, List.all_eq_true, obtainable_of_claim h]

/-- R23. -/
theorem partTake_eq {w : Vol} {c : Nat} {x : Claim} (h : w.claim c = some x) : w.partTake c =
    if x.state = .waiting ∧ ∃ z ∈ x.waitingZones, w.obtainableAt x.priority z = true then
      x.waitingZones.foldl (takeOrMiss c) w
    else w := by
  simp only [Vol.partTake, h, List.any_eq_true, obtainable_of_claim h]
  rfl

theorem modeTake_join {w : Vol} {c : Nat} {x : Claim} (h : w.claim c = some x) (hm : x.mode = .join) :
    w.modeTake c = w.joinTake c := by
  simp [Vol.modeTake, h, hm]

theorem modeTake_whole {w : Vol} {c : Nat} {x : Claim} (h : w.claim c = some x) (hm : x.mode = .whole) :
    w.modeTake c = w.wholeTake c := by
  simp [Vol.modeTake, h, hm]

theorem modeTake_part {w : Vol} {c : Nat} {x : Claim} (h : w.claim c = some x) (hm : x.mode = .part) :
    w.modeTake c = w.partTake c := by
  simp [Vol.modeTake, h, hm]

theorem modeTake_none {w : Vol} {c : Nat} (h : w.claim c = none) : w.modeTake c = w := by simp [Vol.modeTake, h]

theorem takeIfFree_takes {c : Nat} {P : Nat → Prop} (w : Vol) {z : Nat} (hz : P z) : TakesOf c P w (takeIfFree c w z) := by
  unfold takeIfFree
  split
  · exact .take .refl hz
  · exact .refl

theorem takeOrMiss_takes {c : Nat} {P : Nat → Prop} (w : Vol) {z : Nat} (hz : P z) : TakesOf c P w (takeOrMiss c w z) := by
  unfold takeOrMiss
  split
  · exact .take .refl hz
  · exact .miss .refl hz

theorem wholeTake_takes {w : Vol} {c : Nat} {x : Claim} (h : w.claim c = some x) :
    TakesOf c (· ∈ x.waitingZones) w (w.wholeTake c) := by
  rw [wholeTake_eq h]
  split
  · exact .foldl (fun _ _ hz => .take .refl hz) w
  · exact .refl

theorem partTake_takes {w : Vol} {c : Nat} {x : Claim} (h : w.claim c = some x) :
    TakesOf c (· ∈ x.waitingZones) w (w.partTake c) := by
  rw [partTake_eq h]
  split
  · exact .foldl (fun w _ hz => takeOrMiss_takes w hz) w
  · exact .refl

/-- Whatever its mode, a claim takes and misses zones it waits for, and nothing else happens. -/
theorem modeTake_takes {w : Vol} {c : Nat} {x : Claim} (h : w.claim c = some x) :
    TakesOf c (· ∈ x.waitingZones) w (w.modeTake c) := by
  cases hm : x.mode with
  | join =>
    rw [modeTake_join h hm, joinTake_eq h]
    exact .foldl (fun w _ hz => takeIfFree_takes w hz) w
  | whole =>
    rw [modeTake_whole h hm]
    exact wholeTake_takes h
  | part =>
    rw [modeTake_part h hm]
    exact partTake_takes h

/-! ### One zone of a fold over zones -/

theorem sameOff_takeIfFree (c : Nat) (w : Vol) (z : Nat) : SameOff (· = z) w (takeIfFree c w z) :=
  (takeIfFree_takes (P := (· = z)) w rfl).sameOff

theorem sameOff_takeOrMiss (c : Nat) (w : Vol) (z : Nat) : SameOff (· = z) w (takeOrMiss c w z) :=
  (takeOrMiss_takes (P := (· = z)) w rfl).sameOff

/-- A fold of steps, each of which works on its own zone: at its first place in the list a zone stands as it was at the
beginning. -/
theorem foldl_first {step : Vol → Nat → Vol} (hs : ∀ w z, SameOff (· = z) w (step w z)) {zs : List Nat} {z : Nat}
    (hz : z ∈ zs) (w : Vol) : ∃ (u : Vol) (rest : List Nat), SameOff (· ≠ z) w u ∧ (zs.Nodup → z ∉ rest)
      ∧ zs.foldl step w = rest.foldl step (step u z) := by
  obtain ⟨as, rest, rfl, has⟩ := List.eq_append_cons_of_mem hz
  refine ⟨as.foldl step w, rest, ?_, fun hn => ?_, by rw [List.foldl_append, List.foldl_cons]⟩
  · exact .foldl (fun w y hy => (hs w y).mono fun x hx => hx ▸ ne_of_mem_of_not_mem hy has) w
  · exact (List.nodup_cons.mp (List.nodup_append.mp hn).2.1).1

/-- In a list of different zones each stands as it was up to its own step, and after it as that step leaves it. -/
theorem foldl_once {step : Vol → Nat → Vol} (hs : ∀ w z, SameOff (· = z) w (step w z)) {zs : List Nat} (hn : zs.Nodup)
    {z : Nat} (hz : z ∈ zs) (w : Vol) :
    ∃ u, SameOff (· ≠ z) w u ∧ SameOff (· ≠ z) (step u z) (zs.foldl step w) := by
  obtain ⟨u, rest, hu, hrest, he⟩ := foldl_first hs hz w
  refine ⟨u, hu, he ▸ .foldl (fun w y hy => (hs w y).mono fun x hx => hx ▸ ne_of_mem_of_not_mem hy (hrest hn)) _⟩

/-! ### What a candidate takes, by its mode (R22 to R24, R27) -/

/-- A claim that holds a zone does not obtain it again: its own priority is not below itself. -/
theorem not_obtainable_of_holds {w : Vol} {c z : Nat} (h : HoldsZone w c z) : w.obtainable c z = false := by
  obtain ⟨hholder, hstatus⟩ := h
  obtain ⟨x, hc, -⟩ := Option.bind_eq_some_iff.mp hstatus
  rw [obtainable_of_claim hc, Bool.eq_false_iff, ne_eq, obtainableAt_iff, hholder]
  rintro (hq | ⟨-, k, y, hk, hy, hlt⟩)
  · simp [holder_of_quiet hq] at hholder
  · obtain rfl : c = k := by simpa using hk
    obtain rfl : x = y := by simpa [hc] using hy
    exact absurd hlt (lt_irrefl _)

theorem takeIfFree_keeps_holds {w : Vol} {c z : Nat} (h : HoldsZone w c z) (y : Nat) :
    HoldsZone (takeIfFree c w y) c z := by
  by_cases hy : z = y
  · subst hy
    rw [takeIfFree, not_obtainable_of_holds h]
    exact h
  · exact (sameOff_takeIfFree c w y).holds hy h

/-- A JOIN claim takes an obtainable zone it waits for, and keeps it through the rest of its list. -/
theorem joinTake_holds {w : Vol} {c z : Nat} {x : Claim} (hc : w.claim c = some x) (hz : z ∈ x.waitingZones)
    (ho : w.obtainableAt x.priority z = true) : HoldsZone (w.joinTake c) c z := by
  obtain ⟨u, rest, hu, -, he⟩ := foldl_first (sameOff_takeIfFree c) hz w
  obtain ⟨y, hy, hxy⟩ := hu.present c x hc
  have hfree : u.obtainable c z = true := by
    rw [obtainable_of_claim hy, hxy.priority, hu.obtainableAt (by simp), ho]
  have htaken : HoldsZone (takeIfFree c u z) c z := by
    rw [takeIfFree, hfree]
    exact takeZone_holds (lt_of_obtainableAt ho) hy (hxy.zones z (hasZone_of_waiting hz))
  rw [joinTake_eq hc, he]
  exact foldl_keeps (HoldsZone · c z) _ rest _ htaken fun v y hv => takeIfFree_keeps_holds hv y

/-- A zone that a JOIN claim cannot obtain stands, with its element. -/
theorem joinTake_leaves {w : Vol} {c z : Nat} {x : Claim} (hc : w.claim c = some x) (hn : x.waitingZones.Nodup)
    (hz : z ∈ x.waitingZones) (ho : w.obtainableAt x.priority z = false) : SameOff (· ≠ z) w (w.joinTake c) := by
  obtain ⟨u, hu, hw⟩ := foldl_once (sameOff_takeIfFree c) hn hz w
  obtain ⟨y, hy, hxy⟩ := hu.present c x hc
  have hnot : u.obtainable c z = false := by
    rw [obtainable_of_claim hy, hxy.priority, hu.obtainableAt (by simp), ho]
  rw [takeIfFree, hnot] at hw
  rw [joinTake_eq hc]
  exact hu.trans hw

/-- R22: a WAITING WHOLE claim that can obtain all it waits for holds all of it. -/
theorem wholeTake_holds {w : Vol} {c z : Nat} {x : Claim} (hc : w.claim c = some x) (hn : x.waitingZones.Nodup)
    (hw : x.state = .waiting) (ho : ∀ z ∈ x.waitingZones, w.obtainableAt x.priority z = true) (hz : z ∈ x.waitingZones) :
    HoldsZone (w.wholeTake c) c z := by
  obtain ⟨u, hu, hlast⟩ := foldl_once (fun w z => sameOff_takeZone w c z) hn hz w
  obtain ⟨y, hy, hxy⟩ := hu.present c x hc
  rw [wholeTake_eq hc, if_pos ⟨hw, ho⟩]
  refine hlast.holds (by simp) (takeZone_holds (lt_of_obtainableAt (ho z hz)) hy ?_)
  exact hxy.zones z (hasZone_of_waiting hz)

theorem wholeTake_stands {w : Vol} {c : Nat} {x : Claim} (hc : w.claim c = some x)
    (h : x.state ≠ .waiting ∨ ∃ z ∈ x.waitingZones, w.obtainableAt x.priority z = false) : w.wholeTake c = w := by
  rw [wholeTake_eq hc, if_neg]
  rintro ⟨hw, ho⟩
  rcases h with h | ⟨z, hz, h⟩
  · exact h hw
  · simp [ho z hz] at h

/-- R23: at its first grant a PARTIAL claim holds each zone it waits for and can obtain, and misses the others with BUSY. -/
theorem partTake_reads {w : Vol} {c z : Nat} {x : Claim} (hc : w.claim c = some x) (hn : x.waitingZones.Nodup)
    (hw : x.state = .waiting) (ho : ∃ z ∈ x.waitingZones, w.obtainableAt x.priority z = true) (hz : z ∈ x.waitingZones)
    (hz64 : z < 64) :
    (w.obtainableAt x.priority z = true → HoldsZone (w.partTake c) c z)
    ∧ (w.obtainableAt x.priority z = false → ((w.partTake c).claim c).bind (·.statusOf z) = some (.missed .busy)
        ∧ ((w.partTake c).zone z).holder = (w.zone z).holder ∧ c ∉ ((w.partTake c).zone z).waiters) := by
  obtain ⟨u, hu, hlast⟩ := foldl_once (sameOff_takeOrMiss c) hn hz w
  obtain ⟨y, hy, hxy⟩ := hu.present c x hc
  have hfree : u.obtainable c z = w.obtainableAt x.priority z := by
    rw [obtainable_of_claim hy, hxy.priority, hu.obtainableAt (by simp)]
  have hhas : y.hasZone z = true := hxy.zones z (hasZone_of_waiting hz)
  have hoff : ¬ (fun k => k ≠ z) z := by simp
  rw [partTake_eq hc, if_pos ⟨hw, ho⟩]
  rw [takeOrMiss, hfree] at hlast
  refine ⟨fun hob => ?_, fun hob => ?_⟩
  · rw [hob, if_pos rfl] at hlast
    exact hlast.holds hoff (takeZone_holds hz64 hy hhas)
  · rw [hob, if_neg (by simp)] at hlast
    have hzone : (u.missZone c z .busy).zone z = { u.zone z with waiters := (u.zone z).waiters.filter (· ≠ c) } :=
      zone_leaveWait _ c hz64
    rw [hlast.statusOf hoff, hlast.zone z hoff, hzone, hu.zone z hoff]
    refine ⟨?_, rfl, by simp⟩
    simp [Vol.missZone, claim_setStatus, hy, marked_statusOf_self _ hhas]

theorem partTake_stands {w : Vol} {c : Nat} {x : Claim} (hc : w.claim c = some x)
    (h : x.state ≠ .waiting ∨ ∀ z ∈ x.waitingZones, w.obtainableAt x.priority z = false) : w.partTake c = w := by
  rw [partTake_eq hc, if_neg]
  rintro ⟨hw, z, hz, ho⟩
  rcases h with h | h
  · exact h hw
  · simp [h z hz] at ho

theorem candidateTakes : CandidateTakes := by
  rintro w w' c x hc hdiff hzones rfl
  have hn := waitingZones_nodup hdiff
  have hstatus {z : Nat} (hz : z ∈ x.waitingZones) : z < 64 ∧ x.statusOf z = some .waiting := by
    obtain ⟨e, he, rfl, hw⟩ := (mem_waitingZones x z).mp hz
    exact ⟨hzones e he, by rw [statusOf_of_mem hdiff he, hw]⟩
  refine ⟨fun hm z hz => ⟨fun ho => ?_, fun ho => ?_⟩, fun hm hw ho z hz => ?_, fun hm h => ?_,
    fun hm hw ho z hz => ?_, fun hm h => ?_, fun z hz => ?_⟩
  · rw [modeTake_join hc hm]
    exact joinTake_holds hc hz ho
  · have hleft := joinTake_leaves hc hn hz ho
    rw [modeTake_join hc hm, hleft.zone z (by simp), hleft.statusOf (by simp), hc]
    exact ⟨rfl, (hstatus hz).2⟩
  · rw [modeTake_whole hc hm]
    exact wholeTake_holds hc hn hw ho hz
  · rw [modeTake_whole hc hm]
    exact wholeTake_stands hc h
  · rw [modeTake_part hc hm]
    exact partTake_reads hc hn hw ho hz (hstatus hz).1
  · rw [modeTake_part hc hm]
    exact partTake_stands hc h
  · exact (modeTake_takes hc).sameOff.zone z hz

end Sys2Proof.Zones
end

section
/-! PROOFS. The rules of the arbiter for claims in force: preemption (R25), release and release walk (R26, R27), loss of a zone
and its settlement (R28 to R31), recovery (R32), and the events of a zone (R1, R2). -/

namespace Sys2Proof.Zones

open Sys2Proof.Machine Sys2Proof.Laws Sys2Proof.Statements

/-! ### Wait lists and preemption (2.7, R25) -/

theorem claimBefore_iff (w : Vol) (a b : Nat) : w.claimBefore a b = true ↔ GoesBefore w a b := by
  unfold Vol.claimBefore GoesBefore
  cases w.claim a <;> cases w.claim b <;> simp [Claim.before]

theorem claimBefore_asymm (w : Vol) (a b : Nat) (h : w.claimBefore a b = true) : w.claimBefore b a = false := by
  rw [claimBefore_iff] at h
  rw [Bool.eq_false_iff, ne_eq, claimBefore_iff]
  obtain ⟨x, y, hx, hy, h⟩ := h
  rintro ⟨y', x', hy', hx', h'⟩
  obtain rfl : x = x' := by simpa [hx] using hx'
  obtain rfl : y = y' := by simpa [hy] using hy'
  omega

/-- The order of claims stands where priorities and stamps stand. -/
theorem SameOff.claimBefore {P : Nat → Prop} {w u : Vol} (h : SameOff P w u) : u.claimBefore = w.claimBefore := by
  have key (c : Nat) : (u.claim c).map (fun x => (x.priority, x.stamp)) = (w.claim c).map fun x => (x.priority, x.stamp) := by
    cases hc : w.claim c with
    | none => rw [h.absent c hc]
    | some x =>
      obtain ⟨y, hy, hxy⟩ := h.present c x hc
      simp [hy, hxy.priority, hxy.stamp]
  have goes (v : Vol) (a b : Nat) : GoesBefore v a b ↔ ∃ p q, (v.claim a).map (fun x => (x.priority, x.stamp)) = some p
      ∧ (v.claim b).map (fun x => (x.priority, x.stamp)) = some q ∧ (q.1 < p.1 ∨ (p.1 = q.1 ∧ p.2 < q.2)) := by
    cases ha : v.claim a <;> cases hb : v.claim b <;> simp [GoesBefore, ha, hb]
  funext a b
  rw [Bool.eq_iff_iff, claimBefore_iff, claimBefore_iff, goes u, goes w, key a, key b]

/-- A claim enters a wait list behind those it does not go before. -/
theorem enterWait_at {w : Vol} {c z : Nat} {a b : List Nat}
    (hl : (w.zone z).waiters.filter (fun d => decide (d ≠ c)) = a ++ b) (ha : ∀ d ∈ a, ¬ GoesBefore w c d)
    (hb : ∀ d, b.head? = some d → GoesBefore w c d) :
    w.enterWait c z = w.setZone z { w.zone z with waiters := a ++ c :: b } := by
  have hins : insertBy w.claimBefore c (a ++ b) = a ++ c :: b := by
    apply insertBy_append
    · exact fun d hd => by rw [Bool.eq_false_iff, ne_eq, claimBefore_iff]; exact ha d hd
    · exact fun d hd => (claimBefore_iff w c d).mpr (hb d hd)
  rw [Vol.enterWait, Vol.modZone, ← hins, ← hl]

/-- The claim of the preempted holder. -/
theorem claim_takeZone_holder {w : Vol} {c z h : Nat} (hh : (w.zone z).holder = some h) (hne : h ≠ c) :
    (w.takeZone c z).claim h = (w.preempt h z).claim h := by
  rw [claim_takeZone, if_neg hne, vacated_of_holder hh hne]

theorem claim_takeZone_other {w : Vol} {c z h d : Nat} (hh : (w.zone z).holder = some h) (hne : h ≠ c) (hd : d ≠ c)
    (hdh : d ≠ h) : (w.takeZone c z).claim d = w.claim d := by
  rw [claim_takeZone, if_neg hd, vacated_of_holder hh hne, claim_preempt_ne w z hdh]

theorem holderPreempted : HolderPreempted := by
  refine ⟨?_, fun w c z a b _ hl ha hb => enterWait_at hl ha hb⟩
  rintro w w' c z h x y hz hne hh hx hy hxz hyz rfl
  have hvacated := vacated_of_holder hh hne
  refine ⟨takeZone_holds hz hy hyz, fun hm => ⟨rfl, ?_, ?_⟩, fun hm => ⟨?_, fun hout hin => ?_⟩, fun k hk => ⟨?_, ?_⟩,
    fun d hd hdh => claim_takeZone_other hh hne hd hdh⟩
  · rw [zone_takeZone w c hz, hvacated, preempt_join hx hm, zone_enterWait _ h hz]
    simp [mem_insertBy, hne]
  · rw [claim_takeZone_holder hh hne, preempt_join hx hm]
    simp [claim_setStatus, hx, marked_statusOf_self _ hxz]
  · rw [claim_takeZone_holder hh hne, preempt_other hx hm]
    simp [claim_setStatus, hx, marked_statusOf_self _ hxz]
  · rw [zone_takeZone w c hz, hvacated, preempt_other hx hm] at hin
    exact hout (List.mem_of_mem_filter hin)
  · rw [(sameOff_takeZone w c z).statusOf hk, hx]
    rfl
  · exact zone_takeZone_ne w c hk

/-! ### The release walk (R27) -/

theorem nodup_eraseDups (l : List Nat) : l.eraseDups.Nodup := by
  induction hn : l.length using Nat.strong_induction_on generalizing l with
  | _ n ih =>
    cases l with
    | nil => simp
    | cons a t =>
      have hlt : (t.filter fun b => !b == a).length < n := by
        have := List.length_filter_le (fun b => !b == a) t
        simp only [List.length_cons] at hn
        omega
      rw [List.eraseDups_cons, List.nodup_cons]
      refine ⟨by simp [List.mem_eraseDups], ih _ hlt _ rfl⟩

/-- The claims of a list, each once, in their order. -/
theorem sortBy_of_inOrder {w : Vol} {p : Nat → Prop} {l cs : List Nat} (hcs : InOrder w p cs) (hl : ∀ c, c ∈ l ↔ p c) :
    sortBy w.claimBefore l.eraseDups = cs := by
  obtain ⟨hn, hmem, hsorted⟩ := hcs
  have hperm : l.eraseDups.Perm cs :=
    (List.perm_ext_iff_of_nodup (nodup_eraseDups l) hn).mpr fun c => by rw [List.mem_eraseDups, hl, hmem]
  exact sortBy_eq_of_pairwise (claimBefore_asymm w) hperm (hsorted.imp fun h => (claimBefore_iff w _ _).mpr h)

theorem walk_of_inOrder {w : Vol} {freed cs : List Nat} (h : InOrder w (fun c => ∃ z ∈ freed, c ∈ (w.zone z).waiters) cs) :
    w.walk freed = cs.foldl Vol.modeTake w := by
  rw [Vol.walk, sortBy_of_inOrder h fun c => by simp]

theorem walk_nil (w : Vol) : w.walk [] = w := by
  simpa using walk_of_inOrder (w := w) (freed := []) (cs := []) ⟨List.nodup_nil, by simp, .nil⟩

theorem walk_no_waiters {w : Vol} {z : Nat} (h : (w.zone z).waiters = []) : w.walk [z] = w := by
  simpa using walk_of_inOrder (w := w) (freed := [z]) (cs := []) ⟨List.nodup_nil, by simp [h], .nil⟩

theorem walk_one_waiter {w : Vol} {z d : Nat} (h : (w.zone z).waiters = [d]) : w.walk [z] = w.modeTake d := by
  simpa using walk_of_inOrder (w := w) (freed := [z]) (cs := [d])
    ⟨List.nodup_singleton d, by simp [h], List.pairwise_singleton _ d⟩

/-- What each candidate keeps a walk keeps. -/
theorem walk_keeps {Q : Vol → Prop} (hq : ∀ v d x, v.claim d = some x → Q v → Q (v.modeTake d)) {w : Vol} (h : Q w)
    (freed : List Nat) : Q (w.walk freed) := by
  refine foldl_keeps Q Vol.modeTake _ w h fun v d hv => ?_
  cases hd : v.claim d with
  | none => rwa [modeTake_none hd]
  | some x => exact hq v d x hd hv

/-- A zone that is free on the walk goes to the one JOIN claim that waits for it. -/
theorem walk_hands_over {w : Vol} {z d : Nat} {y : Claim} (hs : (w.zone z).state = .quiet)
    (hw : (w.zone z).waiters = [d]) (hd : w.claim d = some y) (hm : y.mode = .join) (hy : y.statusOf z = some .waiting) :
    HoldsZone (w.walk [z]) d z := by
  rw [walk_one_waiter hw, modeTake_join hd hm]
  exact joinTake_holds hd (mem_waitingZones_of_statusOf hy) ((obtainableAt_iff w _ z).mpr (.inl hs))

/-! ### A claim without an entry (R26) -/

/-- Claim `c` has no entry, does not hold zone `z` where `held` says so, and does not wait for it where `waited` says so. -/
structure Gone (c z : Nat) (held waited : Prop) (w : Vol) : Prop where
  entry : w.claim c = none
  holder : held → (w.zone z).holder ≠ some c
  waiter : waited → c ∉ (w.zone z).waiters

theorem holder_missZone (w : Vol) (d y : Nat) (m : MissCause) (z : Nat) :
    ((w.missZone d y m).zone z).holder = (w.zone z).holder := by
  by_cases hzy : z = y
  · subst hzy
    by_cases hz : z < 64
    · rw [Vol.missZone, zone_leaveWait _ d hz, zone_setStatus]
    · rw [zone_beyond _ hz, zone_beyond _ hz]
  · rw [(sameOff_missZone w d y m).zone z hzy]

theorem mem_waiters_missZone {w : Vol} {d y : Nat} {m : MissCause} {z c : Nat}
    (h : c ∈ ((w.missZone d y m).zone z).waiters) : c ∈ (w.zone z).waiters := by
  by_cases hzy : z = y
  · subst hzy
    by_cases hz : z < 64
    · rw [Vol.missZone, zone_leaveWait _ d hz, zone_setStatus] at h
      exact List.mem_of_mem_filter h
    · rw [zone_beyond _ hz] at h ⊢
      exact h
  · rwa [(sameOff_missZone w d y m).zone z hzy] at h

/-- What claims of the table take does not bring back one that has gone. -/
theorem TakesOf.gone {c d z : Nat} {held waited : Prop} {P : Nat → Prop} {w u : Vol} (h : TakesOf d P w u) (hne : d ≠ c)
    (hz : z < 64) (hw : Gone c z held waited w) : Gone c z held waited u := by
  induction h with
  | refl => exact hw
  | @take u y _ _ ih =>
    refine ⟨(sameOff_takeZone u d y).absent c ih.entry, fun hh => ?_, fun hh => ?_⟩
    · by_cases hy : z = y
      · subst hy
        simp [holder_takeZone u d hz, hne]
      · rw [zone_takeZone_ne u d hy]
        exact ih.holder hh
    · by_cases hy : z = y
      · subst hy
        intro hin
        obtain ⟨-, hin | hsome⟩ := mem_waiters_takeZone hz hin
        · exact ih.waiter hh hin
        · simp [ih.entry] at hsome
      · rw [zone_takeZone_ne u d hy]
        exact ih.waiter hh
  | @miss u y _ _ ih =>
    refine ⟨(sameOff_missZone u d y _).absent c ih.entry, fun hh => ?_, fun hh hin => ?_⟩
    · rw [holder_missZone]
      exact ih.holder hh
    · exact ih.waiter hh (mem_waiters_missZone hin)

theorem walk_gone {c z : Nat} {held waited : Prop} {w : Vol} (hz : z < 64) (h : Gone c z held waited w)
    (freed : List Nat) : Gone c z held waited (w.walk freed) := by
  refine walk_keeps (fun v d x hd hv => (modeTake_takes hd).gone ?_ hz hv) h freed
  rintro rfl
  simp [hv.entry] at hd

/-! ### The release of a claim (R26) -/

/-- One change of zones, made twice as made once, over a list of zones. -/
theorem zone_foldl_modZone {f : Zone → Zone} (hf : ∀ x, f (f x) = f x) (zs : List Nat) (w : Vol) {y : Nat} (hy : y < 64) :
    (zs.foldl (fun w z => w.modZone z f) w).zone y = if y ∈ zs then f (w.zone y) else w.zone y := by
  induction zs generalizing w with
  | nil => simp
  | cons z t ih =>
    rw [List.foldl_cons, ih]
    by_cases hyz : y = z
    · subst hyz
      simp [Vol.zone_modZone w f hy, hf]
    · simp [Vol.zone_modZone_ne w f (Ne.symm hyz), hyz]

theorem claim_foldl_modZone (f : Zone → Zone) (zs : List Nat) (w : Vol) (c : Nat) :
    (zs.foldl (fun w z => w.modZone z f) w).claim c = w.claim c :=
  foldl_keeps (fun v => v.claim c = w.claim c) (fun w z => w.modZone z f) zs w rfl fun _ _ h => h

/-- The claim taken off every zone and every wait list, and out of the table: the part before the release walk. -/
def unclaimed (w : Vol) (c : Nat) (x : Claim) : Vol :=
  (x.heldZones.foldl (fun w z => w.modZone z fun y => { y with holder := none })
    (x.waitingZones.foldl (fun w z => w.leaveWait c z) w)).setClaim c none

theorem releaseClaim_eq {w : Vol} {c : Nat} {x : Claim} (hc : w.claim c = some x) :
    w.releaseClaim c = (unclaimed w c x).walk x.heldZones := by
  simp only [Vol.releaseClaim, hc]
  rfl

theorem zone_unclaimed (w : Vol) (c : Nat) (x : Claim) {z : Nat} (hz : z < 64) : (unclaimed w c x).zone z =
    { w.zone z with
      holder := if z ∈ x.heldZones then none else (w.zone z).holder
      waiters := if z ∈ x.waitingZones then (w.zone z).waiters.filter (· ≠ c) else (w.zone z).waiters } := by
  have hwait : (x.waitingZones.foldl (fun w z => w.leaveWait c z) w).zone z = if z ∈ x.waitingZones then
      { w.zone z with waiters := (w.zone z).waiters.filter (· ≠ c) } else w.zone z :=
    zone_foldl_modZone (f := fun y => { y with waiters := y.waiters.filter (· ≠ c) }) (by simp) _ w hz
  rw [unclaimed, zone_setClaim, zone_foldl_modZone (f := fun y => { y with holder := none }) (fun _ => rfl) _ _ hz, hwait]
  by_cases hh : z ∈ x.heldZones <;> by_cases hw : z ∈ x.waitingZones <;> simp [hh, hw]

theorem claim_unclaimed_self {w : Vol} {c : Nat} {x : Claim} (hc : w.claim c = some x) : (unclaimed w c x).claim c = none :=
  Vol.claim_setClaim _ none (lt_of_claim hc)

theorem claim_unclaimed_ne (w : Vol) {c d : Nat} (x : Claim) (h : d ≠ c) : (unclaimed w c x).claim d = w.claim d := by
  have hwait : (x.waitingZones.foldl (fun w z => w.leaveWait c z) w).claim d = w.claim d :=
    claim_foldl_modZone (fun y => { y with waiters := y.waiters.filter (· ≠ c) }) _ w d
  rw [unclaimed, claim_setClaim_ne _ none h, claim_foldl_modZone, hwait]

theorem releaseWalks : ReleaseWalks :=
  ⟨fun _ _ _ h => walk_of_inOrder h, fun w c x hc => ⟨unclaimed w c x, releaseClaim_eq hc, claim_unclaimed_self hc,
    fun _ hd => claim_unclaimed_ne w x hd, fun _ hz => zone_unclaimed w c x hz⟩⟩

/-- Before the walk the released claim holds none of its zones and waits for none of them. -/
theorem unclaimed_gone {w : Vol} {c z : Nat} {x : Claim} (hc : w.claim c = some x) (hz : z < 64) :
    Gone c z (z ∈ x.heldZones) (z ∈ x.waitingZones) (unclaimed w c x) := by
  refine ⟨claim_unclaimed_self hc, fun hh => ?_, fun hw => ?_⟩ <;> rw [zone_unclaimed w c x hz]
  · simp [hh]
  · simp [hw]

theorem claimReleased : ClaimReleased := by
  intro w c x hc
  rw [releaseClaim_eq hc]
  have gone {z : Nat} (hz : z < 64) := walk_gone hz (unclaimed_gone hc hz) x.heldZones
  refine ⟨(gone (z := 0) (by decide)).entry, fun z hz => (gone hz).holder, fun z hz => (gone hz).waiter, fun hnone => ?_, ?_, ?_⟩
  · rw [hnone, walk_nil]
    refine ⟨fun d hd => claim_unclaimed_ne w x hd, fun z hz => ?_⟩
    simp [zone_unclaimed w c x hz, hnone]
  · intro z d y hz hheld hd hstate hwaiters hy hm hstatus
    have hzone : (unclaimed w c x).zone z = { w.zone z with holder := none, waiters := [d] } := by
      simp [zone_unclaimed w c x hz, hheld, hwaiters, hd]
    rw [hheld]
    refine walk_hands_over ?_ (by rw [hzone]) ((claim_unclaimed_ne w x hd).trans hy) hm hstatus
    rw [hzone]
    exact state_without_holder hstate
  · intro z hz hheld hwaiters
    have hzone : (unclaimed w c x).zone z = { w.zone z with holder := none, waiters := [] } := by
      simp [zone_unclaimed w c x hz, hheld, hwaiters]
    rw [hheld, walk_no_waiters (by rw [hzone]), hzone]

/-! ### The claims concerned by a change of a zone (R29) -/

/-- Claim `c` is concerned by a change of the zone: it holds it or waits for it. -/
def Concerned (x : Zone) (c : Nat) : Prop := x.holder = some c ∨ c ∈ x.waiters

theorem mem_concerned (w : Vol) (z c : Nat) : c ∈ w.concerned z ↔ Concerned (w.zone z) c := by
  rw [Vol.concerned, (sortBy_perm _ _).mem_iff, List.mem_eraseDups, List.mem_append, Concerned, Option.mem_toList]

theorem concerned_of_inOrder {w : Vol} {z : Nat} {cs : List Nat} (h : InOrder w (Concerned (w.zone z)) cs) :
    w.concerned z = cs :=
  sortBy_of_inOrder h fun c => by rw [List.mem_append, Concerned, Option.mem_toList]

/-- A zone record without claim `c`. -/
def without (x : Zone) (c : Nat) : Zone :=
  { x with holder := if x.holder = some c then none else x.holder, waiters := x.waiters.filter (· ≠ c) }

/-- Without all the claims concerned a zone has neither holder nor wait list. -/
theorem foldl_without {x : Zone} {cs : List Nat} (h : ∀ c, Concerned x c → c ∈ cs) :
    (cs.foldl without x).holder = none ∧ (cs.foldl without x).waiters = [] := by
  induction cs generalizing x with
  | nil =>
    refine ⟨?_, ?_⟩
    · cases hh : x.holder with
      | none => exact hh
      | some c => exact absurd (h c (.inl hh)) (by simp)
    · cases hw : x.waiters with
      | nil => exact hw
      | cons c t => exact absurd (h c (.inr (by simp [hw]))) (by simp)
  | cons a t ih =>
    refine ih fun c hc => ?_
    have hca : c ≠ a ∧ Concerned x c := by
      rcases hc with hc | hc
      · by_cases ha : x.holder = some a
        · simp [without, ha] at hc
        · have hc' : x.holder = some c := by simpa [without, ha] using hc
          exact ⟨fun he => ha (he ▸ hc'), .inl hc'⟩
      · have hc' : c ∈ x.waiters ∧ c ≠ a := by simpa [without] using hc
        exact ⟨hc'.2, .inr hc'.1⟩
    exact List.mem_of_ne_of_mem hca.1 (h c hca.2)

/-! ### The loss of a zone (R28, R29) -/

theorem zone_loseZone (w : Vol) (c : Nat) {z : Nat} (m : MissCause) (hz : z < 64) :
    (w.loseZone c z m).zone z = without (w.zone z) c := Vol.zone_modZone _ _ hz

theorem claim_loseZone (w : Vol) (c z : Nat) (m : MissCause) (d : Nat) : (w.loseZone c z m).claim d =
    if d = c then (w.claim d).map (marked · z (.missed m)) else w.claim d := claim_setStatus w c z _ d

/-- Claim `c` no longer waits for zone `z`. -/
def NotWaiting (w : Vol) (c z : Nat) : Prop := ∀ x, w.claim c = some x → z ∉ x.waitingZones

theorem SameOff.notWaiting {w u : Vol} {c z : Nat} (h : SameOff (· ≠ z) w u) (hw : NotWaiting w c z) :
    NotWaiting u c z := by
  intro y hy
  cases hc : w.claim c with
  | none => simp [h.absent c hc] at hy
  | some x =>
    obtain ⟨y', hy', hxy⟩ := h.present c x hc
    obtain rfl : y' = y := by simpa [hy'] using hy
    rw [hxy.waits z (by simp)]
    exact hw x hc

/-- Claim `c` misses zone `z` with cause `m`. -/
structure Misses (m : MissCause) (c z : Nat) (w : Vol) : Prop where
  notWaiting : NotWaiting w c z
  status : (w.claim c).bind (·.statusOf z) = some (.missed m)

theorem SameOff.misses {w u : Vol} {m : MissCause} {c z : Nat} (h : SameOff (· ≠ z) w u) (hw : Misses m c z w) :
    Misses m c z u :=
  ⟨h.notWaiting hw.notWaiting, by rw [h.statusOf (by simp), hw.status]⟩

theorem loseZone_notWaiting (w : Vol) (c z : Nat) (m : MissCause) : NotWaiting (w.loseZone c z m) c z := by
  intro y hy
  rw [claim_loseZone, if_pos rfl] at hy
  obtain ⟨x, -, rfl⟩ := Option.map_eq_some_iff.mp hy
  exact marked_not_waits x z (by simp)

theorem loseZone_misses {w : Vol} {c z : Nat} {x : Claim} (m : MissCause) (hc : w.claim c = some x)
    (hx : x.hasZone z = true) : Misses m c z (w.loseZone c z m) := by
  refine ⟨loseZone_notWaiting w c z m, ?_⟩
  simp [claim_loseZone, hc, marked_statusOf_self _ hx]

/-- A loss by another claim, or by the same one again, leaves the zone missed. -/
theorem loseZone_keeps_misses {w : Vol} {m : MissCause} {c z : Nat} (h : Misses m c z w) (d : Nat) :
    Misses m c z (w.loseZone d z m) := by
  by_cases hd : c = d
  · subst hd
    obtain ⟨x, hc, hx⟩ := Option.bind_eq_some_iff.mp h.status
    exact loseZone_misses m hc (hasZone_of_statusOf hx)
  · have hsame : (w.loseZone d z m).claim c = w.claim c := by rw [claim_loseZone, if_neg hd]
    exact ⟨fun x hx => h.notWaiting x (hsame ▸ hx), by rw [hsame, h.status]⟩

theorem loseZone_keeps_notWaiting {w : Vol} {c z : Nat} (h : NotWaiting w c z) (d : Nat) (m : MissCause) :
    NotWaiting (w.loseZone d z m) c z := by
  by_cases hd : c = d
  · exact hd ▸ loseZone_notWaiting w c z m
  · exact fun x hx => h x (by rwa [claim_loseZone, if_neg hd] at hx)

/-- Claims that lose a zone one after another, each with whatever it does then to other zones: the zone is left without them, and
they miss it. -/
theorem foldl_loses {step : Vol → Nat → Vol} {z : Nat} {m : MissCause} (hz : z < 64)
    (hstep : ∀ v c x, v.claim c = some x → SameOff (· ≠ z) (v.loseZone c z m) (step v c)) (cs : List Nat) (w : Vol)
    (hcs : ∀ c ∈ cs, (w.claim c).isSome = true) :
    (cs.foldl step w).zone z = cs.foldl without (w.zone z)
    ∧ (∀ c, c ∈ cs ∨ NotWaiting w c z → NotWaiting (cs.foldl step w) c z)
    ∧ (∀ c, Misses m c z w → Misses m c z (cs.foldl step w))
    ∧ ∀ c ∈ cs, ∀ x, w.claim c = some x → x.hasZone z = true → Misses m c z (cs.foldl step w) := by
  induction cs generalizing w with
  | nil => exact ⟨rfl, by simp, fun _ h => h, by simp⟩
  | cons a t ih =>
    obtain ⟨xa, ha⟩ := Option.isSome_iff_exists.mp (hcs a List.mem_cons_self)
    have hsame := hstep w a xa ha
    have hall : SameOff (fun _ => True) w (step w a) :=
      ((sameOff_loseZone w a z m).mono fun _ _ => trivial).trans (hsame.mono fun _ _ => trivial)
    obtain ⟨hzone, hwaits, hmiss, hnew⟩ := ih (step w a) fun c hc => by
      rw [hall.claim_isSome]
      exact hcs c (List.mem_cons_of_mem _ hc)
    refine ⟨?_, fun c hc => ?_, fun c hc => ?_, fun c hc x hx hxz => ?_⟩
    · rw [List.foldl_cons, hzone, hsame.zone z (by simp), zone_loseZone w a m hz, List.foldl_cons]
    · refine hwaits c ?_
      rcases hc with hc | hc
      · rcases List.mem_cons.mp hc with rfl | hc
        · exact .inr (hsame.notWaiting (loseZone_notWaiting w c z m))
        · exact .inl hc
      · exact .inr (hsame.notWaiting (loseZone_keeps_notWaiting hc a m))
    · exact hmiss c (hsame.misses (loseZone_keeps_misses hc a))
    · rcases List.mem_cons.mp hc with rfl | hc
      · exact hmiss c (hsame.misses (loseZone_misses m hx hxz))
      · obtain ⟨y, hy, hxy⟩ := hall.present c x hx
        exact hnew c hc y hy (hxy.zones z hxz)

/-! ### The settlement of a fault (R29, R31) -/

/-- A WHOLE claim is tested again (R22). -/
def retest (w : Vol) (c : Nat) : Vol := if (w.claim c).map (·.mode) = some .whole then w.wholeTake c else w

/-- A claim with a substitute for the faulted zone `z`, waiting for it. -/
def withSubstitute (w : Vol) (c z y : Nat) : Vol :=
  w.modClaim c fun x => extended x { zone := y, via := some z, status := .waiting }

theorem claim_withSubstitute {w : Vol} {c : Nat} {x : Claim} (hc : w.claim c = some x) (z y : Nat) :
    (withSubstitute w c z y).claim c = some (extended x { zone := y, via := some z, status := .waiting }) := by
  simp [withSubstitute, claim_modClaim, hc]

theorem sameOff_withSubstitute (w : Vol) (c z y : Nat) : SameOff (· = y) w (withSubstitute w c z y) :=
  sameOff_modClaim w c fun x => keepsOff_extended x { zone := y, via := some z, status := .waiting }

/-- A wait list does not matter to what is obtainable. -/
theorem obtainableAt_enterWait (w : Vol) (c y p z : Nat) : (w.enterWait c y).obtainableAt p z = w.obtainableAt p z := by
  have hzone : ((w.enterWait c y).zone z).state = (w.zone z).state
      ∧ ((w.enterWait c y).zone z).holder = (w.zone z).holder := by
    by_cases hzy : z = y
    · subst hzy
      by_cases hz : z < 64
      · rw [zone_enterWait w c hz]
        exact ⟨rfl, rfl⟩
      · rw [zone_beyond _ hz, zone_beyond _ hz]
        exact ⟨rfl, rfl⟩
    · rw [zone_enterWait_ne w c hzy]
      exact ⟨rfl, rfl⟩
  exact obtainableAt_congr hzone.1 hzone.2 (fun _ => rfl) p

/-- R31, of a claim that was ACTIVE. -/
theorem arbitrate_active {w : Vol} {c z y : Nat} {x : Claim} (hc : w.claim c = some x) :
    w.arbitrateSubstitute c z y .active =
      if (withSubstitute w c z y).obtainableAt x.priority y = true then (withSubstitute w c z y).takeZone c y
      else if x.mode = .join then (withSubstitute w c z y).enterWait c y
      else (withSubstitute w c z y).setStatus c y (.missed .busy) := by
  have hc' := claim_withSubstitute hc z y
  have ho : (withSubstitute w c z y).obtainable c y = (withSubstitute w c z y).obtainableAt x.priority y :=
    obtainable_of_claim hc' y
  rw [← ho]
  simp only [Vol.arbitrateSubstitute, claim_modClaim, hc, if_true, Option.map_some]
  rfl

/-- R31, of a claim that waited: it waits for the substitute, and is arbitrated by its mode. -/
theorem arbitrate_waiting {w : Vol} {c z y : Nat} {x : Claim} {st : ClaimState} (hc : w.claim c = some x)
    (hst : st ≠ .active) :
    (x.mode = .join → w.arbitrateSubstitute c z y st =
      if (withSubstitute w c z y).obtainableAt x.priority y = true then ((withSubstitute w c z y).enterWait c y).takeZone c y
      else (withSubstitute w c z y).enterWait c y)
    ∧ (x.mode = .part → w.arbitrateSubstitute c z y st =
      if (withSubstitute w c z y).obtainableAt x.priority y = true then ((withSubstitute w c z y).enterWait c y).partTake c
      else (withSubstitute w c z y).enterWait c y)
    ∧ (x.mode = .whole → w.arbitrateSubstitute c z y st = ((withSubstitute w c z y).enterWait c y).wholeTake c) := by
  have hc' := claim_withSubstitute hc z y
  have ho : ((withSubstitute w c z y).enterWait c y).obtainable c y = (withSubstitute w c z y).obtainableAt x.priority y :=
    (obtainable_of_claim (w := (withSubstitute w c z y).enterWait c y) hc' y).trans (obtainableAt_enterWait _ c y _ y)
  rw [← ho]
  simp only [Vol.arbitrateSubstitute, claim_modClaim, hc, if_true, Option.map_some, if_neg hst]
  refine ⟨fun hm => ?_, fun hm => ?_, fun hm => ?_⟩ <;> rw [hm] <;> rfl

theorem claim_loseZone_self {w : Vol} {c : Nat} {x : Claim} (hc : w.claim c = some x) (z : Nat) (m : MissCause) :
    (w.loseZone c z m).claim c = some (marked x z (.missed m)) := by
  simp [claim_loseZone, hc]

theorem retest_of_claim {w : Vol} {c : Nat} {x : Claim} (hc : w.claim c = some x) :
    retest w c = if x.mode = .whole then w.wholeTake c else w := by
  simp [retest, hc]

/-- R29: a claim without a substitute, or with one that is in its list already. -/
theorem settleFault_alone {w : Vol} {z c : Nat} {x : Claim} (hc : w.claim c = some x)
    (h : (w.loseZone c z .fault).substitute z = none
      ∨ ∃ y, (w.loseZone c z .fault).substitute z = some y ∧ x.hasZone y = true) :
    w.settleFault z c = retest (w.loseZone c z .fault) c := by
  rw [retest_of_claim (claim_loseZone_self hc z .fault)]
  rcases h with h | ⟨y, h, hy⟩
  · simp only [Vol.settleFault, hc, h]
    rfl
  · simp only [Vol.settleFault, hc, h, hy]
    rfl

theorem settleFault_substitute {w : Vol} {z c y : Nat} {x : Claim} (hc : w.claim c = some x)
    (hy : (w.loseZone c z .fault).substitute z = some y) (hx : x.hasZone y = false) :
    w.settleFault z c = (w.loseZone c z .fault).arbitrateSubstitute c z y x.state := by
  simp only [Vol.settleFault, hc, hy, hx]
  rfl

theorem faultZone_eq {w : Vol} {z : Nat} {cs : List Nat} (h : InOrder w (Concerned (w.zone z)) cs) :
    w.faultZone z = cs.foldl (fun v c => v.settleFault z c) w := by
  rw [Vol.faultZone, concerned_of_inOrder h]

theorem withdrawZone_retest (w : Vol) (z : Nat) : w.withdrawZone z =
    (w.concerned z).foldl retest ((w.concerned z).foldl (fun v c => v.loseZone c z .withdrawn) w) := by
  unfold Vol.withdrawZone
  dsimp only
  congr 1
  funext v c
  cases hc : v.claim c <;> simp [retest, hc]

theorem faultSettled : FaultSettled := by
  refine ⟨fun w z cs hcs => ⟨faultZone_eq hcs, ?_⟩, ?_⟩
  · rw [withdrawZone_retest, concerned_of_inOrder hcs]
    rfl
  · rintro w w1 z c x hc rfl
    refine ⟨fun hnone => ⟨fun hm => ?_, fun hm => ?_⟩, ?_⟩
    · rw [settleFault_alone hc hnone, retest_of_claim (claim_loseZone_self hc z .fault)]
      exact if_pos hm
    · rw [settleFault_alone hc hnone, retest_of_claim (claim_loseZone_self hc z .fault)]
      exact if_neg hm
    · intro y w2 hy hx hw2
      have hc1 := claim_loseZone_self hc z .fault
      have hw2 : w2 = withSubstitute (w.loseZone c z .fault) c z y := hw2
      rw [settleFault_substitute hc hy hx, hw2]
      have hwait (hs : x.state = .waiting) := arbitrate_waiting (z := z) (y := y) (st := x.state) hc1 (by simp [hs])
      refine ⟨fun hs ho => ?_, fun hs ho hm => ?_, fun hs ho hm => ?_, fun hs ho hm => ?_, fun hs ho hm => ?_,
        fun hs ho hm => ?_, fun hs hm => ?_⟩
      · rw [hs, arbitrate_active hc1]
        exact if_pos ho
      · rw [hs, arbitrate_active hc1]
        exact (if_neg (Bool.eq_false_iff.mp ho)).trans (if_pos hm)
      · rw [hs, arbitrate_active hc1]
        exact (if_neg (Bool.eq_false_iff.mp ho)).trans (if_neg hm)
      · obtain ⟨hjoin, -, -⟩ := hwait hs
        exact (hjoin hm).trans (if_pos ho)
      · obtain ⟨-, hpart, -⟩ := hwait hs
        exact (hpart hm).trans (if_pos ho)
      · obtain ⟨hjoin, hpart, -⟩ := hwait hs
        cases hmode : x.mode with
        | join => exact (hjoin hmode).trans (if_neg (Bool.eq_false_iff.mp ho))
        | part => exact (hpart hmode).trans (if_neg (Bool.eq_false_iff.mp ho))
        | whole => exact absurd hmode hm
      · obtain ⟨-, -, hwhole⟩ := hwait hs
        exact hwhole hm

/-! What a claim does after it has lost a zone does not reach that zone. -/

theorem retest_sameOff {w : Vol} {c z : Nat} (h : NotWaiting w c z) : SameOff (· ≠ z) w (retest w c) := by
  cases hc : w.claim c with
  | none =>
    have : retest w c = w := by simp [retest, hc]
    rw [this]
    exact .refl _ w
  | some x =>
    rw [retest_of_claim hc]
    split
    · exact (wholeTake_takes hc).sameOff.mono fun y hy => ne_of_mem_of_not_mem hy (h x hc)
    · exact .refl _ w

theorem foldl_retest_sameOff {z : Nat} (cs : List Nat) (w : Vol) (h : ∀ c ∈ cs, NotWaiting w c z) :
    SameOff (· ≠ z) w (cs.foldl retest w) := by
  induction cs generalizing w with
  | nil => exact .refl _ w
  | cons a t ih =>
    have ha := retest_sameOff (h a List.mem_cons_self)
    exact ha.trans (ih _ fun c hc => ha.notWaiting (h c (List.mem_cons_of_mem _ hc)))

theorem arbitrate_sameOff {w : Vol} {c z y : Nat} {x : Claim} {st : ClaimState} (hc : w.claim c = some x) (hy : y ≠ z)
    (h : NotWaiting w c z) : SameOff (· ≠ z) w (w.arbitrateSubstitute c z y st) := by
  have off {v u : Vol} (hv : SameOff (· = y) v u) : SameOff (· ≠ z) v u := hv.mono fun k hk => hk ▸ hy
  have hsub : SameOff (· ≠ z) w (withSubstitute w c z y) := off (sameOff_withSubstitute w c z y)
  have hwait : SameOff (· ≠ z) w ((withSubstitute w c z y).enterWait c y) :=
    hsub.trans (off (sameOff_enterWait _ c y))
  have hc' : ((withSubstitute w c z y).enterWait c y).claim c = _ := claim_withSubstitute hc z y
  have hnot := hwait.notWaiting h _ hc'
  by_cases hst : st = .active
  · rw [hst, arbitrate_active hc]
    split
    · exact hsub.trans (off (sameOff_takeZone _ c y))
    · split
      · exact hwait
      · exact hsub.trans (off (sameOff_setStatus _ c y _))
  · obtain ⟨hjoin, hpart, hwhole⟩ := arbitrate_waiting (z := z) (y := y) hc hst
    cases hm : x.mode with
    | join =>
      rw [hjoin hm]
      split
      · exact hwait.trans (off (sameOff_takeZone _ c y))
      · exact hwait
    | part =>
      rw [hpart hm]
      split
      · exact hwait.trans ((partTake_takes hc').sameOff.mono fun k hk => ne_of_mem_of_not_mem hk hnot)
      · exact hwait
    | whole =>
      rw [hwhole hm]
      exact hwait.trans ((wholeTake_takes hc').sameOff.mono fun k hk => ne_of_mem_of_not_mem hk hnot)

theorem settleFault_sameOff {w : Vol} {c z : Nat} {x : Claim} (hc : w.claim c = some x) :
    SameOff (· ≠ z) (w.loseZone c z .fault) (w.settleFault z c) := by
  have hnot := loseZone_notWaiting w c z .fault
  cases hy : (w.loseZone c z .fault).substitute z with
  | none =>
    rw [settleFault_alone hc (.inl hy)]
    exact retest_sameOff hnot
  | some y =>
    cases hx : x.hasZone y with
    | true =>
      rw [settleFault_alone hc (.inr ⟨y, hy, hx⟩)]
      exact retest_sameOff hnot
    | false =>
      rw [settleFault_substitute hc hy hx]
      exact arbitrate_sameOff (claim_loseZone_self hc z .fault) (substitute_usable hy).1 hnot

theorem zoneLost : ZoneLost := by
  intro w z hz hall
  have hsome : ∀ c ∈ w.concerned z, (w.claim c).isSome = true := fun c hc => hall c ((mem_concerned w z c).mp hc)
  have hempty := foldl_without (x := w.zone z) fun c hc => (mem_concerned w z c).mpr hc
  obtain ⟨hzone, hwaits, -, hmisses⟩ := foldl_loses (m := .withdrawn) hz (step := fun v c => v.loseZone c z .withdrawn)
    (fun _ _ _ _ => .refl _ _) (w.concerned z) w hsome
  have hretest := foldl_retest_sameOff (z := z) (w.concerned z) _ fun c hc => hwaits c (.inl hc)
  rw [← withdrawZone_retest] at hretest
  obtain ⟨hzoneF, -, -, hmissesF⟩ := foldl_loses (m := .fault) hz (step := fun v c => v.settleFault z c)
    (fun _ _ _ hc => settleFault_sameOff hc) (w.concerned z) w hsome
  change (w.faultZone z).zone z = _ at hzoneF
  rw [hretest.zone z (by simp), hzone, hzoneF]
  refine ⟨hempty.1, hempty.2, hempty.1, hempty.2, fun c x hc hx hxz => ⟨?_, ?_⟩, fun hh hw => ?_⟩
  · exact (hretest.misses (hmisses c ((mem_concerned w z c).mpr hc) x hx hxz)).status
  · exact (hmissesF c ((mem_concerned w z c).mpr hc) x hx hxz).status
  · have hnone : w.concerned z = [] := concerned_of_inOrder ⟨List.nodup_nil, by simp [Concerned, hh, hw], .nil⟩
    rw [withdrawZone_retest, Vol.faultZone, hnone]
    exact ⟨rfl, rfl⟩

/-! ### Recovery (R32) -/

theorem mem_rejoiners (w : Vol) (z c : Nat) : c ∈ w.rejoiners z ↔ Rejoins w z c := by
  unfold Vol.rejoiners Rejoins
  rw [List.mem_filter, List.mem_range]
  cases hc : w.claim c with
  | none => simp
  | some x => simp [lt_of_claim hc]

theorem rejoiners_nodup (w : Vol) (z : Nat) : (w.rejoiners z).Nodup := List.nodup_range.filter _

/-- A claim waits again for a zone that has recovered. -/
def rejoin (z : Nat) (w : Vol) (c : Nat) : Vol := (w.setStatus c z .waiting).enterWait c z

theorem recoverZone_eq (w : Vol) (z : Nat) : w.recoverZone z = ((w.rejoiners z).foldl (rejoin z) w).walk [z] := rfl

theorem sameOff_rejoin (z : Nat) (w : Vol) (c : Nat) : SameOff (· = z) w (rejoin z w c) :=
  (sameOff_setStatus w c z _).trans (sameOff_enterWait _ c z)

theorem claim_rejoin (z : Nat) (w : Vol) (c d : Nat) :
    (rejoin z w c).claim d = if d = c then (w.claim d).map (marked · z .waiting) else w.claim d := claim_setStatus w c z _ d

theorem zone_rejoin {z : Nat} (hz : z < 64) (w : Vol) (c : Nat) : (rejoin z w c).zone z =
    { w.zone z with waiters := insertBy w.claimBefore c ((w.zone z).waiters.filter (· ≠ c)) } := by
  rw [rejoin, zone_enterWait _ c hz, zone_setStatus, (sameOff_setStatus w c z .waiting).claimBefore]

theorem claim_foldl_rejoin {z : Nat} {cs : List Nat} (hn : cs.Nodup) (w : Vol) (d : Nat) :
    (cs.foldl (rejoin z) w).claim d = if d ∈ cs then (w.claim d).map (marked · z .waiting) else w.claim d := by
  induction cs generalizing w with
  | nil => simp
  | cons a t ih =>
    obtain ⟨hat, ht⟩ := List.nodup_cons.mp hn
    rw [List.foldl_cons, ih ht, claim_rejoin]
    by_cases hd : d = a
    · subst hd
      simp [hat]
    · simp [hd]

/-- Claims that are not on the wait list enter it one after another. -/
theorem zone_foldl_rejoin {z : Nat} (hz : z < 64) {cs : List Nat} (hn : cs.Nodup) (w : Vol)
    (hout : ∀ c ∈ cs, c ∉ (w.zone z).waiters) : (cs.foldl (rejoin z) w).zone z =
      { w.zone z with waiters := cs.foldl (fun ws c => insertBy w.claimBefore c ws) (w.zone z).waiters } := by
  induction cs generalizing w with
  | nil => rfl
  | cons a t ih =>
    obtain ⟨hat, ht⟩ := List.nodup_cons.mp hn
    have hfilter : (w.zone z).waiters.filter (· ≠ a) = (w.zone z).waiters :=
      List.filter_eq_self.mpr fun c hc => by simpa using ne_of_mem_of_not_mem hc (hout a List.mem_cons_self)
    have hzone := zone_rejoin hz w a
    rw [hfilter] at hzone
    have hout' : ∀ c ∈ t, c ∉ ((rejoin z w a).zone z).waiters := by
      intro c hc
      rw [hzone, mem_insertBy, not_or]
      exact ⟨ne_of_mem_of_not_mem hc hat, hout c (List.mem_cons_of_mem _ hc)⟩
    rw [List.foldl_cons, ih ht _ hout', hzone, (sameOff_rejoin z w a).claimBefore, List.foldl_cons]

theorem sortBy_eq_foldr {α : Type} (lt : α → α → Bool) (l : List α) : sortBy lt l = l.foldr (insertBy lt) [] := by
  induction l with
  | nil => rfl
  | cons x t ih => rw [sortBy, ih, List.foldr_cons]

/-- Claims that enter an empty wait list stand there in their order, whatever order they came in. -/
theorem foldl_insertBy_of_inOrder {w : Vol} {p : Nat → Prop} {l cs : List Nat} (hcs : InOrder w p cs) (hn : l.Nodup)
    (hl : ∀ c, c ∈ l ↔ p c) : l.foldl (fun ws c => insertBy w.claimBefore c ws) [] = cs := by
  obtain ⟨hcn, hmem, hsorted⟩ := hcs
  have hperm : l.reverse.Perm cs :=
    (List.reverse_perm l).trans ((List.perm_ext_iff_of_nodup hn hcn).mpr fun c => by rw [hl, hmem])
  rw [← List.foldr_reverse, ← sortBy_eq_foldr]
  exact sortBy_eq_of_pairwise (claimBefore_asymm w) hperm (hsorted.imp fun h => (claimBefore_iff w _ _).mpr h)

/-- Rejoining reaches zones and claims alone. -/
theorem foldl_rejoin_rest (z : Nat) (cs : List Nat) (w : Vol) :
    { cs.foldl (rejoin z) w with zones := w.zones, claims := w.claims } = w := by
  refine foldl_keeps (fun v : Vol => { v with zones := w.zones, claims := w.claims } = w) (rejoin z) cs w rfl ?_
  exact fun v c h => h

theorem zoneRejoined : ZoneRejoined := by
  intro w z cs hz hempty hcs
  have hn := rejoiners_nodup w z
  have hzone := zone_foldl_rejoin hz hn w (by simp [hempty])
  rw [hempty, foldl_insertBy_of_inOrder hcs hn (mem_rejoiners w z)] at hzone
  refine ⟨(w.rejoiners z).foldl (rejoin z) w, recoverZone_eq w z, hzone, fun y hy => ?_, fun c hc => ?_, fun c hc => ?_,
    foldl_rejoin_rest z _ w⟩
  · exact (SameOff.foldl (fun w c _ => sameOff_rejoin z w c) w).zone y hy
  · rw [claim_foldl_rejoin hn, if_pos ((mem_rejoiners w z c).mpr hc)]
    rfl
  · rw [claim_foldl_rejoin hn, if_neg (mt (mem_rejoiners w z c).mp hc)]

theorem zoneRecovered : ZoneRecovered := by
  intro w z hz hquiet hempty
  refine ⟨fun c x hc hm hmissed hsole => ?_, fun hnone => ?_⟩
  · have hc' : Rejoins w z c := ⟨x, hc, hm, hmissed⟩
    have honly : InOrder w (Rejoins w z) [c] := by
      refine ⟨List.nodup_singleton c, fun d => ?_, List.pairwise_singleton _ c⟩
      rw [List.mem_singleton]
      refine ⟨fun hd => hd ▸ hc', fun ⟨y, hy, hym, hyz⟩ => ?_⟩
      by_contra hd
      exact hsole d y hd hy hym hyz
    obtain ⟨w1, hwalk, hzone, -, hclaim, -, -⟩ := zoneRejoined w z [c] hz hempty honly
    have hc1 : w1.claim c = some (marked x z .waiting) := by
      rw [hclaim c hc', hc]
      rfl
    rw [hwalk]
    refine walk_hands_over ?_ (by rw [hzone]) hc1 hm (marked_statusOf_self _ (hasZone_of_statusOf hmissed))
    rw [hzone]
    exact hquiet
  · have hno : w.rejoiners z = [] := by
      rw [List.eq_nil_iff_forall_not_mem]
      intro c hc
      obtain ⟨x, hx, hm, hmissed⟩ := (mem_rejoiners w z c).mp hc
      exact hnone c x hx hm hmissed
    rw [recoverZone_eq, hno]
    exact walk_no_waiters hempty

/-! ### The events of a zone (R1, R2) -/

theorem zoneChangeHanded : ZoneChangeHanded := by
  intro w z f hz
  refine ⟨fun hb ha => ?_, fun hb ha => ?_, fun hb ha => ?_, fun hstays hquiet => ?_⟩
  · rcases hb with hb | hb <;> simp [Vol.changeZone, hz, hb, ha]
  · rcases hb with hb | hb <;> simp [Vol.changeZone, hz, hb, ha]
  · rcases hb with hb | hb <;> simp [Vol.changeZone, hz, hb, ha]
  · cases hb : (w.zone z).state with
    | quiet => rcases hstays (.inl hb) with ha | ha <;> simp [Vol.changeZone, hz, hb, ha]
    | held => rcases hstays (.inr hb) with ha | ha <;> simp [Vol.changeZone, hz, hb, ha]
    | off =>
      have ha : (f (w.zone z)).state ≠ .quiet := fun ha => by simpa [hb] using hquiet ha
      simp [Vol.changeZone, hz, hb, ha]
    | faulted =>
      have ha : (f (w.zone z)).state ≠ .quiet := fun ha => by simpa [hb] using hquiet ha
      simp [Vol.changeZone, hz, hb, ha]

/-- R2: as they are reported, QUIET and HELD are one state. -/
theorem reportedState_ne_iff (x y : Zone) : Vol.reportedState x ≠ Vol.reportedState y ↔ x.state ≠ y.state
    ∧ ¬ ((x.state = .quiet ∧ y.state = .held) ∨ (x.state = .held ∧ y.state = .quiet)) := by
  unfold Vol.reportedState
  cases x.state <;> cases y.state <;> decide

theorem reportsDiffer_iff (x y : Zone) : ReportsDiffer x y ↔
    Vol.reportedState y ≠ Vol.reportedState x ∨ y.health ≠ x.health ∨ y.cond ≠ x.cond := by
  rw [ReportsDiffer, ← reportedState_ne_iff]
  simp only [ne_comm]

theorem zoneEventTaken : ZoneEventTaken := by
  rintro w w1 nv z f y rfl rfl
  rw [reportsDiffer_iff]
  exact ⟨fun h => if_pos h, fun h => if_neg h⟩

end Sys2Proof.Zones
end

section
/-! PROOFS. The placement of a claim (R17, R18, R20 to R24), and the rules of zones and claims as a whole. -/

namespace Sys2Proof.Zones

open Sys2Proof.Machine Sys2Proof.Laws Sys2Proof.Statements

/-! ### Substitutes in a target list (R21, R30) -/

/-- The substitute of one faulted member, appended when it is not yet in the list. -/
def addSubstitute (w : Vol) (es : List Elem) (z : Nat) : List Elem :=
  match w.substitute z with
  | some y => if es.any (fun e => decide (e.zone = y)) then es else es ++ [{ zone := y, via := some z, status := .waiting }]
  | none => es

theorem addSubstitutes_eq (w : Vol) (es : List Elem) (zs : List Nat) :
    w.addSubstitutes es zs = zs.foldl (addSubstitute w) es := rfl

theorem addSubstitute_stands {w : Vol} {es : List Elem} {z : Nat}
    (h : w.substitute z = none ∨ ∃ e ∈ es, w.substitute z = some e.zone) : addSubstitute w es z = es := by
  rcases h with h | ⟨e, he, h⟩
  · simp [addSubstitute, h]
  · have hany : ∃ d ∈ es, d.zone = e.zone := ⟨e, he, rfl⟩
    simp [addSubstitute, h, hany]

theorem addSubstitute_appends {w : Vol} {es : List Elem} {z y : Nat} (h : w.substitute z = some y)
    (hnew : ∀ e ∈ es, e.zone ≠ y) :
    addSubstitute w es z = es ++ [{ zone := y, via := some z, status := .waiting }] := by
  simp only [addSubstitute, h]
  rw [if_neg (by simpa using hnew)]

/-- A member has no substitute that would be new to the list, or has one. -/
theorem substitute_new_or (w : Vol) (es : List Elem) (z : Nat) :
    (w.substitute z = none ∨ ∃ e ∈ es, w.substitute z = some e.zone)
    ∨ ∃ y, w.substitute z = some y ∧ ∀ e ∈ es, e.zone ≠ y := by
  cases hy : w.substitute z with
  | none => exact .inl (.inl rfl)
  | some y =>
    by_cases hin : ∃ e ∈ es, e.zone = y
    · obtain ⟨e, he, rfl⟩ := hin
      exact .inl (.inr ⟨e, he, rfl⟩)
    · exact .inr ⟨y, rfl, by simpa using hin⟩

theorem seeks_eq {w : Vol} {es fs : List Elem} {zs : List Nat} (h : Seeks w es zs fs) : fs = w.addSubstitutes es zs := by
  induction zs generalizing es with
  | nil => exact h
  | cons z t ih =>
    obtain ⟨happend, hstand⟩ := h
    rw [addSubstitutes_eq, List.foldl_cons]
    rcases substitute_new_or w es z with hno | ⟨y, hy, hnew⟩
    · rw [addSubstitute_stands hno]
      exact ih (hstand hno)
    · rw [addSubstitute_appends hy hnew]
      exact ih (happend y hy hnew)

/-- What the substitutes add to a list: zones of the table that wait, none of them twice. -/
theorem addSubstitutes_spec (w : Vol) (es : List Elem) (zs : List Nat) : ∃ more, w.addSubstitutes es zs = es ++ more
    ∧ (∀ e ∈ more, e.status = .waiting ∧ e.zone < 64)
    ∧ ((es.map (·.zone)).Nodup → ((es ++ more).map (·.zone)).Nodup) := by
  induction zs generalizing es with
  | nil => exact ⟨[], (List.append_nil es).symm, by simp, by simp⟩
  | cons z t ih =>
    rw [addSubstitutes_eq, List.foldl_cons]
    rcases substitute_new_or w es z with hno | ⟨y, hy, hnew⟩
    · rw [addSubstitute_stands hno]
      exact ih es
    · obtain ⟨more, he, hmore, hnodup⟩ := ih (es ++ [{ zone := y, via := some z, status := .waiting }])
      rw [addSubstitute_appends hy hnew]
      rw [List.append_assoc] at he hnodup
      refine ⟨_ :: more, he, fun e hm => ?_, fun hn => hnodup ?_⟩
      · rcases List.mem_cons.mp hm with rfl | hm
        · exact ⟨rfl, substitute_lt hy⟩
        · exact hmore e hm
      · simpa [List.nodup_append] using ⟨hn, hnew⟩

/-! ### What a placement puts into the claim table -/

/-- R18: the claim table with new stamps, when the stamp counter has come to its end. -/
def stamped (w : Vol) : Vol := if w.stampCounter = Config.maxStamp then w.renumberClaims else w

/-- R21: the target list of a placement on a group. -/
def newElems (w : Vol) (g : Nat) : List Elem :=
  w.addSubstitutes ((w.group g).map w.memberElem) ((w.group g).filter fun z => decide ((w.zone z).state = .faulted))

/-- The claim that a placement makes. -/
def newClaim (w : Vol) (owner : Owner) (g p : Nat) (mode : ClaimMode) : Claim :=
  { owner := owner, priority := p, mode := mode, stamp := w.stampCounter, elems := newElems w g }

/-- The part with the new claim in the table and on the wait lists of its zones, before it takes any. -/
def entered (w : Vol) (c : Nat) (x : Claim) : Vol :=
  x.waitingZones.foldl (fun w z => w.enterWait c z) (({ w with stampCounter := w.stampCounter + 1 } : Vol).setClaim c (some x))

/-! ### New stamps (R18) -/

/-- The stamp of a claim, 0 where there is none. -/
def stampOf (w : Vol) (c : Nat) : Nat := (w.claim c).elim 0 (·.stamp)

theorem stampOf_eq (w : Vol) (c : Nat) : ((w.claim c).map (·.stamp)).getD 0 = stampOf w c := by
  cases hc : w.claim c <;> simp [stampOf, hc]

/-- The ids with a claim. -/
def usedIds (w : Vol) : List Nat := (List.range 40).filter fun c => (w.claim c).isSome

/-- The ids with a claim, oldest stamp first. -/
def byStamp (w : Vol) : List Nat := sortBy (fun a b => decide (stampOf w a < stampOf w b)) (usedIds w)

/-- A claim takes a stamp. -/
def restamp (w : Vol) (e : Nat × Nat) : Vol := w.modClaim e.1 fun x => { x with stamp := e.2 }

theorem renumberClaims_eq (w : Vol) : w.renumberClaims =
    { (byStamp w).zipIdx.foldl restamp w with stampCounter := (byStamp w).length } := rfl

theorem foldl_restamp_rest (l : List (Nat × Nat)) (w : Vol) : { l.foldl restamp w with claims := w.claims } = w := by
  refine foldl_keeps (fun v : Vol => { v with claims := w.claims } = w) restamp l w rfl ?_
  exact fun v e h => h

/-- New stamps reach the claim table and the stamp counter alone. -/
theorem renumberClaims_rest (w : Vol) :
    { w.renumberClaims with claims := w.claims, stampCounter := w.stampCounter } = w := by
  rw [renumberClaims_eq]
  exact congrArg (fun v : Vol => { v with stampCounter := w.stampCounter }) (foldl_restamp_rest _ w)

theorem priority_restamp (w : Vol) (e : Nat × Nat) (c : Nat) :
    ((restamp w e).claim c).map (·.priority) = (w.claim c).map (·.priority) := by
  rw [restamp, claim_modClaim]
  split
  · rw [Option.map_map]
    rfl
  · rfl

/-- New stamps leave the priorities. -/
theorem priority_renumberClaims (w : Vol) (c : Nat) :
    (w.renumberClaims.claim c).map (·.priority) = (w.claim c).map (·.priority) := by
  rw [renumberClaims_eq]
  exact foldl_keeps (fun v => (v.claim c).map (·.priority) = (w.claim c).map (·.priority)) restamp _ w rfl
    fun v e h => (priority_restamp v e c).trans h

/-- Claims restamped in a rising order of their stamps take the place each has in it. -/
theorem claim_foldl_restamp {f : Nat → Nat} {l : List Nat} (hl : l.Pairwise fun a b => f a < f b) (k : Nat) (v : Vol)
    (c : Nat) : ((l.zipIdx k).foldl restamp v).claim c = if c ∈ l then
      (v.claim c).map fun x => { x with stamp := k + (l.filter fun d => decide (f d < f c)).length } else v.claim c := by
  induction l generalizing k v with
  | nil => rfl
  | cons a t ih =>
    obtain ⟨ha, ht⟩ := List.pairwise_cons.mp hl
    have hstep : (restamp v (a, k)).claim c = if c = a then (v.claim c).map fun x => { x with stamp := k } else v.claim c :=
      claim_modClaim v a _ c
    rw [List.zipIdx_cons, List.foldl_cons, ih ht, hstep]
    by_cases hca : c = a
    · subst hca
      have hct : c ∉ t := fun h => lt_irrefl _ (ha c h)
      have hnone : (t.filter fun d => decide (f d < f c)) = [] :=
        List.filter_eq_nil_iff.mpr fun d hd => by simpa using (ha d hd).le
      simp [hct, hnone]
    · by_cases hct : c ∈ t
      · simp [hca, hct, ha c hct, Nat.add_right_comm k 1, Nat.add_assoc]
      · simp [hca, hct]

theorem claim_of_usedIds {w : Vol} {c : Nat} : c ∈ usedIds w ↔ (w.claim c).isSome = true := by
  rw [usedIds, List.mem_filter, List.mem_range, and_iff_right_iff_imp]
  intro h
  obtain ⟨x, hx⟩ := Option.isSome_iff_exists.mp h
  exact lt_of_claim hx

/-- Two states that differ in nothing but claims and stamp counter, and have the same claims and counter. -/
theorem eq_of_claims {u v w : Vol} (hu : { u with claims := w.claims, stampCounter := w.stampCounter } = w)
    (hv : { v with claims := w.claims, stampCounter := w.stampCounter } = w) (hc : ∀ c, u.claim c = v.claim c)
    (hs : u.stampCounter = v.stampCounter) : u = v := by
  have hclaims : u.claims = v.claims := by
    ext c hlt : 1
    have := hc c
    rwa [Vol.claim, Vol.claim, tget_of_lt _ _ hlt, tget_of_lt _ _ hlt] at this
  calc u = { ({ u with claims := w.claims, stampCounter := w.stampCounter } : Vol) with
        claims := u.claims, stampCounter := u.stampCounter } := rfl
    _ = { ({ v with claims := w.claims, stampCounter := w.stampCounter } : Vol) with
        claims := v.claims, stampCounter := v.stampCounter } := by rw [hu, hv, hclaims, hs]
    _ = v := rfl

/-- R18: with different stamps each claim takes the number of older claims for its stamp. -/
theorem claim_renumberClaims {w : Vol}
    (hdiff : ∀ c d x y, w.claim c = some x → w.claim d = some y → c ≠ d → x.stamp ≠ y.stamp) (c : Nat) :
    w.renumberClaims.claim c = (w.claim c).map fun x =>
      { x with stamp := ((usedIds w).filter fun d => decide (stampOf w d < x.stamp)).length } := by
  have hne : (usedIds w).Pairwise fun a b => stampOf w a ≠ stampOf w b := by
    refine (List.nodup_range.filter _).pairwise_of_forall_ne fun a ha b hb hab => ?_
    obtain ⟨x, hx⟩ := Option.isSome_iff_exists.mp (claim_of_usedIds.mp ha)
    obtain ⟨y, hy⟩ := Option.isSome_iff_exists.mp (claim_of_usedIds.mp hb)
    simpa [stampOf, hx, hy] using hdiff a b x y hx hy hab
  have hperm : (byStamp w).Perm (usedIds w) := sortBy_perm _ _
  have hsorted : (byStamp w).Pairwise fun a b => stampOf w a < stampOf w b := sortBy_key_pairwise (stampOf w) hne
  have hclaim : w.renumberClaims.claim c = ((byStamp w).zipIdx.foldl restamp w).claim c := by
    rw [renumberClaims_eq]
    rfl
  have hmem : c ∈ byStamp w ↔ (w.claim c).isSome = true := hperm.mem_iff.trans claim_of_usedIds
  rw [hclaim, claim_foldl_restamp hsorted]
  cases hc : w.claim c with
  | none => exact if_neg (by simp [hmem, hc])
  | some x =>
    have hstamp : stampOf w c = x.stamp := by simp [stampOf, hc]
    rw [if_pos (by simp [hmem, hc]), hstamp, (hperm.filter _).length_eq, Nat.zero_add]
    rfl

/-! ### The placement -/

theorem freeClaim_spec {w : Vol} {c : Nat} (h : w.freeClaim = some c) : c < 40 ∧ w.claim c = none := by
  have hnone := List.find?_some h
  have hmem := List.mem_of_find?_eq_some h
  exact ⟨by simpa using hmem, by simpa using hnone⟩

/-- The lowest free id stands where the same ids are taken. -/
theorem freeClaim_congr {u w : Vol} (h : ∀ c, (u.claim c).isNone = (w.claim c).isNone) : u.freeClaim = w.freeClaim := by
  rw [Vol.freeClaim, Vol.freeClaim, funext h]

theorem stamped_rest (w : Vol) : { stamped w with claims := w.claims, stampCounter := w.stampCounter } = w := by
  unfold stamped
  split
  · exact renumberClaims_rest w
  · rfl

theorem priority_stamped (w : Vol) (c : Nat) : ((stamped w).claim c).map (·.priority) = (w.claim c).map (·.priority) := by
  unfold stamped
  split
  · exact priority_renumberClaims w c
  · rfl

theorem zone_of_rest {u w : Vol} (h : { u with claims := w.claims, stampCounter := w.stampCounter } = w) : u.zone = w.zone := by
  rw [← h]
  rfl

theorem group_of_rest {u w : Vol} (h : { u with claims := w.claims, stampCounter := w.stampCounter } = w) :
    u.group = w.group := by
  rw [← h]
  rfl

theorem fallbackWalk_congr {u w : Vol} (h : u.zone = w.zone) (n : Nat) (visited : List Nat) (z : Nat) :
    u.fallbackWalk n visited z = w.fallbackWalk n visited z := by
  induction n generalizing visited z with
  | zero => rfl
  | succ n ih =>
    cases hf : (w.zone z).fallback with
    | none => rw [fallbackWalk_none (by rw [h, hf]), fallbackWalk_none hf]
    | some y => rw [fallbackWalk_succ (by rw [h, hf]), fallbackWalk_succ hf, h, ih]

/-- A target list turns on zones and groups alone. -/
theorem newElems_congr {u w : Vol} (hz : u.zone = w.zone) (hg : u.group = w.group) (g : Nat) :
    newElems u g = newElems w g := by
  have hadd : addSubstitute u = addSubstitute w := by
    funext es z
    have hsub : u.substitute z = w.substitute z := fallbackWalk_congr hz 4 [z] z
    unfold addSubstitute
    rw [hsub]
  have helem : u.memberElem = w.memberElem := by
    funext z
    unfold Vol.memberElem
    rw [hz]
  rw [newElems, newElems, addSubstitutes_eq, addSubstitutes_eq, hadd, helem, hz, hg]

theorem placeClaim_eq {w : Vol} {owner : Owner} {g p c : Nat} {mode : ClaimMode} (hg : w.group g ≠ [])
    (hc : w.freeClaim = some c) : w.placeClaim owner g p mode =
      (some c, (entered (stamped w) c (newClaim (stamped w) owner g p mode)).modeTake c) := by
  have hgroup : (stamped w).group g = w.group g := by rw [group_of_rest (stamped_rest w)]
  obtain ⟨z, t, hzt⟩ := List.exists_cons_of_ne_nil hg
  unfold newClaim newElems
  rw [hgroup, Vol.placeClaim, hc, hzt]
  rfl

theorem stampsRenewed : StampsRenewed := by
  rintro w w1 owner g p mode used hg hfree hmax rfl hdiff hclaims hcount hrest
  obtain ⟨c, hc⟩ := Option.ne_none_iff_exists'.mp hfree
  have hsame : w.renumberClaims = w1 := by
    refine eq_of_claims (renumberClaims_rest w) hrest (fun c => ?_) ?_
    · rw [claim_renumberClaims hdiff, hclaims]
      simp only [stampOf_eq]
      rfl
    · rw [renumberClaims_eq, hcount]
      exact (sortBy_perm _ _).length_eq
  have hold : stamped w = w1 := by rw [stamped, ← hsame]; exact if_pos hmax
  have hlow : w1.stampCounter ≠ Config.maxStamp := by
    have hle : (usedIds w).length ≤ (List.range 40).length := List.length_filter_le _ _
    change w1.stampCounter = (usedIds w).length at hcount
    rw [List.length_range] at hle
    simp only [Config.maxStamp]
    omega
  have hnew : stamped w1 = w1 := if_neg hlow
  have hfree1 : w1.freeClaim = some c := by
    rw [← hc]
    exact freeClaim_congr fun c => by rw [hclaims, Option.isNone_map]
  have hg1 : w1.group g ≠ [] := by rwa [group_of_rest hrest]
  rw [placeClaim_eq hg hc, placeClaim_eq hg1 hfree1, hold, hnew]

/-! ### The new claim (R21) -/

theorem memberElem_eq (w : Vol) (z : Nat) : w.memberElem z = { zone := z, via := none, status :=
    if (w.zone z).state = .off then (.missed .withdrawn)
    else if (w.zone z).state = .faulted then (.missed .fault) else .waiting } := by
  unfold Vol.memberElem
  cases (w.zone z).state <;> rfl

/-- The target list of a group of different zones of the table: different zones of the table, the members first, and no element
HELD yet. -/
theorem newElems_spec {w : Vol} {g : Nat} (hn : (w.group g).Nodup) (hlt : ∀ z ∈ w.group g, z < 64) :
    ((newElems w g).map (·.zone)).Nodup ∧ (∀ e ∈ newElems w g, e.zone < 64) ∧ (∀ e ∈ newElems w g, e.status ≠ .held)
    ∧ ∀ z ∈ w.group g, w.memberElem z ∈ newElems w g := by
  obtain ⟨more, he, hmore, hnodup⟩ := addSubstitutes_spec w ((w.group g).map w.memberElem)
    ((w.group g).filter fun z => decide ((w.zone z).state = .faulted))
  have hzones : ((w.group g).map w.memberElem).map (·.zone) = w.group g := by
    rw [List.map_map]
    exact List.map_id' _
  rw [newElems, he]
  refine ⟨hnodup (by rwa [hzones]), fun e hm => ?_, fun e hm => ?_, fun z hz =>
    List.mem_append_left _ (List.mem_map_of_mem hz)⟩
  · rcases List.mem_append.mp hm with hm | hm
    · obtain ⟨z, hz, rfl⟩ := List.mem_map.mp hm
      exact hlt z hz
    · exact (hmore e hm).2
  · rcases List.mem_append.mp hm with hm | hm
    · obtain ⟨z, -, rfl⟩ := List.mem_map.mp hm
      rw [memberElem_eq]
      dsimp only
      split
      · simp
      · split <;> simp
    · simp [(hmore e hm).1]

/-- An element that does not wait is of a zone that is not waited for. -/
theorem not_waits_of_mem {x : Claim} (hn : (x.elems.map (·.zone)).Nodup) {e : Elem} (he : e ∈ x.elems)
    (hs : e.status ≠ .waiting) : e.zone ∉ x.waitingZones := by
  intro hw
  obtain ⟨d, hd, hde, hdw⟩ := (mem_waitingZones x _).mp hw
  have hsame := statusOf_of_mem hn hd
  rw [hde, statusOf_of_mem hn he, hdw] at hsame
  exact hs (Option.some.inj hsame)

/-! ### The new claim on the wait lists -/

theorem claim_foldl_enterWait (c : Nat) (zs : List Nat) (w : Vol) (d : Nat) :
    (zs.foldl (fun w z => w.enterWait c z) w).claim d = w.claim d :=
  foldl_keeps (fun v => v.claim d = w.claim d) (fun w z => w.enterWait c z) zs w rfl fun _ _ h => h

theorem counter_foldl_enterWait (c : Nat) (zs : List Nat) (w : Vol) :
    (zs.foldl (fun w z => w.enterWait c z) w).stampCounter = w.stampCounter :=
  foldl_keeps (fun v => v.stampCounter = w.stampCounter) (fun w z => w.enterWait c z) zs w rfl fun _ _ h => h

/-- Entering wait lists changes nothing of a zone but its wait list, and puts the claim on those of its zones. -/
theorem zone_foldl_enterWait (c : Nat) (zs : List Nat) (w : Vol) {z : Nat} (hz : z < 64) :
    ∃ ws, (zs.foldl (fun w z => w.enterWait c z) w).zone z = { w.zone z with waiters := ws }
      ∧ (z ∈ zs ∨ c ∈ (w.zone z).waiters → c ∈ ws) := by
  induction zs generalizing w with
  | nil => exact ⟨(w.zone z).waiters, rfl, by simp⟩
  | cons y t ih =>
    obtain ⟨ws, he, hin⟩ := ih (w.enterWait c y)
    rw [List.foldl_cons]
    by_cases hzy : z = y
    · subst hzy
      have hzone := zone_enterWait w c hz
      exact ⟨ws, by rw [he, hzone], fun _ => hin (.inr (by rw [hzone]; simp [mem_insertBy]))⟩
    · rw [zone_enterWait_ne w c hzy] at he hin
      refine ⟨ws, he, fun h => hin ?_⟩
      simpa [hzy] using h

theorem claim_entered_self (w : Vol) {c : Nat} (x : Claim) (hc : c < 40) : (entered w c x).claim c = some x := by
  rw [entered, claim_foldl_enterWait, Vol.claim_setClaim _ _ hc]

theorem claim_entered_ne (w : Vol) {c d : Nat} (x : Claim) (h : d ≠ c) : (entered w c x).claim d = w.claim d := by
  rw [entered, claim_foldl_enterWait, claim_setClaim_ne _ _ h]
  rfl

theorem counter_entered (w : Vol) (c : Nat) (x : Claim) : (entered w c x).stampCounter = w.stampCounter + 1 := by
  rw [entered, counter_foldl_enterWait]
  rfl

theorem zone_entered (w : Vol) (c : Nat) (x : Claim) {z : Nat} (hz : z < 64) :
    ∃ ws, (entered w c x).zone z = { w.zone z with waiters := ws } ∧ (z ∈ x.waitingZones → c ∈ ws) := by
  obtain ⟨ws, he, hin⟩ := zone_foldl_enterWait c x.waitingZones
    (({ w with stampCounter := w.stampCounter + 1 } : Vol).setClaim c (some x)) hz
  exact ⟨ws, he, fun h => hin (.inl h)⟩

/-- The new claim obtains, at its own priority, what was obtainable before it came. -/
theorem obtainableAt_entered {w u : Vol} {c : Nat} {x : Claim} (hzone : u.zone = w.zone)
    (hp : ∀ h, (u.claim h).map (·.priority) = (w.claim h).map (·.priority)) (hc : c < 40) (hfree : w.claim c = none)
    {z : Nat} (hz : z < 64) : (entered u c x).obtainableAt x.priority z = w.obtainableAt x.priority z := by
  obtain ⟨ws, he, -⟩ := zone_entered u c x hz
  have hstate : ((entered u c x).zone z).state = (w.zone z).state := by
    rw [he, hzone]
    rfl
  have hholder : ((entered u c x).zone z).holder = (w.zone z).holder := by rw [he, hzone]
  have hlower (h : Nat) : (∃ k, (entered u c x).claim h = some k ∧ k.priority < x.priority)
      ↔ ∃ k, w.claim h = some k ∧ k.priority < x.priority := by
    by_cases hh : h = c
    · subst hh
      simp [claim_entered_self u x hc, hfree]
    · have lower (v : Vol) : (∃ k, v.claim h = some k ∧ k.priority < x.priority)
          ↔ ∃ q, (v.claim h).map (·.priority) = some q ∧ q < x.priority := by simp
      rw [lower, lower, claim_entered_ne u x hh, hp]
  rw [Bool.eq_iff_iff, obtainableAt_iff, obtainableAt_iff, hstate, hholder]
  simp only [exists_and_left, hlower]

/-! ### Zones and via-zones of a target list stand -/

theorem targets_setStatus (w : Vol) (c z : Nat) (st : Status) (d : Nat) :
    ((w.setStatus c z st).claim d).map targets = (w.claim d).map targets := by
  rw [claim_setStatus]
  split
  · simp [Function.comp_def, marked_targets]
  · rfl

theorem targets_preempt (w : Vol) (h z d : Nat) : ((w.preempt h z).claim d).map targets = (w.claim d).map targets := by
  rcases preempt_cases w h z with he | ⟨-, he⟩ | he <;> rw [he]
  · rw [claim_enterWait, targets_setStatus]
  · rw [targets_setStatus]

theorem targets_takeZone (w : Vol) (c z d : Nat) : ((w.takeZone c z).claim d).map targets = (w.claim d).map targets := by
  rw [takeZone_eq, claim_modGain, targets_setStatus, claim_modZone]
  rcases vacated_cases w c z with he | ⟨h, -, -, he⟩ <;> rw [he]
  rw [targets_preempt]

theorem TakesOf.targets {c : Nat} {P : Nat → Prop} {w u : Vol} (h : TakesOf c P w u) (d : Nat) :
    (u.claim d).map targets = (w.claim d).map targets := by
  induction h with
  | refl => rfl
  | take _ _ ih => rw [targets_takeZone, ih]
  | miss _ _ ih => rw [Vol.missZone, claim_leaveWait, targets_setStatus, ih]

/-! ### Placement (R17, R20 to R24) -/

/-- A claim just entered: `u` is `w` with claim `c`, the record `x`, in the table and on the wait lists, its list of different
zones of the table without a HELD element. -/
structure JustEntered (w u : Vol) (c : Nat) (x : Claim) : Prop where
  claim : u.claim c = some x
  nodup : (x.elems.map (·.zone)).Nodup
  lt : ∀ e ∈ x.elems, e.zone < 64
  notHeld : ∀ e ∈ x.elems, e.status ≠ .held
  holder : ∀ z < 64, (u.zone z).holder = (w.zone z).holder
  waits : ∀ z ∈ x.waitingZones, c ∈ (u.zone z).waiters
  obtainable : ∀ z < 64, u.obtainableAt x.priority z = w.obtainableAt x.priority z

section
variable {w u : Vol} {c : Nat} {x : Claim} (hu : JustEntered w u c x)
include hu

theorem JustEntered.of_waiting {e : Elem} (he : e ∈ x.elems) (hs : e.status = .waiting) :
    e.zone ∈ x.waitingZones ∧ x.statusOf e.zone = some .waiting :=
  ⟨(mem_waitingZones x _).mpr ⟨e, he, rfl, hs⟩, by rw [statusOf_of_mem hu.nodup he, hs]⟩

/-- With an element that waits the claim is WAITING. -/
theorem JustEntered.state {e : Elem} (he : e ∈ x.elems) (hs : e.status = .waiting) : x.state = .waiting := by
  obtain ⟨-, hwaiting, -⟩ := claimStates x
  exact hwaiting.mpr ⟨hu.notHeld, e, he, hs⟩

/-- A zone that stands as it was entered is waited for. -/
theorem JustEntered.waitsZone {v : Vol} {e : Elem} (he : e ∈ x.elems) (hs : e.status = .waiting)
    (hzone : v.zone e.zone = u.zone e.zone)
    (hstatus : (v.claim c).bind (·.statusOf e.zone) = some .waiting) : WaitsZone w v c e.zone := by
  refine ⟨?_, ?_, hstatus⟩
  · rw [hzone, hu.holder _ (hu.lt e he)]
  · rw [hzone]
    exact hu.waits _ (hu.of_waiting he hs).1

theorem JustEntered.waitsZone_self {e : Elem} (he : e ∈ x.elems) (hs : e.status = .waiting) : WaitsZone w u c e.zone :=
  hu.waitsZone he hs rfl (by rw [hu.claim]; exact (hu.of_waiting he hs).2)

/-- R24: a JOIN claim. -/
theorem JustEntered.join (hm : x.mode = .join) {e : Elem} (he : e ∈ x.elems) (hs : e.status = .waiting) :
    (w.obtainableAt x.priority e.zone = true → HoldsZone (u.modeTake c) c e.zone)
    ∧ (w.obtainableAt x.priority e.zone = false → WaitsZone w (u.modeTake c) c e.zone) := by
  obtain ⟨hjoin, -⟩ := candidateTakes u _ c x hu.claim hu.nodup hu.lt rfl
  obtain ⟨htakes, hleaves⟩ := hjoin hm e.zone (hu.of_waiting he hs).1
  rw [← hu.obtainable _ (hu.lt e he)]
  exact ⟨htakes, fun ho => hu.waitsZone he hs (hleaves ho).1 (hleaves ho).2⟩

/-- R22: a WHOLE claim. -/
theorem JustEntered.whole (hm : x.mode = .whole) :
    ((∀ e ∈ x.elems, e.status = .waiting → w.obtainableAt x.priority e.zone = true) →
      ∀ e ∈ x.elems, e.status = .waiting → HoldsZone (u.modeTake c) c e.zone)
    ∧ ((∃ e ∈ x.elems, e.status = .waiting ∧ w.obtainableAt x.priority e.zone = false) →
      ∀ e ∈ x.elems, e.status = .waiting → WaitsZone w (u.modeTake c) c e.zone) := by
  obtain ⟨-, htakes, hleaves, -⟩ := candidateTakes u _ c x hu.claim hu.nodup hu.lt rfl
  refine ⟨fun hall e he hs => ?_, fun ⟨d, hd, hds, ho⟩ e he hs => ?_⟩
  · refine htakes hm (hu.state he hs) (fun z hz => ?_) e.zone (hu.of_waiting he hs).1
    obtain ⟨d, hd, rfl, hds⟩ := (mem_waitingZones x z).mp hz
    rw [hu.obtainable _ (hu.lt d hd)]
    exact hall d hd hds
  · rw [hleaves hm (.inr ⟨d.zone, (hu.of_waiting hd hds).1, by rwa [hu.obtainable _ (hu.lt d hd)]⟩)]
    exact hu.waitsZone_self he hs

/-- R23: a PARTIAL claim. -/
theorem JustEntered.part (hm : x.mode = .part) :
    ((∃ e ∈ x.elems, e.status = .waiting ∧ w.obtainableAt x.priority e.zone = true) →
      ∀ e ∈ x.elems, e.status = .waiting →
        (w.obtainableAt x.priority e.zone = true → HoldsZone (u.modeTake c) c e.zone)
        ∧ (w.obtainableAt x.priority e.zone = false →
            ((u.modeTake c).claim c).bind (·.statusOf e.zone) = some (.missed .busy)
            ∧ ((u.modeTake c).zone e.zone).holder = (w.zone e.zone).holder ∧ c ∉ ((u.modeTake c).zone e.zone).waiters))
    ∧ ((∀ e ∈ x.elems, e.status = .waiting → w.obtainableAt x.priority e.zone = false) →
      ∀ e ∈ x.elems, e.status = .waiting → WaitsZone w (u.modeTake c) c e.zone) := by
  obtain ⟨-, -, -, htakes, hleaves, -⟩ := candidateTakes u _ c x hu.claim hu.nodup hu.lt rfl
  refine ⟨fun ⟨d, hd, hds, ho⟩ e he hs => ?_, fun hall e he hs => ?_⟩
  · have hsome : ∃ z ∈ x.waitingZones, u.obtainableAt x.priority z = true :=
      ⟨d.zone, (hu.of_waiting hd hds).1, by rwa [hu.obtainable _ (hu.lt d hd)]⟩
    obtain ⟨hob, hmiss⟩ := htakes hm (hu.state he hs) hsome e.zone (hu.of_waiting he hs).1
    rw [hu.obtainable _ (hu.lt e he), hu.holder _ (hu.lt e he)] at hmiss
    rw [hu.obtainable _ (hu.lt e he)] at hob
    exact ⟨hob, hmiss⟩
  · rw [hleaves hm (.inr fun z hz => ?_)]
    · exact hu.waitsZone_self he hs
    · obtain ⟨d, hd, rfl, hds⟩ := (mem_waitingZones x z).mp hz
      rw [hu.obtainable _ (hu.lt d hd)]
      exact hall d hd hds

/-- A zone that is missed from the start is missed at the end. -/
theorem JustEntered.missed {e : Elem} (he : e ∈ x.elems) (hs : e.status ≠ .waiting) :
    ((u.modeTake c).claim c).bind (·.statusOf e.zone) = some e.status := by
  rw [(modeTake_takes hu.claim).sameOff.statusOf (not_waits_of_mem hu.nodup he hs), hu.claim]
  exact statusOf_of_mem hu.nodup he

end

/-- A placement enters its claim, whose target list is that of the group as it stands. -/
theorem justEntered_of_placement {w : Vol} {owner : Owner} {g p c : Nat} {mode : ClaimMode} (hn : (w.group g).Nodup)
    (hlt : ∀ z ∈ w.group g, z < 64) (hc : w.freeClaim = some c) :
    (newClaim (stamped w) owner g p mode).elems = newElems w g
    ∧ JustEntered w (entered (stamped w) c (newClaim (stamped w) owner g p mode)) c
        (newClaim (stamped w) owner g p mode) := by
  obtain ⟨hc40, hfree⟩ := freeClaim_spec hc
  have hzone := zone_of_rest (stamped_rest w)
  have helems : (newClaim (stamped w) owner g p mode).elems = newElems w g :=
    newElems_congr hzone (group_of_rest (stamped_rest w)) g
  obtain ⟨hdiff, h64, hheld, -⟩ := newElems_spec hn hlt
  generalize newClaim (stamped w) owner g p mode = x at helems
  refine ⟨helems, claim_entered_self _ x hc40, helems ▸ hdiff, helems ▸ h64, helems ▸ hheld, fun z hz => ?_, fun z hz => ?_,
    fun z hz => obtainableAt_entered hzone (priority_stamped w) hc40 hfree hz⟩
  · obtain ⟨ws, he, -⟩ := zone_entered (stamped w) c x hz
    rw [he, hzone]
  · obtain ⟨e, hmem, rfl, -⟩ := (mem_waitingZones x z).mp hz
    obtain ⟨ws, he, hin⟩ := zone_entered (stamped w) c x (h64 e (helems ▸ hmem))
    rw [he]
    exact hin hz

theorem claimPlaced : ClaimPlaced := by
  rintro w w' owner g p c mode es fs hg hn hlt hc rfl rfl hfs
  obtain ⟨helems, hu⟩ := justEntered_of_placement (owner := owner) (p := p) (mode := mode) hn hlt hc
  obtain ⟨-, -, -, hmember⟩ := newElems_spec hn hlt
  have hes : ((w.group g).map fun z => ({ zone := z, via := none, status :=
      if (w.zone z).state = .off then (.missed .withdrawn)
      else if (w.zone z).state = .faulted then (.missed .fault) else .waiting } : Elem)) = (w.group g).map w.memberElem :=
    List.map_congr_left fun z _ => (memberElem_eq w z).symm
  rw [hes] at hfs
  obtain rfl : fs = newElems w g := seeks_eq hfs
  rw [placeClaim_eq hg hc]
  have hstamp : w.stampCounter < 4294967295 → stamped w = w := fun h => if_neg (by simp only [Config.maxStamp]; omega)
  have htakes := modeTake_takes hu.claim
  obtain ⟨y, hy, hxy⟩ := htakes.sameOff.present c _ hu.claim
  have htargets := htakes.targets c
  rw [hy, hu.claim] at htargets
  rw [← helems] at hmember ⊢
  refine ⟨rfl, ⟨y, hy, hxy.owner, hxy.priority, hxy.mode, Option.some.inj htargets, fun h => ⟨?_, ?_⟩⟩, fun z hz hs => ?_,
    fun z hz hs => ?_, fun hm e he hs => hu.join hm he hs, fun hm => hu.whole hm, fun hm => hu.part hm⟩
  · rw [hxy.stamp, newClaim, hstamp h]
  · rw [htakes.sameOff.counter, counter_entered, hstamp h]
  · have hmissed : (w.memberElem z).status = .missed .withdrawn := by simp [memberElem_eq, hs]
    rw [← hmissed]
    exact hu.missed (hmember z hz) (by simp [hmissed])
  · have hmissed : (w.memberElem z).status = .missed .fault := by simp [memberElem_eq, hs]
    rw [← hmissed]
    exact hu.missed (hmember z hz) (by simp [hmissed])

/-! ### Zones and claims -/

theorem zoneDerivations : ZoneDerivations :=
  ⟨fun x => ⟨state_off_iff x, state_faulted_iff x, holder_of_held, holder_of_quiet, health_derated_iff x⟩, conditionTable,
    obtainableAt_iff,
    fun w c _ hz => ⟨holder_takeZone w c hz, gain_takeZone w c hz, fun h => (mem_waiters_takeZone hz h).1 rfl,
      engine_takeZone w c _⟩,
    fun _ _ _ h => substitute_usable h⟩

/-- Settles O52. -/
theorem zoneRules : Obligations.ZoneRules :=
  ⟨zoneDerivations, claimStates, claimPlaced, stampsRenewed, holderPreempted, candidateTakes, claimReleased, releaseWalks,
    zoneLost, substituteFound, faultSettled, zoneRecovered, zoneRejoined, zoneChangeHanded, zoneEventTaken⟩

end Sys2Proof.Zones
end

section
/-! PROOFS. The live source table (2.11): the opening of a source by LIVE START, with and without the evacuation flag (R36,
R158), its closing (R35, R38), and the report of an absent lane (R39). -/

namespace Sys2Proof.Live

open Sys2Proof.Machine Sys2Proof.Laws Sys2Proof.Statements

/-! ### A source opens (R35) -/

/-- R21: an empty group makes no claim. -/
theorem placeClaim_emptyGroup {w : Vol} {g : Nat} (owner : Owner) (p : Nat) (mode : ClaimMode) (hg : w.group g = []) :
    w.placeClaim owner g p mode = (none, w) := by
  simp [Vol.placeClaim, hg]

theorem openSource_emptyGroup {w : Vol} {g : Nat} (lane : Nat) (o : Opener) (p limit : Nat) (hg : w.group g = []) :
    w.openSource lane o g p limit = none := by
  simp [Vol.openSource, placeClaim_emptyGroup _ _ _ hg]

/-- A group with members and a free claim id open the source, with the claim of that id. -/
theorem openSource_placed {w : Vol} {g c : Nat} (lane : Nat) (o : Opener) (p limit : Nat) (hg : w.group g ≠ [])
    (hc : w.freeClaim = some c) : w.openSource lane o g p limit =
      some ((w.placeClaim (.live lane) g p .join).2.setSource lane (some
        { opener := o, group := g, priority := p, limit := limit, talkTime := 0, absence := 0, absenceReported := false,
          claim := c })) := by
  rw [Vol.openSource, Zones.placeClaim_eq hg hc]

/-! ### A source closes (R35, R38) -/

theorem closeSource_closed {w : Vol} {lane : Nat} (cause : LiveCause) (h : w.source lane = none) :
    w.closeSource lane cause = w := by
  simp [Vol.closeSource, h]

theorem closeSource_open {w : Vol} {lane : Nat} {x : LiveSource} (cause : LiveCause) (h : w.source lane = some x) :
    w.closeSource lane cause = ((w.releaseClaim x.claim).setSource lane none).notify (.liveEnd lane x.opener cause) := by
  simp [Vol.closeSource, h]

/-- The closing of a source leaves the groups. -/
theorem group_closeSource (w : Vol) (lane : Nat) (cause : LiveCause) : (w.closeSource lane cause).group = w.group := by
  have houter := congrArg Vol.groups (closeSource_around w lane cause).outer
  have hgroups : (w.closeSource lane cause).groups = w.groups := houter
  funext g
  rw [Vol.group, hgroups]
  rfl

/-- To close every source is to close each lane: on a CLOSED one there is nothing to do. -/
theorem closeSources_all (w : Vol) (cause : LiveCause) :
    w.closeSources (fun _ => true) cause = (List.range 32).foldl (fun v l => v.closeSource l cause) w := by
  unfold Vol.closeSources
  congr 1
  funext v l
  cases h : v.source l with
  | none => exact (closeSource_closed cause h).symm
  | some x => rfl

theorem sourceCloses : SourceCloses := fun w _ cause =>
  ⟨closeSource_closed cause, fun _ => closeSource_open cause, closeSources_all w cause⟩

/-! ### Requests on live sources and their replies -/

theorem exec_liveStart (h : RequestHeader) (l : LiveStart) (s : State) : exec (.liveStart h l) s
    = .next (takeRequest h 16 (Instr.wf (.liveStart h l)) (actLiveStart l) s) := rfl

theorem exec_liveStartEvac (h : RequestHeader) (l : LiveStart) (s : State) : exec (.liveStartEvac h l) s
    = .next (takeRequest h 16 (Instr.wf (.liveStartEvac h l)) (actLiveStartEvac l) s) := rfl

theorem exec_liveStop (h : RequestHeader) (lane : Nat) (s : State) : exec (.liveStop h lane) s
    = .next (takeRequest h 17 (Instr.wf (.liveStop h lane)) (actLiveStop lane) s) := rfl

/-- A request of any assigned kind that its owner refuses changes nothing but its reply. -/
theorem declines_of_act {i : Instr} {h : RequestHeader} {s : State} {place kind : Nat} {act : Act} {code : ResultCode}
    (he : exec i s = .next (takeRequest h kind i.wf act s)) (hs : s.Reaches i h place) (hk : within 1 32 kind = true)
    (ha : act s = refuse code s) : Declines i s h kind place code :=
  ⟨_, he, takeRequest_ends hs hk act ha⟩

/-- A request of any assigned kind that its owner answers OK leaves the volatile state its owner gives. -/
theorem answers_of_act {i : Instr} {h : RequestHeader} {s : State} {place kind : Nat} {act : Act} {w : Vol}
    (he : exec i s = .next (takeRequest h kind i.wf act s)) (hs : s.Reaches i h place) (hk : within 1 32 kind = true)
    (ha : act s = okVol s w) : Answers i s { s with vol := w } h kind place .ok :=
  ⟨_, he, takeRequest_ends hs hk act ha⟩

/-! ### LIVE START (R36) -/

theorem inRange_iff (l : LiveStart) : l.inRange = true ↔ l.lane < 32 ∧ l.group < 32 ∧ l.limit ≤ 600 := by
  simp [LiveStart.inRange, and_assoc]

theorem not_inRange_iff (l : LiveStart) : l.inRange = false ↔ 32 ≤ l.lane ∨ 32 ≤ l.group ∨ 600 < l.limit := by
  rw [← Bool.not_eq_true, inRange_iff]
  omega

theorem actLiveStart_badArg {l : LiveStart} (s : State) (h : l.inRange = false ∨ 13 < l.priority) :
    actLiveStart l s = refuse .badArg s := if_pos h

theorem actLiveStart_busy {l : LiveStart} {s : State} (hr : l.inRange = true) (hp : l.priority ≤ 13)
    (ho : (s.vol.source l.lane).isSome = true) : actLiveStart l s = refuse .busy s := by
  simp [actLiveStart, hr, Nat.not_lt.mpr hp, ho]

theorem actLiveStart_emptyGroup {l : LiveStart} {s : State} (hr : l.inRange = true) (hp : l.priority ≤ 13)
    (ho : s.vol.source l.lane = none) (hg : s.vol.group l.group = []) : actLiveStart l s = refuse .badArg s := by
  simp [actLiveStart, hr, Nat.not_lt.mpr hp, ho, openSource_emptyGroup _ _ _ _ hg]

theorem actLiveStart_opens {l : LiveStart} {s : State} {w : Vol} (hr : l.inRange = true) (hp : l.priority ≤ 13)
    (ho : s.vol.source l.lane = none)
    (hw : s.vol.openSource l.lane .request l.group l.priority l.limit = some w) : actLiveStart l s = okVol s w := by
  simp [actLiveStart, hr, Nat.not_lt.mpr hp, ho, hw]

theorem liveStarted : LiveStarted := by
  intro h l s place hs
  have he := exec_liveStart h l s
  refine ⟨fun hbad => ?_, fun hlane hgroup hlimit hp => ?_⟩
  · refine declines_of_act he hs (by decide) (actLiveStart_badArg s ?_)
    rw [not_inRange_iff]
    omega
  · have hr := (inRange_iff l).mpr ⟨hlane, hgroup, hlimit⟩
    exact ⟨fun ho => declines_of_act he hs (by decide) (actLiveStart_busy hr hp ho),
      fun ho hg => declines_of_act he hs (by decide) (actLiveStart_emptyGroup hr hp ho hg),
      fun c ho hg hc => answers_of_act he hs (by decide) (actLiveStart_opens hr hp ho (openSource_placed _ _ _ _ hg hc))⟩

/-! ### LIVE START with the evacuation flag (R36, R158) -/

/-- R158: the claim of the evacuation source is placed after another opener's source on the lane has closed. -/
theorem openEvacSource_placed {w : Vol} {lane c : Nat} (line : Option Nat) (hg : w.group 31 ≠ [])
    (hc : (w.closeSource lane .stopped).freeClaim = some c) : w.openEvacSource lane line =
      some (((w.closeSource lane .stopped).placeClaim (.live lane) 31 15 .join).2.setSource lane (some
        { opener := .evacuation line, group := 31, priority := 15, limit := 0, talkTime := 0, absence := 0,
          absenceReported := false, claim := c })) :=
  openSource_placed _ _ _ _ (by rwa [group_closeSource]) hc

theorem actLiveStartEvac_badArg {l : LiveStart} (s : State) (h : l.inRange = false) :
    actLiveStartEvac l s = refuse .badArg s := if_pos h

theorem actLiveStartEvac_wrongState {l : LiveStart} {s : State} (hr : l.inRange = true)
    (h : s.vol.evac.state = .normal ∨ s.vol.evac.lane = none) : actLiveStartEvac l s = refuse .wrongState s := by
  cases hlane : s.vol.evac.lane with
  | none => simp [actLiveStartEvac, hr, hlane]
  | some lane =>
    have hnormal : s.vol.evac.state = .normal := by simpa [hlane] using h
    simp [actLiveStartEvac, hr, hlane, hnormal]

theorem actLiveStartEvac_busy {l : LiveStart} {s : State} {lane : Nat} (hr : l.inRange = true)
    (hstate : s.vol.evac.state ≠ .normal) (hlane : s.vol.evac.lane = some lane) (ho : s.vol.evacSourceOpen = true) :
    actLiveStartEvac l s = refuse .busy s := by
  simp [actLiveStartEvac, hr, hlane, hstate, ho]

theorem actLiveStartEvac_emptyGroup {l : LiveStart} {s : State} {lane : Nat} (hr : l.inRange = true)
    (hstate : s.vol.evac.state ≠ .normal) (hlane : s.vol.evac.lane = some lane) (ho : s.vol.evacSourceOpen = false)
    (hg : s.vol.group 31 = []) : actLiveStartEvac l s = refuse .badArg s := by
  simp [actLiveStartEvac, hr, hlane, hstate, ho, hg]

theorem actLiveStartEvac_opens {l : LiveStart} {s : State} {lane : Nat} {w : Vol} (hr : l.inRange = true)
    (hstate : s.vol.evac.state ≠ .normal) (hlane : s.vol.evac.lane = some lane) (ho : s.vol.evacSourceOpen = false)
    (hg : s.vol.group 31 ≠ []) (hw : s.vol.openEvacSource lane none = some w) : actLiveStartEvac l s = okVol s w := by
  simp [actLiveStartEvac, hr, hlane, hstate, ho, hg, hw]

theorem liveEvacStarted : LiveEvacStarted := by
  intro h l s place hs
  have he := exec_liveStartEvac h l s
  refine ⟨fun hbad => ?_, fun hl hgroup hlimit hstate => ?_, fun lane hl hgroup hlimit hstate hlane => ?_⟩
  · exact declines_of_act he hs (by decide) (actLiveStartEvac_badArg s ((not_inRange_iff l).mpr hbad))
  · have hr := (inRange_iff l).mpr ⟨hl, hgroup, hlimit⟩
    exact declines_of_act he hs (by decide) (actLiveStartEvac_wrongState hr hstate)
  · have hr := (inRange_iff l).mpr ⟨hl, hgroup, hlimit⟩
    exact ⟨fun ho => declines_of_act he hs (by decide) (actLiveStartEvac_busy hr hstate hlane ho),
      fun ho hg => declines_of_act he hs (by decide) (actLiveStartEvac_emptyGroup hr hstate hlane ho hg),
      fun c ho hg hc => answers_of_act he hs (by decide)
        (actLiveStartEvac_opens hr hstate hlane ho hg (openEvacSource_placed none hg hc))⟩

/-- Settles O38. -/
theorem liveOpened : Obligations.LiveOpened := ⟨liveStarted, liveEvacStarted⟩

/-! ### LIVE STOP (R38) -/

theorem actLiveStop_badArg {lane : Nat} (s : State) (h : 32 ≤ lane) : actLiveStop lane s = refuse .badArg s := if_pos h

theorem actLiveStop_notFound {lane : Nat} {s : State} (hl : lane < 32) (h : s.vol.source lane = none) :
    actLiveStop lane s = refuse .notFound s := by
  simp [actLiveStop, Nat.not_le.mpr hl, h]

theorem actLiveStop_closes {lane : Nat} {s : State} {x : LiveSource} (hl : lane < 32) (h : s.vol.source lane = some x) :
    actLiveStop lane s = okVol s (s.vol.closeSource lane .stopped) := by
  simp [actLiveStop, Nat.not_le.mpr hl, h]

theorem liveStopped : LiveStopped := by
  intro h lane s place hs
  have he := exec_liveStop h lane s
  refine ⟨fun hl => declines_of_act he hs (by decide) (actLiveStop_badArg s hl),
    fun hl hx => declines_of_act he hs (by decide) (actLiveStop_notFound hl hx), fun x hl hx => ?_⟩
  rw [← closeSource_open .stopped hx]
  exact answers_of_act he hs (by decide) (actLiveStop_closes hl hx)

/-! ### The talk limit and the absence of a lane (R38, R39) -/

theorem exec_talkLimit (lane : Fin 32) (s : State) : exec (.talkLimit lane) s
    = .next (takeMark (.talk lane) (fun w => w.talkDue lane) (fun _ w => w.talkMark lane) s) := rfl

theorem exec_laneAbsent (lane : Fin 32) (s : State) : exec (.laneAbsent lane) s
    = .next (takeMark (.absence lane) (fun w => w.absenceDue lane)
        (fun _ w => w.absenceMark (w.laneComing lane) lane) s) := rfl

/-- A command for a part of the block mark that is due takes that part. -/
theorem happens_of_mark {i : Instr} {m : MarkPart} {due : Vol → Bool} {act : Nonvolatile → Vol → Vol} {s : State}
    (he : exec i s = .next (takeMark m due act s)) (hm : s.AtMark m) (hd : due s.vol = true) :
    Happens i s { s with vol := (act s.nv s.vol).markTaken m } :=
  ⟨_, he.trans (congrArg _ (takeMark_due hm hd)), finish_ends _⟩

theorem expires_iff (x : LiveSource) (t : Nat) : x.expires t = true ↔ x.limit ≠ 0 ∧ x.limit * 1000 ≤ t := by
  simp [LiveSource.expires]

theorem talkDue_of_expires {w : Vol} {lane : Nat} {x : LiveSource} (h : w.source lane = some x)
    (hx : x.expires (x.talkTime + 1) = true) : w.talkDue lane = true := by
  simp [Vol.talkDue, h, hx]

theorem talkMark_of_expires {w : Vol} {lane : Nat} {x : LiveSource} (h : w.source lane = some x)
    (hx : x.expires (x.talkTime + 1) = true) : w.talkMark lane =
      (w.setSource lane (some { x with talkTime := x.talkTime + 1 })).closeSource lane .talkLimit := by
  simp [Vol.talkMark, h, hx]

theorem absenceDue_of_limit {w : Vol} {lane : Nat} {x : LiveSource} (h : w.source lane = some x)
    (hlane : w.laneComing lane = false) (ha : 2000 ≤ x.absence + 1) (hr : x.absenceReported = false) :
    w.absenceDue lane = true := by
  simp [Vol.absenceDue, h, hlane, hr, Config.absenceLimit, ha]

/-- R39: the absence time stops at its limit, and the report is made with the step that reaches it. -/
theorem absenceMark_of_limit {w : Vol} {lane : Nat} {x : LiveSource} (h : w.source lane = some x)
    (ha : 2000 ≤ x.absence + 1) (hr : x.absenceReported = false) : w.absenceMark false lane =
      (w.setSource lane (some { x with absence := 2000, absenceReported := true })).notify (.laneAbsent lane) := by
  have hmin : min Config.absenceLimit (x.absence + 1) = Config.absenceLimit := Nat.min_eq_left ha
  simp only [Vol.absenceMark, h, hr, hmin, Bool.false_eq_true, if_false, and_self, if_true]
  rfl

theorem liveMarks : LiveMarks := by
  intro lane x s hx
  refine ⟨fun hm hlimit htime => ?_, fun hm hlane ha hr => ?_⟩
  · have hexpires := (expires_iff x _).mpr ⟨hlimit, htime⟩
    rw [← talkMark_of_expires hx hexpires]
    exact happens_of_mark (exec_talkLimit lane s) hm (talkDue_of_expires hx hexpires)
  · rw [← absenceMark_of_limit hx ha hr, ← hlane]
    exact happens_of_mark (exec_laneAbsent lane s) hm (absenceDue_of_limit hx hlane ha hr)

/-- Settles O39. -/
theorem liveEnds : Obligations.LiveEnds := ⟨liveStopped, liveMarks, sourceCloses⟩

end Sys2Proof.Live
end

section
/-! PROOFS. The requests of the mixer: GAIN SET (R45) and MONITOR SELECT (R52). -/

namespace Sys2Proof.Mixer

open Sys2Proof.Machine Sys2Proof.Laws Sys2Proof.Statements

/-! ### Reading gain records -/

@[simp] theorem gain_setGain (w : Vol) {z : Nat} (x : Gain) (hz : z < 64) : (w.setGain z x).gain z = x :=
  tget_tset_self _ _ _ hz

theorem gain_setGain_ne (w : Vol) {z y : Nat} (x : Gain) (h : z ≠ y) : (w.setGain z x).gain y = w.gain y :=
  tget_tset_ne _ _ _ h

/-! ### GAIN SET (R45) -/

/-- R45: the gain record of a zone that an entry names. -/
def stagedBy (e : GainEntry) (g : Gain) : Gain :=
  { g with
    stagedFg := if e.fg.isSome = true then e.fg else g.stagedFg
    stagedBg := if e.bg.isSome = true then e.bg else g.stagedBg }

theorem or_eq_ite {α : Type} (a b : Option α) : a.or b = if a.isSome = true then a else b := by cases a <;> rfl

theorem stageGain_eq (w : Vol) (e : GainEntry) : w.stageGain e = w.setGain e.zone (stagedBy e (w.gain e.zone)) := by
  simp only [stagedBy, ← or_eq_ite]
  rfl

/-- The entries stage gain records and nothing else. -/
theorem foldl_stageGain (es : List GainEntry) (w : Vol) :
    es.foldl Vol.stageGain w = { w with gains := (es.foldl Vol.stageGain w).gains } :=
  foldl_keeps (fun v : Vol => v = { w with gains := v.gains }) _ _ _ rfl fun v e hv => by
    rw [stageGain_eq]
    exact congrArg (fun u : Vol => { u with gains := tset v.gains e.zone (stagedBy e (v.gain e.zone)) }) hv

/-- A zone that no entry names keeps its gain record. -/
theorem gain_foldl_stageGain_unnamed {es : List GainEntry} {z : Nat} (h : ∀ e ∈ es, e.zone ≠ z) (w : Vol) :
    (es.foldl Vol.stageGain w).gain z = w.gain z := by
  induction es generalizing w with
  | nil => rfl
  | cons e t ih =>
    obtain ⟨he, ht⟩ := List.forall_mem_cons.mp h
    rw [List.foldl_cons, ih ht, stageGain_eq, gain_setGain_ne _ _ he]

/-- Of entries that name no zone twice, each stages its bases on the record that stood before the first of them. -/
theorem gain_foldl_stageGain_named {es : List GainEntry} (hn : (es.map (·.zone)).Nodup) {e : GainEntry} (he : e ∈ es)
    (hz : e.zone < 64) (w : Vol) : (es.foldl Vol.stageGain w).gain e.zone = stagedBy e (w.gain e.zone) := by
  induction es generalizing w with
  | nil => cases he
  | cons x t ih =>
    obtain ⟨hx, ht⟩ := List.nodup_cons.mp hn
    have hfresh : ∀ y ∈ t, y.zone ≠ x.zone := fun y hy heq => hx (List.mem_map.mpr ⟨y, hy, heq⟩)
    rw [List.foldl_cons, stageGain_eq]
    rcases List.mem_cons.mp he with rfl | he
    · rw [gain_foldl_stageGain_unnamed hfresh, gain_setGain _ _ hz]
    · rw [ih ht he, gain_setGain_ne _ _ (hfresh e he).symm]

theorem gainEntry_inRange_iff (e : GainEntry) : e.inRange = true ↔ e.zone < 64 ∧ (∀ x, e.fg = some x → x ≤ 191)
    ∧ (∀ x, e.bg = some x → x ≤ 191) ∧ (e.fg.isSome = true ∨ e.bg.isSome = true) := by
  simp [GainEntry.inRange, optBelow_iff, Nat.lt_succ_iff, and_assoc]

theorem gainPasses_iff (es : List GainEntry) : within 1 64 es.length = true ∧ es.all GainEntry.inRange = true
    ∧ distinct (es.map (·.zone)) = true ↔ GainPasses es := by
  simp only [GainPasses, within_iff, Zones.distinct_iff, List.all_eq_true, gainEntry_inRange_iff]
  tauto

theorem actGainSet_passes {es : List GainEntry} (s : State) (h : GainPasses es) :
    actGainSet es s = okVol s (es.foldl Vol.stageGain s.vol) := if_pos ((gainPasses_iff es).mpr h)

theorem actGainSet_badArg {es : List GainEntry} (s : State) (h : ¬ GainPasses es) :
    actGainSet es s = refuse .badArg s := if_neg (mt (gainPasses_iff es).mp h)

theorem exec_gainSet (h : RequestHeader) (es : List GainEntry) (s : State) : exec (.gainSet h es) s
    = .next (takeRequest h 18 (Instr.wf (.gainSet h es)) (actGainSet es) s) := rfl

/-- Settles O40: every entry is staged on the gain record as it stood, since no zone is named twice. -/
theorem gainStaged : Obligations.GainStaged := by
  intro h es s place hs
  have he := exec_gainSet h es s
  refine ⟨fun hp => ?_, fun hp => Live.declines_of_act he hs (by decide) (actGainSet_badArg s hp)⟩
  obtain ⟨_, _, hdistinct, hentries⟩ := id hp
  refine ⟨(es.foldl Vol.stageGain s.vol).gains, ?_, fun e hmem => ?_, fun z hz => ?_⟩
  · rw [← foldl_stageGain]
    exact Live.answers_of_act he hs (by decide) (actGainSet_passes s hp)
  · exact gain_foldl_stageGain_named hdistinct hmem (hentries e hmem).1 s.vol
  · exact gain_foldl_stageGain_unnamed hz s.vol

/-! ### MONITOR SELECT (R52) -/

theorem exec_monitorSelect (h : RequestHeader) (z : Option Nat) (s : State) : exec (.monitorSelect h z) s
    = .next (takeRequest h 19 (Instr.wf (.monitorSelect h z)) (actMonitor z) s) := rfl

theorem actMonitor_selects {z : Option Nat} (s : State) (h : ∀ x, z = some x → x < 64) :
    actMonitor z s = okVol s { s.vol with monitor := z } := if_pos ((optBelow_iff 64 z).mpr h)

theorem actMonitor_badArg {x : Nat} (s : State) (h : 64 ≤ x) : actMonitor (some x) s = refuse .badArg s :=
  if_neg fun hz => absurd ((optBelow_iff 64 _).mp hz x rfl) (Nat.not_lt.mpr h)

theorem monitorTaken : MonitorTaken := by
  intro h z s place hs
  have he := exec_monitorSelect h z s
  refine ⟨fun hz => Live.answers_of_act he hs (by decide) (actMonitor_selects s hz), ?_⟩
  rintro x rfl hx
  exact Live.declines_of_act he hs (by decide) (actMonitor_badArg s hx)

end Sys2Proof.Mixer
end

section
/-! PROOFS. The object classes (11.5): LINK_CONFIG (R51, R168), the unassigned classes, and the records of TABLE READ (R179). -/

namespace Sys2Proof.Tables

open Sys2Proof.Machine Sys2Proof.Laws Sys2Proof.Statements

/-! ### LINK_CONFIG (R51, R168) -/

theorem setDelay_same {x : AlignBuffer} {d : Nat} (h : x.delay = d) : x.setDelay d = x := if_pos h

theorem setDelay_silent {x : AlignBuffer} {d : Nat} (h : x.delay ≠ d) (hs : x.state = .silent) :
    x.setDelay d = { x with delay := d } := by
  simp [AlignBuffer.setDelay, h, hs]

/-- R168: a buffer that is not SILENT fills again from empty. -/
theorem setDelay_refills {x : AlignBuffer} {d : Nat} (h : x.delay ≠ d) (hs : x.state ≠ .silent) :
    x.setDelay d = { x with delay := d, state := .filling, frames := [] } := by
  unfold AlignBuffer.setDelay
  rw [if_neg h]
  cases hx : x.state with
  | silent => exact absurd hx hs
  | filling => rfl
  | passing => rfl

/-- The delay is the one written, and the frame given out stands. -/
theorem setDelay_delay_out (x : AlignBuffer) (d : Nat) : (x.setDelay d).delay = d ∧ (x.setDelay d).out = x.out := by
  by_cases h : x.delay = d
  · rw [setDelay_same h]
    exact ⟨h, rfl⟩
  · by_cases hs : x.state = .silent
    · rw [setDelay_silent h hs]
      exact ⟨rfl, rfl⟩
    · rw [setDelay_refills h hs]
      exact ⟨rfl, rfl⟩

theorem linkConfigInRange_iff (d rate : Nat) :
    linkConfigInRange d rate = true ↔ 8 ≤ d ∧ d ≤ 480 ∧ 1 ≤ rate ∧ rate ≤ 16 := by
  simp [linkConfigInRange, within_iff, and_assoc]

theorem actWriteLink_sets {d rate : Nat} (s : State) (h : 8 ≤ d ∧ d ≤ 480 ∧ 1 ≤ rate ∧ rate ≤ 16) :
    actWriteLink d rate s = okVol s { s.vol with align := s.vol.align.setDelay d, rampRate := rate } :=
  if_pos ((linkConfigInRange_iff d rate).mpr h)

theorem actWriteLink_badArg {d rate : Nat} (s : State) (h : ¬ (8 ≤ d ∧ d ≤ 480 ∧ 1 ≤ rate ∧ rate ≤ 16)) :
    actWriteLink d rate s = refuse .badArg s := if_neg (mt (linkConfigInRange_iff d rate).mp h)

theorem exec_tableWriteLinkConfig (h : RequestHeader) (d rate : Nat) (s : State) : exec (.tableWriteLinkConfig h d rate) s
    = .next (takeRequest h 6 (Instr.wf (.tableWriteLinkConfig h d rate)) (actWriteLink d rate) s) := rfl

theorem linkConfigWritten : LinkConfigWritten := by
  intro h d rate s place hs
  have he := exec_tableWriteLinkConfig h d rate s
  refine ⟨fun hr => ⟨s.vol.align.setDelay d, Live.answers_of_act he hs (by decide) (actWriteLink_sets s hr), ?_⟩,
    fun hr => Live.declines_of_act he hs (by decide) (actWriteLink_badArg s hr)⟩
  obtain ⟨hdelay, hout⟩ := setDelay_delay_out s.vol.align d
  exact ⟨hdelay, hout, setDelay_same, setDelay_silent, setDelay_refills⟩

/-! ### The unassigned classes, and the answer of TABLE READ (R179) -/

theorem exec_tableWriteUnassigned (h : RequestHeader) (cls : Nat) (s : State) : exec (.tableWriteUnassigned h cls) s
    = .next (takeRequest h 6 (Instr.wf (.tableWriteUnassigned h cls)) actWriteUnassigned s) := rfl

theorem exec_tableRead (h : RequestHeader) (cls : Nat) (i : ReadIndex) (s : State) : exec (.tableRead h cls i) s
    = .next (takeRequest h 7 (Instr.wf (.tableRead h cls i)) (actTableRead cls i) s) := rfl

theorem actTableRead_some {cls : Nat} {i : ReadIndex} {s : State} {bs : List Byte} (h : readRecord s.vol cls i = some bs) :
    actTableRead cls i s = ({ code := .ok, body := .record bs }, s) := by
  simp [actTableRead, h]

theorem actTableRead_none {cls : Nat} {i : ReadIndex} {s : State} (h : readRecord s.vol cls i = none) :
    actTableRead cls i s = refuse .badArg s := by
  simp [actTableRead, h]

theorem readRecord_filler (w : Vol) {cls : Nat} (i : ReadIndex) (h : 13 ≤ cls) (h' : cls ≤ 15) :
    readRecord w cls i = some (List.replicate 16 0xFF) := by
  obtain rfl | rfl | rfl : cls = 13 ∨ cls = 14 ∨ cls = 15 := by omega
  · rfl
  · rfl
  · rfl

theorem readRecord_above (w : Vol) {cls : Nat} (i : ReadIndex) (h : 16 ≤ cls) : readRecord w cls i = none := by
  obtain ⟨k, rfl⟩ := Nat.exists_eq_add_of_le' h
  rfl

/-- R179: an index in range reads the record. -/
theorem readOne_in {lo n i : Nat} (f : Nat → List Byte) (h : lo ≤ i) (h' : i < lo + n) :
    readOne lo n (.one i) f = some (f i) := if_pos ⟨h, h'⟩

theorem readOne_out {lo n i : Nat} (f : Nat → List Byte) (h : i < lo ∨ lo + n ≤ i) : readOne lo n (.one i) f = none :=
  if_neg (by omega)

/-- A read whose record is there is answered with it, and changes nothing. -/
theorem answers_of_record {h : RequestHeader} {cls : Nat} {i : ReadIndex} {s : State} {place : Nat} {bs : List Byte}
    (hs : s.Reaches (.tableRead h cls i) h place) (hr : readRecord s.vol cls i = some bs) :
    Answers (.tableRead h cls i) s s h 7 place .ok (.record bs) :=
  ⟨_, exec_tableRead h cls i s, takeRequest_ends hs (by decide) _ (actTableRead_some hr)⟩

theorem declines_of_no_record {h : RequestHeader} {cls : Nat} {i : ReadIndex} {s : State} {place : Nat}
    (hs : s.Reaches (.tableRead h cls i) h place) (hr : readRecord s.vol cls i = none) :
    Declines (.tableRead h cls i) s h 7 place .badArg :=
  ⟨_, exec_tableRead h cls i s, takeRequest_ends hs (by decide) _ (actTableRead_none hr)⟩

theorem tableReadAndFiller : TableReadAndFiller :=
  ⟨fun h cls s _ hs => Live.declines_of_act (exec_tableWriteUnassigned h cls s) hs (by decide) rfl,
    fun _ _ i s _ hs => ⟨fun h h' => answers_of_record hs (readRecord_filler s.vol i h h'),
      fun h => declines_of_no_record hs (readRecord_above s.vol i h), fun _ hr => answers_of_record hs hr,
      declines_of_no_record hs⟩,
    fun w g hg => readOne_in (groupBytes w) (Nat.zero_le g) (by omega), fun _ => rfl⟩

/-! ### The records of classes 0 to 4 (R82, R179) -/

/-- The bits of a fault history by their values. -/
theorem historyBits_eq (x : FaultHistory) : historyBits x =
    byteOf ((if x.hot then 1 else 0) + (if x.opened then 2 else 0) + (if x.short then 4 else 0)
      + (if x.silent then 8 else 0) + if x.external then 16 else 0) := by
  simp only [historyBits, bitsValue, Nat.mul_add, Nat.mul_zero, mul_ite, Nat.reduceMul, Nat.mul_one,
    Nat.add_assoc, Nat.add_zero]

/-- A table as the list of what its indices read. -/
theorem toList_eq_map_range {α : Type} (d : α) {n : Nat} (t : Vector α n) :
    t.toList = (List.range n).map (tget d t) := by
  apply List.ext_getElem
  · simp
  · intro k hk _
    simp only [Vector.length_toList] at hk
    simp [tget_of_lt d t hk]

theorem zoneRead (w : Vol) {z : Nat} (hz : z < 64) : readRecord w 0 (.one z) = some (zoneBytes w z) :=
  readOne_in (zoneBytes w) (Nat.zero_le z) (by omega)

theorem platformRead (w : Vol) {p : Nat} (h : 1 ≤ p) (h' : p ≤ 32) :
    readRecord w 2 (.one p) = some (platformBytes w p) := readOne_in (platformBytes w) h (by omega)

theorem profileRead (w : Vol) {p : Nat} (hp : p < 16) : readRecord w 3 (.one p) = some (profileBytes w p) :=
  readOne_in (profileBytes w) (Nat.zero_le p) (by omega)

theorem templateRead (w : Vol) {k : Nat} (hk : k < 128) : readRecord w 4 (.one k) = some (templateBytes w k) :=
  readOne_in (templateBytes w) (Nat.zero_le k) (by omega)

theorem lineRead (w : Vol) {l : Nat} (hl : l < 16) : readRecord w 10 (.one l) = some (lineBytes w l) :=
  readOne_in (lineBytes w) (Nat.zero_le l) (by omega)

/-- R82: a template that is not empty. -/
theorem templateBytes_some {w : Vol} {k : Nat} {x : Template} (h : w.template k = some x) : templateBytes w k =
    [byteOf k] ++ targetBytes x.target ++ [byteOf x.priority, byteOf (modeCode x.mode), byteOf (resumeCode x.resume),
      byteOf x.repeats] ++ two x.gap ++ two x.window ++ [byteOf x.items.length] ++ x.items.flatMap itemBytes := by
  simp [templateBytes, h]

theorem templateBytes_none {w : Vol} {k : Nat} (h : w.template k = none) :
    templateBytes w k = [byteOf k, 0, 0, 0, 0, 0, 1, 0, 10, 0, 0, 0] := by
  unfold templateBytes
  rw [h]
  rfl

/-- The more significant byte of a spoken field's place is 0. -/
theorem itemBytes_field (f : SpokenField) : itemBytes (.field f) = [1, 0, byteOf (fieldCode f), 0xFF] := by
  cases f <;> rfl

theorem tablesRead : TablesRead := by
  intro w
  refine ⟨?_, ?_, ?_, ?_, fun k hk h => ?_, fun k => ⟨?_, ?_, ?_, ?_, ?_, ?_, ?_⟩⟩
  · rintro z x g hz rfl rfl
    rw [zoneRead w hz, ← historyBits_eq]
    simp [zoneBytes, two]
  · rintro p x h h' rfl
    rw [platformRead w h h']
    cases ho : (w.platform p).occupant <;> simp [platformBytes, present1, ho] <;> rfl
  · rintro p x hp rfl
    rw [profileRead w hp, profileBytes, toList_eq_map_range none, List.map_map]
    rfl
  · intro k x hk h
    rw [templateRead w hk, templateBytes_some h]
    refine congrArg (fun bytes => some (_ ++ bytes)) (congrArg (x.items.flatMap ·) (funext fun i => ?_))
    cases i with
    | field f => exact itemBytes_field f
    | clip c => rfl
    | pause n => rfl
    | tone tone n => rfl
  · rw [templateRead w hk, templateBytes_none h]
  · exact fun h => readOne_out _ (by omega)
  · exact fun h => readOne_out _ (by omega)
  · exact fun h => readOne_out _ (by omega)
  · exact fun h => readOne_out _ (by omega)
  · exact fun h => readOne_out _ (by omega)
  · exact fun h => readOne_out _ (by omega)
  · exact fun h => readOne_out _ (by omega)

/-! ### The phrase tables (R83) -/

theorem readPhrase_in {n lo first count : Nat} (t : Vector (Option Nat) n) (h1 : 1 ≤ count) (h2 : count ≤ 64)
    (h3 : lo ≤ first) (h4 : first + count ≤ lo + n) : readPhrase lo t (.range first count) = some
      (two first ++ [byteOf count] ++ (List.range count).flatMap fun k => twoOr (tget none t (first + k - lo))) := by
  have hplace : ∀ k, first - lo + k = first + k - lo := fun k => by omega
  simp only [readPhrase, within_iff, h1, h2, h3, h4, and_self, if_true, phraseBytes, hplace]

theorem readPhrase_out {n lo first count : Nat} (t : Vector (Option Nat) n)
    (h : count = 0 ∨ 64 < count ∨ first < lo ∨ lo + n < first + count) : readPhrase lo t (.range first count) = none := by
  refine if_neg ?_
  rw [within_iff]
  omega

/-- A class that is read as a phrase table gives the entries asked for. -/
theorem phrasesRead {n cls lo : Nat} {table : Vol → Vector (Option Nat) n}
    (h : ∀ w i, readRecord w cls i = readPhrase lo (table w) i) : PhrasesRead cls lo table := by
  intro w first count
  rw [h]
  exact ⟨readPhrase_in (table w), readPhrase_out (table w)⟩

/-! ### Contact lines, and the places of named values (R174, R179) -/

theorem flag_not (x : Bool) : flag (!x) = if x = true then 0 else 1 := by cases x <;> rfl

/-- A level that only some lines have, as a byte. -/
theorem levelByte_ite (b x : Bool) :
    levelByte (if b = true then some x else none) = if b = true then (if x = true then 0 else 1) else 0xFF := by
  cases b <;> cases x <;> rfl

theorem linesAsRead : LinesAsRead := by
  refine ⟨?_, ⟨rfl, rfl⟩, fun _ _ _ => ⟨rfl, rfl⟩, fun _ => ⟨rfl, rfl⟩, fun _ => ⟨rfl, rfl⟩, fun _ => ⟨rfl, rfl⟩,
    fun _ => ⟨rfl, rfl⟩, fun src _ _ _ => ⟨rfl, ?_⟩, rfl, rfl, rfl, rfl, fun _ => rfl⟩
  · rintro w l x hl rfl
    rw [lineRead w hl, lineBytes, flag_not, levelByte_ite]
    rfl
  · cases src <;> rfl

theorem tableCodes : TableCodes := ⟨rfl, rfl, rfl, rfl, rfl, rfl, rfl, rfl, rfl⟩

theorem recordsRead : RecordsRead :=
  ⟨tablesRead, phrasesRead fun _ _ => rfl, phrasesRead fun _ _ => rfl, phrasesRead fun _ _ => rfl,
    phrasesRead fun _ _ => rfl, phrasesRead fun _ _ => rfl, linesAsRead, tableCodes⟩

/-- Settles O28. -/
theorem linkConfigAndTableRead : Obligations.LinkConfigAndTableRead :=
  ⟨linkConfigWritten, tableReadAndFiller, recordsRead⟩

end Sys2Proof.Tables
end

section
/-! PROOFS. The attenuation of a sample (R40): the largest whole value that is at most half above the exact product. -/

namespace Sys2Proof.Mixer

open Sys2Proof.Machine Sys2Proof.Laws Sys2Proof.Statements

/-- The factor of an attenuation of `a` steps, 40 to a factor of ten (R40). -/
noncomputable def attenuation (a : Nat) : ℝ := (10 : ℝ) ^ (-(a : ℝ) / 40)

theorem attenuation_nonneg (a : Nat) : 0 ≤ attenuation a := Real.rpow_nonneg (by norm_num) _

theorem attenuation_le_one (a : Nat) : attenuation a ≤ 1 :=
  Real.rpow_le_one_of_one_le_of_nonpos (by norm_num) (div_nonpos_of_nonpos_of_nonneg (by simp) (by norm_num))

theorem attenuation_pow (a : Nat) : attenuation a ^ 40 * 10 ^ a = 1 := by
  have h : attenuation a ^ 40 = (10 : ℝ) ^ (-(a : ℝ)) := by
    rw [attenuation, ← Real.rpow_mul_natCast (by norm_num)]
    congr 1
    push_cast
    ring
  rw [h, Real.rpow_neg (by norm_num), Real.rpow_natCast]
  exact inv_mul_cancel₀ (by positivity)

/-- The test on whole numbers is the comparison with the exact product, both sides to the 40th power. -/
theorem attenuates_iff (x a n : Nat) : attenuates x a n = true ↔ (n : ℝ) ≤ x * attenuation a + 1 / 2 := by
  have hfactor := attenuation_nonneg a
  rw [attenuates, decide_eq_true_eq]
  cases n with
  | zero =>
    have : (0 : ℝ) ≤ x * attenuation a + 1 / 2 := by positivity
    simpa using this
  | succ m =>
    have hodd : 2 * (m + 1) - 1 = 2 * m + 1 := by omega
    rw [hodd]
    calc (2 * m + 1) ^ 40 * 10 ^ a ≤ (2 * x) ^ 40
        ↔ (2 * m + 1 : ℝ) ^ 40 * 10 ^ a ≤ (2 * x) ^ 40 * (attenuation a ^ 40 * 10 ^ a) := by
          rw [attenuation_pow, mul_one]
          exact_mod_cast Iff.rfl
      _ ↔ (2 * m + 1 : ℝ) ^ 40 ≤ (2 * x * attenuation a) ^ 40 := by
          rw [← mul_assoc, ← mul_pow]
          exact mul_le_mul_iff_left₀ (by positivity)
      _ ↔ (2 * m + 1 : ℝ) ≤ 2 * x * attenuation a := pow_le_pow_iff_left₀ (by positivity) (by positivity) (by norm_num)
      _ ↔ ((m + 1 : Nat) : ℝ) ≤ x * attenuation a + 1 / 2 := by
          push_cast
          constructor <;> intro h <;> linarith

/-- Bit by bit the search keeps a value that passes with one that fails a power of two above it. -/
theorem attenuateBits_spec (x a : Nat) {bits acc : Nat} (hp : attenuates x a acc = true)
    (hf : ¬ attenuates x a (acc + 2 ^ bits) = true) :
    attenuates x a (attenuateBits x a bits acc) = true ∧ ¬ attenuates x a (attenuateBits x a bits acc + 1) = true := by
  induction bits generalizing acc with
  | zero => exact ⟨hp, hf⟩
  | succ bits ih =>
    unfold attenuateBits
    split
    next h => exact ih h (by rwa [Nat.add_assoc, ← Nat.two_mul, ← Nat.pow_succ'])
    next h => exact ih hp h

/-- R40: below mute, a value of the 24-bit range is its exact product, rounded with halves upward. -/
theorem attenuateNat_rounds {x a : Nat} (hx : x < 2 ^ 23 + 1) (ha : a ≤ 191) :
    (attenuateNat x a : ℝ) ≤ x * attenuation a + 1 / 2 ∧ x * attenuation a + 1 / 2 < attenuateNat x a + 1 := by
  unfold attenuateNat
  by_cases h0 : x = 0
  · subst h0
    norm_num
  rw [if_neg (by simp [h0, Config.mute]; omega)]
  by_cases ha0 : a = 0
  · subst ha0
    rw [if_pos rfl]
    simp only [attenuation]
    norm_num
  rw [if_neg ha0]
  have hzero : attenuates x a 0 = true := by simp [attenuates]
  have hbound : ¬ attenuates x a (0 + 2 ^ 24) = true := by
    rw [attenuates_iff, not_le]
    have hx' : (x : ℝ) ≤ 2 ^ 23 := by exact_mod_cast Nat.le_of_lt_succ hx
    have hprod : (x : ℝ) * attenuation a ≤ 2 ^ 23 * 1 :=
      mul_le_mul hx' (attenuation_le_one a) (attenuation_nonneg a) (by positivity)
    push_cast
    linarith
  obtain ⟨hpass, hfail⟩ := attenuateBits_spec x a hzero hbound
  rw [attenuates_iff] at hpass hfail
  push_cast at hfail
  exact ⟨hpass, not_le.mp hfail⟩

/-- R40: the sample keeps its sign. -/
theorem attenuate_eq (x : Int) (a : Nat) : attenuate x a = x.sign * attenuateNat x.natAbs a := by
  rcases lt_trichotomy x 0 with h | rfl | h
  · simp [attenuate, h, Int.sign_eq_neg_one_of_neg h]
  · simp [attenuate, attenuateNat]
  · simp [attenuate, not_lt.mpr h.le, Int.sign_eq_one_of_pos h]

theorem attenuateNat_mute (x : Nat) {a : Nat} (ha : 192 ≤ a) : attenuateNat x a = 0 := if_pos (.inr ha)

theorem samplesAttenuated : SamplesAttenuated := by
  intro x a hx
  refine ⟨fun ha => ⟨attenuateNat x.natAbs a, attenuate_eq x a, attenuateNat_rounds hx ha⟩, fun ha => ?_⟩
  simp [attenuate_eq, attenuateNat_mute _ ha]

end Sys2Proof.Mixer
end

section
/-! PROOFS. The tone generator (R111): the sine series in fixed point against the sine, and the rounding of the four tones. -/

namespace Sys2Proof.Tones

open Sys2Proof.Machine Sys2Proof.Laws Sys2Proof.Statements
open scoped Nat

/-! ### The sine by its series -/

/-- The term of degree `2 k + 1` of the sine series, without its sign. -/
noncomputable def sineTerm (y : ℝ) (k : Nat) : ℝ := y ^ (2 * k + 1) / ((2 * k + 1)! : ℝ)

/-- The alternating sum of `n` terms from term `k` on, in the order in which the model takes them. -/
noncomputable def sineSum (y : ℝ) : Nat → Nat → ℝ
  | 0, _ => 0
  | n + 1, k => sineTerm y k - sineSum y n (k + 1)

theorem sineTerm_zero (y : ℝ) : sineTerm y 0 = y := by simp [sineTerm]

/-- Each term from the one before. -/
theorem sineTerm_succ (y : ℝ) (k : Nat) :
    sineTerm y (k + 1) = sineTerm y k * y ^ 2 / (((2 * k + 2) * (2 * k + 3) : Nat) : ℝ) := by
  have hfact : ((2 * (k + 1) + 1)! : ℝ) = ((2 * k + 2) * (2 * k + 3) : Nat) * ((2 * k + 1)! : ℝ) := by
    rw [show 2 * (k + 1) + 1 = 2 * k + 1 + 1 + 1 by ring, Nat.factorial_succ, Nat.factorial_succ]
    push_cast
    ring
  rw [sineTerm, sineTerm, hfact]
  field_simp
  ring

theorem sineTerm_nonneg {y : ℝ} (hy : 0 ≤ y) (k : Nat) : 0 ≤ sineTerm y k := by
  unfold sineTerm
  positivity

/-- Up to 2, well beyond the quarter turn, no term is larger than the one before it. -/
theorem sineTerm_antitone {y : ℝ} (hy : 0 ≤ y) (hy2 : y ≤ 2) : Antitone (sineTerm y) := by
  refine antitone_nat_of_succ_le fun k => ?_
  have hsq : y ^ 2 ≤ 4 := by nlinarith
  have hden : (4 : ℝ) ≤ (((2 * k + 2) * (2 * k + 3) : Nat) : ℝ) := by
    have : 4 ≤ (2 * k + 2) * (2 * k + 3) := by nlinarith
    exact_mod_cast this
  rw [sineTerm_succ, div_le_iff₀ (by linarith)]
  exact mul_le_mul_of_nonneg_left (hsq.trans hden) (sineTerm_nonneg hy k)

theorem sineTerm_le_two {y : ℝ} (hy : 0 ≤ y) (hy2 : y ≤ 2) (k : Nat) : sineTerm y k ≤ 2 :=
  (sineTerm_antitone hy hy2 (Nat.zero_le k)).trans ((sineTerm_zero y).trans_le hy2)

theorem sineSum_eq (y : ℝ) (n k : Nat) : sineSum y n k = ∑ i ∈ Finset.range n, (-1) ^ i * sineTerm y (k + i) := by
  induction n generalizing k with
  | zero => rfl
  | succ n ih =>
    rw [sineSum, ih, Finset.sum_range_succ', sub_eq_neg_add, ← Finset.sum_neg_distrib]
    congr 1
    · refine Finset.sum_congr rfl fun i _ => ?_
      rw [pow_succ, show k + 1 + i = k + (i + 1) by ring]
      ring
    · simp

/-- The sine differs from the sum of its first terms by at most the next one. -/
theorem sin_sub_sineSum_le {y : ℝ} (hy : 0 ≤ y) (hy2 : y ≤ 2) (n : Nat) :
    |Real.sin y - sineSum y n 0| ≤ sineTerm y n := by
  have hsum : Summable (sineTerm y) := (Real.hasSum_sinh y).summable
  have hsin : Real.sin y = ∑' i : Nat, (-1) ^ i * sineTerm y i := by
    rw [Real.sin_eq_tsum]
    simp only [sineTerm, mul_div_assoc]
  have h := alternating_series_error_bound (sineTerm y) (sineTerm_antitone hy hy2) hsum n
  rw [hsin, sineSum_eq]
  simpa using h

/-- The sixteen terms of the model leave less than 2 to the power -80. -/
theorem sineTerm_sixteen_le {y : ℝ} (hy : 0 ≤ y) (hy2 : y ≤ 2) : sineTerm y 16 ≤ 1 / 2 ^ 80 := by
  calc sineTerm y 16 ≤ sineTerm 2 16 := by
        unfold sineTerm
        gcongr
    _ ≤ 1 / 2 ^ 80 := by norm_num [sineTerm, Nat.factorial]

/-! ### The series in fixed point -/

/-- A whole number at 80 binary places. -/
noncomputable def scaled (n : Nat) : ℝ := (n : ℝ) / 2 ^ 80

theorem scaled_nonneg (n : Nat) : 0 ≤ scaled n := by
  unfold scaled
  positivity

/-- The quotient of whole numbers lies less than 1 below the exact one. -/
theorem natDiv_bounds (m n : Nat) (hn : 0 < n) :
    ((m / n : Nat) : ℝ) ≤ (m : ℝ) / n ∧ (m : ℝ) / n - 1 < ((m / n : Nat) : ℝ) := by
  refine ⟨Nat.cast_div_le, ?_⟩
  have h : m < (m / n + 1) * n := by
    rw [Nat.mul_comm]
    exact Nat.lt_mul_div_succ m hn
  have hn' : (0 : ℝ) < n := by exact_mod_cast hn
  rw [sub_lt_iff_lt_add, div_lt_iff₀ hn']
  exact_mod_cast h

theorem scaled_div (a d : Nat) (hd : 0 < d) :
    scaled (a / d) ≤ scaled a / d ∧ scaled a / d - 1 / 2 ^ 80 ≤ scaled (a / d) := by
  obtain ⟨hle, hlt⟩ := natDiv_bounds a d hd
  unfold scaled
  constructor
  · rw [div_right_comm]
    gcongr
  · rw [div_right_comm, ← sub_div]
    gcongr

theorem sineScale_cast : (sineScale : ℝ) = 2 ^ 80 := by norm_num [sineScale]

/-- A product of two numbers at 80 places, cut to 80 places. -/
theorem scaled_mul_div (a b : Nat) : scaled (a * b / sineScale) ≤ scaled a * scaled b
    ∧ scaled a * scaled b - 1 / 2 ^ 80 ≤ scaled (a * b / sineScale) := by
  have hexact : scaled (a * b) / sineScale = scaled a * scaled b := by
    simp only [scaled, sineScale_cast]
    push_cast
    ring
  rw [← hexact]
  exact scaled_div (a * b) sineScale (by decide)

/-- The term of the model is at most the exact one, and short of it by at most 6 units of the last place. -/
def TermClose (y : ℝ) (k t : Nat) : Prop := scaled t ≤ sineTerm y k ∧ sineTerm y k ≤ scaled t + 6 / 2 ^ 80

/-- One step of the series keeps the terms close: its errors are divided by the factorial's factors. -/
theorem termClose_succ {y : ℝ} (hy : 0 ≤ y) (hy2 : y ≤ 2) {q k t : Nat} (hq : scaled q ≤ y ^ 2)
    (hq' : y ^ 2 ≤ scaled q + 1 / 2 ^ 80) (h : TermClose y k t) :
    TermClose y (k + 1) (t * q / sineScale / ((2 * k + 2) * (2 * k + 3))) := by
  obtain ⟨hle, hge⟩ := h
  have hd : 6 ≤ (2 * k + 2) * (2 * k + 3) := by nlinarith
  rw [TermClose, sineTerm_succ]
  generalize (2 * k + 2) * (2 * k + 3) = d at hd
  have hd' : (6 : ℝ) ≤ d := by exact_mod_cast hd
  have hd0 : (0 : ℝ) < d := by linarith
  obtain ⟨hmul, hmul'⟩ := scaled_mul_div t q
  obtain ⟨hdiv, hdiv'⟩ := scaled_div (t * q / sineScale) d (by omega)
  have ht0 := scaled_nonneg t
  have hq0 := scaled_nonneg q
  have hterm0 := sineTerm_nonneg hy k
  have hterm2 := sineTerm_le_two hy hy2 k
  have hsq : y ^ 2 ≤ 4 := by nlinarith
  generalize scaled (t * q / sineScale / d) = u at *
  generalize scaled (t * q / sineScale) = v at *
  generalize scaled t = x at *
  generalize scaled q = p at *
  generalize sineTerm y k = z at *
  generalize y ^ 2 = s at *
  have hprod : x * p ≤ z * s := mul_le_mul hle hq hq0 hterm0
  have hprod' : z * s ≤ x * p + 26 / 2 ^ 80 := by nlinarith
  constructor
  · calc u ≤ v / d := hdiv
      _ ≤ z * s / d := by
        gcongr
        exact hmul.trans hprod
  · have hv : z * s ≤ v + 27 / 2 ^ 80 := by linarith
    calc z * s / d ≤ (v + 27 / 2 ^ 80) / d := by gcongr
      _ = v / d + 27 / 2 ^ 80 / d := add_div _ _ _
      _ ≤ v / d + 27 / 2 ^ 80 / 6 := by gcongr
      _ ≤ u + 6 / 2 ^ 80 := by linarith

/-- The sum of the model against the exact sum: at most 6 units of the last place for each term. -/
theorem sineSeries_close {y : ℝ} (hy : 0 ≤ y) (hy2 : y ≤ 2) {q : Nat} (hq : scaled q ≤ y ^ 2)
    (hq' : y ^ 2 ≤ scaled q + 1 / 2 ^ 80) (n : Nat) {k t : Nat} (h : TermClose y k t) :
    |((sineSeries q n k t : Int) : ℝ) / 2 ^ 80 - sineSum y n k| ≤ 6 * (n : ℝ) / 2 ^ 80 := by
  induction n generalizing k t with
  | zero => simp [sineSeries, sineSum]
  | succ n ih =>
    have hrest := ih (termClose_succ hy hy2 hq hq' h)
    obtain ⟨hle, hge⟩ := h
    simp only [scaled] at hle hge
    simp only [sineSeries, sineSum]
    rw [abs_le] at hrest ⊢
    push_cast
    rw [sub_div]
    constructor <;> linarith [hrest.1, hrest.2]

/-! ### The sine of a part of a quarter turn -/

/-- Half of pi to 20 decimal places. -/
theorem halfPi_close : |(halfPi : ℝ) / 2 ^ 80 - Real.pi / 2| ≤ 1 / 2 ^ 64 := by
  have hlt := Real.pi_lt_d20
  have hgt := Real.pi_gt_d20
  rw [abs_le]
  constructor <;> norm_num [halfPi] <;> linarith

/-- The angle that is `num / den` of a quarter turn. -/
noncomputable def quarterAngle (num den : Nat) : ℝ := Real.pi / 2 * ((num : ℝ) / den)

/-- A part of a quarter turn, at most the whole. -/
theorem part_le_one {num den : Nat} (h : num ≤ den) : (num : ℝ) / den ≤ 1 :=
  div_le_one_of_le₀ (by exact_mod_cast h) (Nat.cast_nonneg den)

theorem quarterAngle_nonneg (num den : Nat) : 0 ≤ quarterAngle num den := by
  unfold quarterAngle
  positivity

theorem quarterAngle_le {num den : Nat} (h : num ≤ den) : quarterAngle num den ≤ Real.pi / 2 :=
  mul_le_of_le_one_right (by positivity) (part_le_one h)

/-- The angle of the model. -/
theorem angle_close {num den : Nat} (hd : 0 < den) (h : num ≤ den) :
    |scaled (halfPi * num / den) - quarterAngle num den| ≤ 1 / 2 ^ 63 := by
  obtain ⟨hle, hge⟩ := scaled_div (halfPi * num) den hd
  have hpart0 : (0 : ℝ) ≤ (num : ℝ) / den := by positivity
  have hpi : |(halfPi : ℝ) / 2 ^ 80 * (num / den) - quarterAngle num den| ≤ 1 / 2 ^ 64 := by
    rw [quarterAngle, ← sub_mul, abs_mul, abs_of_nonneg hpart0]
    exact (mul_le_of_le_one_right (abs_nonneg _) (part_le_one h)).trans halfPi_close
  have hexact : scaled (halfPi * num) / den = (halfPi : ℝ) / 2 ^ 80 * (num / den) := by
    rw [scaled]
    push_cast
    ring
  rw [hexact] at hle hge
  rw [abs_le] at hpi ⊢
  constructor <;> linarith [hpi.1, hpi.2]

/-- The series of the model at an angle `m`, up to twice the unit. -/
theorem sineSeries_sin {m : Nat} (hm : scaled m ≤ 2) :
    |((sineSeries (m * m / sineScale) 16 0 m : Int) : ℝ) / 2 ^ 80 - Real.sin (scaled m)| ≤ 97 / 2 ^ 80 := by
  have hm0 := scaled_nonneg m
  obtain ⟨hsq, hsq'⟩ := scaled_mul_div m m
  rw [← pow_two (scaled m)] at hsq hsq'
  have hfirst : TermClose (scaled m) 0 m := by
    rw [TermClose, sineTerm_zero]
    exact ⟨le_rfl, by linarith⟩
  have hseries := sineSeries_close hm0 hm hsq (by linarith) 16 hfirst
  have htail := (sin_sub_sineSum_le hm0 hm 16).trans (sineTerm_sixteen_le hm0 hm)
  push_cast at hseries
  rw [abs_le] at hseries htail ⊢
  constructor <;> linarith [hseries.1, hseries.2, htail.1, htail.2]

/-- A value that is not negative is no further from the number cut at 0 than from the number. -/
theorem scaled_toNat_close {z : Int} {x e : ℝ} (hx : 0 ≤ x) (h : |(z : ℝ) / 2 ^ 80 - x| ≤ e) :
    |scaled z.toNat - x| ≤ e := by
  rcases le_total 0 z with hz | hz
  · rwa [scaled, show ((z.toNat : Nat) : ℝ) = (z : ℝ) by exact_mod_cast Int.toNat_of_nonneg hz]
  · have hz' : (z : ℝ) / 2 ^ 80 ≤ 0 := div_nonpos_of_nonpos_of_nonneg (by exact_mod_cast hz) (by positivity)
    rw [Int.toNat_of_nonpos hz, scaled, Nat.cast_zero, zero_div, zero_sub, abs_neg, abs_of_nonneg hx]
    linarith [(abs_le.mp h).1]

/-- The sine of the model: its series at its angle. -/
theorem quarterSine_close {num den : Nat} (hd : 0 < den) (h : num ≤ den) :
    |scaled (quarterSine num den) - Real.sin (quarterAngle num den)| ≤ 1 / 2 ^ 60 := by
  have hangle := angle_close hd h
  have hnonneg := quarterAngle_nonneg num den
  have hle := quarterAngle_le h
  have hpi := Real.pi_lt_d20
  refine scaled_toNat_close (Real.sin_nonneg_of_nonneg_of_le_pi hnonneg (by linarith)) ?_
  generalize halfPi * num / den = m at hangle ⊢
  have hseries := sineSeries_sin (m := m) (by linarith [(abs_le.mp hangle).2])
  have hsin := (Real.abs_sin_sub_sin_le (scaled m) (quarterAngle num den)).trans hangle
  rw [abs_le] at hseries hsin ⊢
  constructor <;> linarith [hseries.1, hseries.2, hsin.1, hsin.2]

/-! ### Rounding -/

/-- `v` is `peak` times `x`, rounded to the nearest whole value, up to `slack`. -/
def Rounded (peak : Nat) (x slack : ℝ) (v : Int) : Prop := |(v : ℝ) - peak * x| ≤ 1 / 2 + slack

theorem Rounded.mono {peak : Nat} {x a b : ℝ} {v : Int} (h : Rounded peak x a v) (hab : a ≤ b) : Rounded peak x b v :=
  le_trans h (by linarith)

theorem Rounded.neg {peak : Nat} {x a : ℝ} {v : Int} (h : Rounded peak x a v) : Rounded peak (-x) a (-v) := by
  unfold Rounded at h ⊢
  rw [← abs_neg]
  convert h using 2
  push_cast
  ring

/-- The whole value below the product by half: `m` of the 2 to the power 81 parts of a whole are left on either side. -/
theorem roundDiv_close (peak q m : Nat) (hlow : m ≤ (2 * peak * q + sineScale) % (2 * sineScale))
    (hhigh : (2 * peak * q + sineScale) % (2 * sineScale) + m ≤ 2 * sineScale) :
    |(((2 * peak * q + sineScale) / (2 * sineScale) : Nat) : ℝ) - peak * scaled q| ≤ 1 / 2 - m / 2 ^ 81 := by
  have hsplit : 2 * sineScale * ((2 * peak * q + sineScale) / (2 * sineScale))
      + (2 * peak * q + sineScale) % (2 * sineScale) = 2 * peak * q + sineScale := Nat.div_add_mod _ _
  generalize (2 * peak * q + sineScale) / (2 * sineScale) = v at *
  generalize (2 * peak * q + sineScale) % (2 * sineScale) = r at *
  have hsplit' : 2 * (sineScale : ℝ) * v + r = 2 * peak * q + sineScale := by exact_mod_cast hsplit
  have hlow' : (m : ℝ) ≤ r := by exact_mod_cast hlow
  have hhigh' : (r : ℝ) + m ≤ 2 * sineScale := by exact_mod_cast hhigh
  rw [sineScale_cast] at hsplit' hhigh'
  have hv : (v : ℝ) - peak * scaled q = 1 / 2 - r / 2 ^ 81 := by
    rw [scaled]
    linarith
  rw [hv, abs_le]
  constructor <;> linarith

/-- The tie of the sine of a third of the quarter turn is a free value (log entry 13): either way it is rounded. -/
theorem quarterTone_tie {peak num den : Nat} (negative : Bool) (hd : 0 < den) (h : 3 * num = den) :
    Rounded peak (Real.sin (quarterAngle num den)) 0 (quarterTone peak num den negative) := by
  have hangle : quarterAngle num den = Real.pi / 6 := by
    have hnum : (num : ℝ) ≠ 0 := by
      have : num ≠ 0 := by omega
      exact_mod_cast this
    rw [quarterAngle, ← h]
    push_cast
    field_simp
    norm_num
  rw [Rounded, hangle, Real.sin_pi_div_six, quarterTone, if_pos h]
  generalize hhalf : peak / 2 = k
  split
  next haway =>
    have hodd : peak = 2 * k + 1 := by omega
    rw [hodd, abs_le]
    push_cast
    constructor <;> linarith
  next =>
    have hlow : 2 * (k : ℝ) ≤ peak := by exact_mod_cast (show 2 * k ≤ peak by omega)
    have hhigh : (peak : ℝ) ≤ 2 * k + 1 := by exact_mod_cast (show peak ≤ 2 * k + 1 by omega)
    rw [abs_le]
    push_cast
    constructor <;> linarith

/-- A value that is no tie is rounded, up to the error of the sine, less what the sine of the model is away from a half. -/
theorem quarterTone_near {peak num den m : Nat} (negative : Bool) (hd : 0 < den) (h : num ≤ den) (hne : 3 * num ≠ den)
    (hlow : m ≤ (2 * peak * quarterSine num den + sineScale) % (2 * sineScale))
    (hhigh : (2 * peak * quarterSine num den + sineScale) % (2 * sineScale) + m ≤ 2 * sineScale) :
    Rounded peak (Real.sin (quarterAngle num den)) (peak / 2 ^ 60 - m / 2 ^ 81) (quarterTone peak num den negative) := by
  have hround := roundDiv_close peak (quarterSine num den) m hlow hhigh
  have hsine : |(peak : ℝ) * scaled (quarterSine num den) - peak * Real.sin (quarterAngle num den)| ≤ peak / 2 ^ 60 := by
    rw [← mul_sub, abs_mul, abs_of_nonneg (Nat.cast_nonneg peak), div_eq_mul_one_div]
    exact mul_le_mul_of_nonneg_left (quarterSine_close hd h) (Nat.cast_nonneg peak)
  rw [Rounded, quarterTone, if_neg hne, Int.cast_natCast]
  rw [abs_le] at hround hsine ⊢
  constructor <;> linarith [hround.1, hround.2, hsine.1, hsine.2]

/-- Every value of a tone is rounded, up to the error of the sine. -/
theorem quarterTone_rounded (peak : Nat) {num den : Nat} (negative : Bool) (hd : 0 < den) (h : num ≤ den) :
    Rounded peak (Real.sin (quarterAngle num den)) (peak / 2 ^ 60) (quarterTone peak num den negative) := by
  by_cases hne : 3 * num = den
  · exact (quarterTone_tie negative hd hne).mono (by positivity)
  · have hmod : (2 * peak * quarterSine num den + sineScale) % (2 * sineScale) < 2 * sineScale :=
      Nat.mod_lt _ (by decide)
    exact (quarterTone_near (m := 0) negative hd h hne (Nat.zero_le _)
      (by rw [Nat.add_zero]; exact hmod.le)).mono (by simp)

/-! ### The four quarters of a turn -/

/-- The sine of `num / den` turns, by its quarter. -/
theorem sin_turns {num den : Nat} (hd : 0 < den) :
    Real.sin (2 * Real.pi * ((num : ℝ) / den)) = Real.sin (Real.pi / 2 * ((4 * (num % den) / den : Nat) : ℝ)
      + quarterAngle (4 * (num % den) % den) den) := by
  have hd' : (den : ℝ) ≠ 0 := by exact_mod_cast hd.ne'
  have hnum : (den : ℝ) * (num / den : Nat) + (num % den : Nat) = num := by exact_mod_cast Nat.div_add_mod num den
  have hquarter : (den : ℝ) * (4 * (num % den) / den : Nat) + (4 * (num % den) % den : Nat) = 4 * (num % den : Nat) := by
    exact_mod_cast Nat.div_add_mod (4 * (num % den)) den
  generalize (num / den : Nat) = k at *
  generalize 4 * (num % den) / den = q at *
  generalize 4 * (num % den) % den = r at *
  generalize num % den = c at *
  have hangle : 2 * Real.pi * ((num : ℝ) / den)
      = (Real.pi / 2 * (q : ℝ) + quarterAngle r den) + k * (2 * Real.pi) := by
    rw [quarterAngle, ← hnum]
    field_simp
    linarith
  rw [hangle, Real.sin_add_nat_mul_two_pi]

theorem quarterAngle_complement {r den : Nat} (hd : 0 < den) (h : r ≤ den) :
    Real.sin (quarterAngle (den - r) den) = Real.cos (quarterAngle r den) := by
  have hd' : (den : ℝ) ≠ 0 := by exact_mod_cast hd.ne'
  rw [← Real.sin_pi_div_two_sub]
  congr 1
  rw [quarterAngle, quarterAngle, Nat.cast_sub h]
  field_simp

/-- A tone value is as well rounded as the values in its quarter and in the quarter's mirror image. -/
theorem toneSine_rounded {peak num den : Nat} {slack : ℝ} (hd : 0 < den)
    (h : ∀ negative, Rounded peak (Real.sin (quarterAngle (4 * (num % den) % den) den)) slack
      (quarterTone peak (4 * (num % den) % den) den negative))
    (h' : ∀ negative, Rounded peak (Real.sin (quarterAngle (den - 4 * (num % den) % den) den)) slack
      (quarterTone peak (den - 4 * (num % den) % den) den negative)) :
    Rounded peak (Real.sin (2 * Real.pi * ((num : ℝ) / den))) slack (toneSine peak num den) := by
  have hrem : 4 * (num % den) % den ≤ den := (Nat.mod_lt _ hd).le
  have hquarter : 4 * (num % den) / den < 4 :=
    Nat.div_lt_of_lt_mul (by
      have := Nat.mod_lt num hd
      omega)
  rw [sin_turns hd]
  rw [quarterAngle_complement hd hrem] at h'
  unfold toneSine
  dsimp only
  generalize 4 * (num % den) % den = r at *
  generalize 4 * (num % den) / den = q at *
  obtain rfl | rfl | rfl | rfl : q = 0 ∨ q = 1 ∨ q = 2 ∨ q = 3 := by omega
  · rw [Nat.cast_zero, mul_zero, zero_add]
    exact h false
  · rw [Nat.cast_one, mul_one, add_comm, Real.sin_add_pi_div_two]
    exact h' false
  · rw [show Real.pi / 2 * ((2 : Nat) : ℝ) + quarterAngle r den = quarterAngle r den + Real.pi by push_cast; ring,
      Real.sin_add_pi]
    exact (h true).neg
  · rw [show Real.pi / 2 * ((3 : Nat) : ℝ) + quarterAngle r den = quarterAngle r den + Real.pi / 2 + Real.pi by
        push_cast; ring, Real.sin_add_pi, Real.sin_add_pi_div_two]
    exact (h' true).neg

/-- Any tone of the peaks of R111. -/
theorem toneSine_close {peak : Nat} (num : Nat) {den : Nat} (hd : 0 < den) (hp : peak ≤ 2 ^ 30) :
    Rounded peak (Real.sin (2 * Real.pi * ((num : ℝ) / den))) (1 / 2 ^ 30) (toneSine peak num den) := by
  have hslack : (peak : ℝ) / 2 ^ 60 ≤ 1 / 2 ^ 30 := by
    have hp' : (peak : ℝ) ≤ 2 ^ 30 := by exact_mod_cast hp
    linarith
  exact toneSine_rounded hd (fun negative => (quarterTone_rounded peak negative hd (Nat.mod_lt _ hd).le).mono hslack)
    fun negative => (quarterTone_rounded peak negative hd (Nat.sub_le _ _)).mono hslack

/-! ### The tones of 1,000 Hz, of 48 positions to the turn -/

/-- The sine of the model at `j` twelfths of a quarter turn, times `peak`, is no nearer to a half than 2 to the power -30. -/
def ClearOfHalf (peak j : Nat) : Prop :=
  2 ^ 51 ≤ (2 * peak * quarterSine (4000 * j) 48000 + sineScale) % (2 * sineScale)
    ∧ (2 * peak * quarterSine (4000 * j) 48000 + sineScale) % (2 * sineScale) + 2 ^ 51 ≤ 2 * sineScale

theorem clearOfHalf_alert : ∀ j ≤ 12, j ≠ 4 → ClearOfHalf 4194304 j := by
  unfold ClearOfHalf
  decide +kernel

theorem clearOfHalf_test : ∀ j ≤ 12, j ≠ 4 → ClearOfHalf 838861 j := by
  unfold ClearOfHalf
  decide +kernel

/-- A value clear of a half by more than the error of the sine is rounded without slack. -/
theorem quarterTone_twelfths {peak j : Nat} (negative : Bool) (hp : peak ≤ 2 ^ 30) (hj : j ≤ 12)
    (hclear : j ≠ 4 → ClearOfHalf peak j) :
    Rounded peak (Real.sin (quarterAngle (4000 * j) 48000)) 0 (quarterTone peak (4000 * j) 48000 negative) := by
  by_cases h4 : j = 4
  · subst h4
    exact quarterTone_tie negative (by decide) (by decide)
  · obtain ⟨hlow, hhigh⟩ := hclear h4
    have hp' : (peak : ℝ) ≤ 2 ^ 30 := by exact_mod_cast hp
    refine (quarterTone_near negative (by decide) (by omega) (by omega) hlow hhigh).mono ?_
    push_cast
    linarith

theorem toneSine_exact {peak : Nat} (n : Nat) (hp : peak ≤ 2 ^ 30) (hclear : ∀ j ≤ 12, j ≠ 4 → ClearOfHalf peak j) :
    Rounded peak (Real.sin (2 * Real.pi * (1000 * (n : ℝ) / 48000))) 0 (toneSine peak (1000 * n) 48000) := by
  have hrem : 4 * (1000 * n % 48000) % 48000 = 4000 * (n % 12) := by omega
  have hmirror : 48000 - 4000 * (n % 12) = 4000 * (12 - n % 12) := by omega
  have hlt : n % 12 < 12 := Nat.mod_lt _ (by decide)
  have hturns : (1000 * (n : ℝ) / 48000) = ((1000 * n : Nat) : ℝ) / ((48000 : Nat) : ℝ) := by push_cast; ring
  rw [hturns]
  refine toneSine_rounded (by decide) ?_ ?_
  · rw [hrem]
    exact fun negative => quarterTone_twelfths negative hp hlt.le (hclear _ hlt.le)
  · rw [hrem, hmirror]
    exact fun negative => quarterTone_twelfths negative hp (Nat.sub_le _ _) (hclear _ (Nat.sub_le _ _))

/-! ### The four tones (R111) -/

theorem toneSine_add_turn (peak num den : Nat) : toneSine peak (num + den) den = toneSine peak num den := by
  simp [toneSine]

theorem toneValue_alert (f : Nat) :
    toneValue 1 f = if f % 24000 < 12000 then toneSine 4194304 (1000 * (f % 24000)) 48000 else 0 := rfl

theorem toneValue_whoop (f : Nat) : toneValue 2 f =
    toneSine 4194304 (500 * 48000 * (f % 48000) + 350 * (f % 48000) * (f % 48000)) (48000 * 48000) := rfl

theorem toneValue_test (f : Nat) : toneValue 3 f = toneSine 838861 (1000 * f) 48000 := rfl

theorem toneValue_chime (f : Nat) : toneValue 0 f =
    if f % 48000 < 19200 then toneSine 4194304 (784 * (f % 48000)) 48000
    else if f % 48000 < 38400 then toneSine 4194304 (622 * (f % 48000 - 19200)) 48000 else 0 := rfl

theorem toneValue_periodic (f : Nat) : toneValue 0 (f + 48000) = toneValue 0 f ∧ toneValue 1 (f + 24000) = toneValue 1 f
    ∧ toneValue 2 (f + 48000) = toneValue 2 f ∧ toneValue 3 (f + 48) = toneValue 3 f := by
  refine ⟨?_, ?_, ?_, ?_⟩
  · rw [toneValue_chime, toneValue_chime, Nat.add_mod_right]
  · rw [toneValue_alert, toneValue_alert, Nat.add_mod_right]
  · rw [toneValue_whoop, toneValue_whoop, Nat.add_mod_right]
  · have hturn : 1000 * (f + 48) = 1000 * f + 48000 := by omega
    rw [toneValue_test, toneValue_test, hturn, toneSine_add_turn]

theorem chime_first {n : Nat} (h : n < 19200) : toneValue 0 n = toneSine 4194304 (784 * n) 48000 := by
  rw [toneValue_chime, Nat.mod_eq_of_lt (by omega), if_pos h]

theorem chime_second {n : Nat} (h : n < 19200) : toneValue 0 (19200 + n) = toneSine 4194304 (622 * n) 48000 := by
  rw [toneValue_chime, Nat.mod_eq_of_lt (by omega), if_neg (by omega), if_pos (by omega), Nat.add_sub_cancel_left]

theorem chime_silent {n : Nat} (h : n < 9600) : toneValue 0 (38400 + n) = 0 := by
  rw [toneValue_chime, Nat.mod_eq_of_lt (by omega), if_neg (by omega), if_neg (by omega)]

theorem alert_sounds {n : Nat} (h : n < 12000) : toneValue 1 n = toneSine 4194304 (1000 * n) 48000 := by
  rw [toneValue_alert, Nat.mod_eq_of_lt (by omega), if_pos h]

theorem alert_silent {n : Nat} (h : n < 12000) : toneValue 1 (12000 + n) = 0 := by
  rw [toneValue_alert, Nat.mod_eq_of_lt (by omega), if_neg (by omega)]

/-- A note of `freq` Hz of the chime. -/
theorem chime_note (freq n : Nat) : SineRounded 4194304 (freq * (n : ℝ) / 48000) (1 / 2 ^ 30)
    (toneSine 4194304 (freq * n) 48000) := by
  have h := toneSine_close (peak := 4194304) (freq * n) (den := 48000) (by decide) (by decide)
  rw [Rounded] at h
  push_cast at h
  exact h

/-- The turns of the whoop are the integral of its frequency. -/
theorem whoop_sweep {n : Nat} (h : n < 48000) :
    SineRounded 4194304 (500 * ((n : ℝ) / 48000) + 350 * ((n : ℝ) / 48000) ^ 2) (1 / 2 ^ 30) (toneValue 2 n) := by
  have hturns : 500 * ((n : ℝ) / 48000) + 350 * ((n : ℝ) / 48000) ^ 2
      = ((500 * 48000 * n + 350 * n * n : Nat) : ℝ) / ((48000 * 48000 : Nat) : ℝ) := by
    push_cast
    ring
  have hround := toneSine_close (peak := 4194304) (500 * 48000 * n + 350 * n * n) (den := 48000 * 48000) (by decide)
    (by decide)
  rw [toneValue_whoop, Nat.mod_eq_of_lt h, hturns]
  rw [Rounded, Nat.cast_ofNat] at hround
  exact hround

theorem tonesRounded : TonesRounded := by
  refine ⟨toneValue_periodic, fun n hn => ⟨?_, ?_⟩, fun n hn => chime_silent hn, fun n hn => ⟨?_, alert_silent hn⟩,
    fun n hn => whoop_sweep hn, fun n _ => ?_⟩
  · rw [chime_first hn]
    exact_mod_cast chime_note 784 n
  · rw [chime_second hn]
    exact_mod_cast chime_note 622 n
  · rw [alert_sounds hn]
    have h := toneSine_exact n (peak := 4194304) (by decide) clearOfHalf_alert
    rw [Rounded, Nat.cast_ofNat] at h
    exact h
  · rw [toneValue_test]
    have h := toneSine_exact n (peak := 838861) (by decide) clearOfHalf_test
    rw [Rounded, Nat.cast_ofNat] at h
    exact h

/-- Settles O42. -/
theorem attenuationRounds : Obligations.AttenuationRounds := ⟨Mixer.samplesAttenuated, tonesRounded⟩

end Sys2Proof.Tones
end

section
/-! PROOFS. The cut pending flags (R48): no operation of a block mark before the mixer's step clears one. The flag is set where
a claim takes a zone, and read and cleared by the mixer alone. -/

namespace Sys2Proof.Mixer

open Sys2Proof.Machine Sys2Proof.Laws Sys2Proof.Statements

/-- The cut pending flag of a zone is set. An operation that writes no gain record keeps it by computation. -/
def CutPending (z : Nat) (w : Vol) : Prop := (w.gain z).cut = true

namespace CutPending

variable {z : Nat} {w : Vol} {nv : Nonvolatile}

/-- The flag is read in the gain records alone. -/
theorem congr {v : Vol} (h : CutPending z w) (hg : v.gains = w.gains) : CutPending z v := by
  rwa [CutPending, Vol.gain, hg]

theorem ite {p : Prop} [Decidable p] {a b : Vol} (ha : CutPending z a) (hb : CutPending z b) :
    CutPending z (if p then a else b) := by
  split
  · exact ha
  · exact hb

/-- Steps that each keep the flag, one after another. -/
theorem foldl {β : Type} {f : Vol → β → Vol} {l : List β} (h : CutPending z w)
    (hf : ∀ v b, CutPending z v → CutPending z (f v b)) : CutPending z (l.foldl f w) :=
  foldl_keeps (CutPending z) f l w h hf

theorem notify {n : Notice} (h : CutPending z w) : CutPending z (w.notify n) := .ite h h

/-! ### The arbiter -/

theorem preempt {c y : Nat} (h : CutPending z w) : CutPending z (w.preempt c y) := by
  unfold Vol.preempt
  split
  · exact .ite h h
  · exact h

/-- The one place where a flag changes: it is set. -/
theorem takeZone {c y : Nat} (h : CutPending z w) : CutPending z (w.takeZone c y) := by
  have hold : CutPending z (match (w.zone y).holder with
      | some d => if d = c then w else w.preempt d y
      | none => w) := by
    split
    · exact .ite h h.preempt
    · exact h
  unfold Vol.takeZone CutPending Vol.modGain
  by_cases hy : y = z
  · subst hy
    by_cases hlt : y < 64
    · rw [gain_setGain _ _ hlt]
    · rw [Vol.gain, Vol.setGain, tset_of_ge _ (Nat.not_lt.mp hlt)]
      exact hold
  · rw [gain_setGain_ne _ _ hy]
    exact hold

theorem joinTake {c : Nat} (h : CutPending z w) : CutPending z (w.joinTake c) := by
  unfold Vol.joinTake
  split
  · exact h.foldl fun _ _ h => .ite h.takeZone h
  · exact h

theorem wholeTake {c : Nat} (h : CutPending z w) : CutPending z (w.wholeTake c) := by
  unfold Vol.wholeTake
  split
  · exact .ite (h.foldl fun _ _ h => h.takeZone) h
  · exact h

theorem partTake {c : Nat} (h : CutPending z w) : CutPending z (w.partTake c) := by
  unfold Vol.partTake
  split
  · exact .ite (h.foldl fun _ _ h => .ite h.takeZone h) h
  · exact h

theorem modeTake {c : Nat} (h : CutPending z w) : CutPending z (w.modeTake c) := by
  unfold Vol.modeTake
  split
  · split
    · exact h.joinTake
    · exact h.wholeTake
    · exact h.partTake
  · exact h

theorem walk {freed : List Nat} (h : CutPending z w) : CutPending z (w.walk freed) := h.foldl fun _ _ h => h.modeTake

theorem releaseClaim {c : Nat} (h : CutPending z w) : CutPending z (w.releaseClaim c) := by
  unfold Vol.releaseClaim
  split
  · rename_i x _
    have hleft : CutPending z (x.waitingZones.foldl (fun w y => w.leaveWait c y) w) := h.foldl fun _ _ h => h
    have hfreed := hleft.foldl (f := fun (w : Vol) y => w.modZone y fun r => { r with holder := none })
      (l := x.heldZones) fun _ _ h => h
    exact .walk hfreed
  · exact h

theorem renumberClaims (h : CutPending z w) : CutPending z w.renumberClaims := h.foldl fun _ _ h => h

theorem placeClaim {o : Owner} {g p : Nat} {m : ClaimMode} (h : CutPending z w) : CutPending z (w.placeClaim o g p m).2 := by
  unfold Vol.placeClaim
  dsimp only
  split
  · exact h
  · exact h
  · refine .modeTake (.foldl ?_ fun _ _ h => h)
    exact CutPending.ite (p := w.stampCounter = Config.maxStamp) h.renumberClaims h

theorem withdrawZone {y : Nat} (h : CutPending z w) : CutPending z (w.withdrawZone y) := by
  refine foldl (foldl h fun _ _ h => h) fun v c hv => ?_
  split
  · exact .ite hv.wholeTake hv
  · exact hv

theorem arbitrateSubstitute {c y u : Nat} {st : ClaimState} (h : CutPending z w) :
    CutPending z (w.arbitrateSubstitute c y u st) := by
  unfold Vol.arbitrateSubstitute
  dsimp only
  split
  · exact h
  · refine .ite (.ite (.takeZone h) (.ite h h)) ?_
    split
    · exact .ite (.takeZone h) h
    · exact .ite (.partTake h) h
    · exact .wholeTake h

theorem settleFault {y c : Nat} (h : CutPending z w) : CutPending z (w.settleFault y c) := by
  unfold Vol.settleFault
  split
  · exact h
  · dsimp only
    split
    · exact .ite (.ite (.wholeTake h) h) (.arbitrateSubstitute h)
    · exact .ite (.wholeTake h) h

theorem faultZone {y : Nat} (h : CutPending z w) : CutPending z (w.faultZone y) := h.foldl fun _ _ h => h.settleFault

theorem recoverZone {y : Nat} (h : CutPending z w) : CutPending z (w.recoverZone y) := .walk (h.foldl fun _ _ h => h)

theorem changeZone {y : Nat} {f : Zone → Zone} (h : CutPending z w) : CutPending z (w.changeZone y f) := by
  unfold Vol.changeZone
  dsimp only
  split
  · exact .withdrawZone h
  · exact .withdrawZone h
  · exact .faultZone h
  · exact .faultZone h
  · exact .recoverZone h
  · exact .recoverZone h
  · exact h

/-! ### Voices and the request queue -/

theorem makeDemand {v : Nat} (h : CutPending z w) : CutPending z (w.makeDemand v) := by
  unfold Vol.makeDemand
  dsimp only
  refine .ite h ?_
  split
  · exact h
  · exact h

theorem setVoice {v : Nat} {x : Voice} (h : CutPending z w) : CutPending z (w.setVoice v x) := h

theorem lowerUses {fs : List Fragment} (h : CutPending z w) : CutPending z (w.lowerUses fs) := h

theorem raiseUses {fs : List Fragment} (h : CutPending z w) : CutPending z (w.raiseUses fs) := h

theorem withdrawDemand {v : Nat} (h : CutPending z w) : CutPending z (w.withdrawDemand v) := h

theorem releaseVoice {v : Nat} (h : CutPending z w) : CutPending z (w.releaseVoice v) := by
  unfold Vol.releaseVoice
  dsimp only
  split
  · exact .setVoice (.withdrawDemand (.lowerUses h.releaseClaim))
  · exact .setVoice (.withdrawDemand (.lowerUses h))

theorem removeRequest {n : Nat} {o : ReqOutcome} (h : CutPending z w) : CutPending z (w.removeRequest n o) := by
  unfold Vol.removeRequest
  split
  · exact h
  · dsimp only
    split
    · exact .releaseVoice (.notify h)
    · exact .notify h

theorem failBegin {r : Request} {o : ReqOutcome} (h : CutPending z w) : CutPending z (w.failBegin r o) :=
  .ite h.removeRequest h.removeRequest

theorem beginVoice {r : Request} {v : Nat} (h : CutPending z w) : CutPending z (w.beginVoice nv r v) := by
  unfold Vol.beginVoice
  generalize (if r.origin = .evac then expandEvac nv w.listInForce else w.expandTemplate nv r) = e
  obtain ⟨fs, incomplete⟩ := e
  dsimp only
  have hmarked : CutPending z (if incomplete = true then w.modRequest r.number fun x => { x with incomplete := true } else w) :=
    .ite h h
  generalize (if incomplete = true then w.modRequest r.number fun x => { x with incomplete := true } else w) = u at hmarked
  refine .ite hmarked.failBegin ?_
  split
  · exact hmarked.failBegin
  · rename_i g _
    have hplaced := hmarked.placeClaim (o := .voice v) (g := g) (p := r.priority) (m := r.mode)
    generalize u.placeClaim (.voice v) g r.priority r.mode = placed at hplaced
    obtain ⟨c, t⟩ := placed
    cases c with
    | none => exact .failBegin hplaced
    | some c => exact .makeDemand (.setVoice (.raiseUses hplaced))

theorem handOutFuel (n : Nat) (h : CutPending z w) : CutPending z (Vol.handOutFuel nv n w) := by
  induction n generalizing w with
  | zero => exact h
  | succ n ih =>
    unfold Vol.handOutFuel
    split
    · exact h
    next v hv =>
      refine ih ?_
      unfold Vol.handOutOne at hv
      split at hv
      · cases hv
      · split at hv
        · cases hv
        · obtain rfl := Option.some.inj hv
          exact .beginVoice h

theorem handOut (h : CutPending z w) : CutPending z (w.handOut nv) := .handOutFuel _ h

theorem settleLost {n : Nat} (h : CutPending z w) : CutPending z (w.settleLost n) := by
  unfold Vol.settleLost
  split
  · exact h
  · refine .ite h.removeRequest ?_
    split
    · exact h.removeRequest
    · exact .ite h.removeRequest (.ite h.removeRequest h)

theorem settleEnd {n : Nat} (h : CutPending z w) : CutPending z (w.settleEnd n) := by
  unfold Vol.settleEnd
  split
  · exact h
  · refine .ite h.removeRequest (.ite h.removeRequest ?_)
    split
    · exact h.removeRequest
    · exact .ite h.removeRequest (.ite h.removeRequest h)

theorem withdrawRequest {r : Request} {m : FinishMark} (h : CutPending z w) : CutPending z (w.withdrawRequest r m) :=
  .ite h.removeRequest (.ite h.removeRequest h)

theorem supersede {c : Nat} {k : Option Trigger} {m : FinishMark} (h : CutPending z w) :
    CutPending z (w.supersede nv c k m) := .handOut (h.foldl fun _ _ h => h.withdrawRequest)

theorem queueTime (h : CutPending z w) : CutPending z (w.queueTime nv) :=
  .handOut (.foldl (h.foldl fun _ _ h => h.removeRequest) fun _ _ h => h)

theorem enterQueue {r : Request} (h : CutPending z w) : CutPending z (w.enterQueue nv r) := .handOut h

theorem numberRequest {r : Request} (h : CutPending z w) : CutPending z (w.numberRequest r).2 := by
  unfold Vol.numberRequest
  dsimp only
  split
  · exact h
  · exact h

theorem createRequest {r : Request} (h : CutPending z w) : CutPending z (w.createRequest nv r).2 := by
  have hfirst : CutPending z (w.replaceMoment r) := by
    unfold Vol.replaceMoment
    split
    · exact h.removeRequest
    · exact h
  unfold Vol.createRequest
  dsimp only
  generalize w.replaceMoment r = v at hfirst
  split
  next u hu =>
    refine .enterQueue (.numberRequest ?_)
    unfold Vol.makeRoom at hu
    split at hu
    · obtain rfl := Option.some.inj hu
      exact hfirst
    · split at hu
      · obtain rfl := Option.some.inj hu
        exact hfirst.removeRequest
      · cases hu
  next => exact .handOut (.notify hfirst.numberRequest)

/-! ### The end of an event -/

theorem voiceExhausted {v : Nat} (h : CutPending z w) : CutPending z (w.voiceExhausted v) := by
  unfold Vol.voiceExhausted
  dsimp only
  split
  · exact h.releaseVoice
  · refine .ite h.releaseVoice.removeRequest ?_
    split
    · exact h.releaseVoice
    · exact .ite h.releaseVoice.settleLost h.releaseVoice.removeRequest

theorem reportExhausted (n : Nat) (h : CutPending z w) : CutPending z (Vol.reportExhausted nv n w) := by
  induction n generalizing w with
  | zero => exact h
  | succ n ih =>
    unfold Vol.reportExhausted
    split
    · exact h
    · exact ih h.voiceExhausted.handOut

theorem settle (h : CutPending z w) : CutPending z (w.settle nv) := .reportExhausted _ h

/-- R122, R182: the read path and the alert write no gain record. -/
theorem finish (h : CutPending z w) : CutPending z (w.finish nv) := by
  obtain ⟨r, hr⟩ := pump_read (w.settle nv) nv
  obtain ⟨_, e, he, _⟩ := evalAlert_engine ((w.settle nv).pump nv) nv
  unfold Vol.finish
  rw [he, hr]
  exact .congr h.settle rfl

theorem zoneEvent {y : Nat} {f : Zone → Zone} (h : CutPending z w) : CutPending z (w.zoneEvent nv y f) :=
  .ite (.notify (.settle (.changeZone h))) (.settle (.changeZone h))

/-! ### The call table -/

theorem remakeDue {c : Nat} (h : CutPending z w) : CutPending z (w.remakeDue c) := by
  unfold Vol.remakeDue
  dsimp only
  split
  · exact h
  · split
    · exact h
    · exact h

theorem fireTrigger {c : Nat} {t : Trigger} {stale : Bool} (h : CutPending z w) :
    CutPending z (w.fireTrigger nv c t stale).2 := by
  unfold Vol.fireTrigger
  split
  · exact h
  · split
    · exact h
    · split
      · exact h
      · split
        · exact h.notify
        · rename_i tn _ _ _ tm _
          have hmade := h.createRequest (nv := nv) (r := { w.requestFrom tm tn .timetable with call := some (c, t) })
          generalize w.createRequest nv _ = made at hmade
          obtain ⟨n, v⟩ := made
          cases n with
          | none => exact hmade
          | some n => exact hmade

theorem callNotice {c : Nat} {t : Option Trigger} {stale made : Bool} (h : CutPending z w) :
    CutPending z (w.callNotice c t stale made) := by
  unfold Vol.callNotice
  split
  · exact h
  · exact h.notify

theorem endTransition {c : Nat} {t : Option Trigger} {stale : Bool} (h : CutPending z w) :
    CutPending z (w.endTransition nv c t stale) := by
  unfold Vol.endTransition
  dsimp only
  split
  · exact .remakeDue (.callNotice (.fireTrigger h))
  · exact .remakeDue (.callNotice h)

theorem modCall {c : Nat} {f : Call → Call} (h : CutPending z w) : CutPending z (w.modCall c f) := h

theorem modPlatform {p : Nat} {f : Platform → Platform} (h : CutPending z w) : CutPending z (w.modPlatform p f) := h

theorem enterPlatform {c p : Nat} {t : HeldTransition} {stale : Bool} (h : CutPending z w) :
    CutPending z (w.enterPlatform nv c p t stale) := by
  unfold Vol.enterPlatform
  exact .endTransition (.ite (.supersede (.modCall (.modPlatform h))) (.modCall (.modPlatform h)))

theorem holdCall {c p o : Nat} {t : HeldTransition} (h : CutPending z w) : CutPending z (w.holdCall c p o t) :=
  .remakeDue (.notify (.modPlatform (.modCall h)))

theorem tryPlatform {c : Nat} {t : HeldTransition} {stale : Bool} (h : CutPending z w) :
    CutPending z (w.tryPlatform nv c t stale) := by
  unfold Vol.tryPlatform
  split
  · exact h.remakeDue
  · split
    · exact h.enterPlatform
    · exact h.holdCall

theorem offerPlatform {p : Nat} (h : CutPending z w) : CutPending z (w.offerPlatform nv p) := by
  unfold Vol.offerPlatform
  split
  · exact h
  · split
    · exact .ite h.enterPlatform (.modPlatform h.enterPlatform)
    · exact h

theorem freePlatform {c : Nat} (h : CutPending z w) : CutPending z (w.freePlatform c).2 := by
  unfold Vol.freePlatform
  split
  · split
    · exact h.modPlatform
    · exact h
  · exact h

theorem enterGone {c : Nat} {stale : Bool} (h : CutPending z w) : CutPending z (w.enterGone nv c stale) := by
  unfold Vol.enterGone
  dsimp only
  split
  · exact .offerPlatform (.endTransition (.supersede (.freePlatform (.modCall h))))
  · exact .endTransition (.supersede (.freePlatform (.modCall h)))

theorem enterFinal {c : Nat} {stale : Bool} (h : CutPending z w) : CutPending z (w.enterFinal nv c stale) := by
  unfold Vol.enterFinal
  exact .endTransition (.supersede (.modCall h))

theorem enterApproaching {c : Nat} {stale : Bool} (h : CutPending z w) : CutPending z (w.enterApproaching nv c stale) := by
  unfold Vol.enterApproaching
  exact .endTransition (.modCall h)

theorem modQueue {f : RequestQueue → RequestQueue} (h : CutPending z w) : CutPending z (w.modQueue f) := h

theorem dropDue {c : Nat} (h : CutPending z w) : CutPending z (w.dropDue c) := h

theorem setCall {c : Nat} {x : Option Call} (h : CutPending z w) : CutPending z (w.setCall c x) := h

theorem removeCall {c : Nat} (h : CutPending z w) : CutPending z (w.removeCall nv c) := by
  unfold Vol.removeCall
  split
  · exact h
  · dsimp only
    split
    · exact .notify (.setCall (.offerPlatform (.modCall (.freePlatform (.dropDue (.modQueue h.supersede))))))
    · exact .notify (.setCall (.modCall (.freePlatform (.dropDue (.modQueue h.supersede)))))

theorem takeDue {e : DueEntry} (h : CutPending z w) : CutPending z (w.takeDue nv e) := by
  unfold Vol.takeDue
  dsimp only
  split
  · exact h
  · split
    · exact .tryPlatform (.dropDue h)
    · exact .enterFinal (.dropDue h)
    · exact .enterGone (.dropDue h)
    · exact .enterApproaching (.dropDue h)
    · exact .enterGone (.dropDue h)
    · exact .removeCall (.dropDue h)
    · exact .removeCall (.dropDue h)
    all_goals exact h

theorem walkFuel {p : Nat → Bool} (n : Nat) (h : CutPending z w) : CutPending z (Vol.walkFuel nv p n w) := by
  induction n generalizing w with
  | zero => exact h
  | succ n ih =>
    unfold Vol.walkFuel
    split
    · exact h
    · exact ih h.takeDue

theorem walkAll (h : CutPending z w) : CutPending z (w.walkAll nv) := .ite (.walkFuel _ h) h

theorem setClock {c : StationClock} (h : CutPending z w) : CutPending z { w with clock := c } := h

theorem advanceSecond (h : CutPending z w) : CutPending z (w.advanceSecond nv) := .ite (.walkAll (.setClock h)) h

/-! ### Live sources -/

theorem setSource {l : Nat} {x : Option LiveSource} (h : CutPending z w) : CutPending z (w.setSource l x) := h

theorem openSource {v : Vol} {l : Nat} {o : Opener} {g p n : Nat} (h : CutPending z w)
    (ho : w.openSource l o g p n = some v) : CutPending z v := by
  unfold Vol.openSource at ho
  have hplaced := h.placeClaim (o := .live l) (g := g) (p := p) (m := .join)
  generalize w.placeClaim (.live l) g p .join = placed at hplaced ho
  obtain ⟨c, u⟩ := placed
  cases c with
  | none => cases ho
  | some c =>
    obtain rfl := Option.some.inj ho
    exact .setSource hplaced

theorem getD {o : Option Vol} (h : CutPending z w) (ho : ∀ v, o = some v → CutPending z v) : CutPending z (o.getD w) := by
  cases o with
  | none => exact h
  | some v => exact ho v rfl

theorem closeSource {l : Nat} {c : LiveCause} (h : CutPending z w) : CutPending z (w.closeSource l c) := by
  unfold Vol.closeSource
  split
  · exact h
  · exact .notify (.setSource h.releaseClaim)

theorem talkPressed {n l g p : Nat} (h : CutPending z w) : CutPending z (w.talkPressed n l g p).2 := by
  unfold Vol.talkPressed
  split
  · exact h
  · split
    · exact h.notify
    · split
      · exact h.notify
      · exact h.getD fun _ => h.openSource

theorem talkReleased {n l : Nat} (h : CutPending z w) : CutPending z (w.talkReleased n l) := by
  unfold Vol.talkReleased
  split
  · exact .ite h.closeSource h
  · exact h

theorem evacTalkPressed {n : Nat} (h : CutPending z w) : CutPending z (w.evacTalkPressed n).2 := by
  unfold Vol.evacTalkPressed
  split
  · exact h
  · split
    · exact h
    · split
      · exact h.notify
      · exact h.getD fun _ => h.closeSource.openSource

theorem evacTalkReleased {n : Nat} (h : CutPending z w) : CutPending z (w.evacTalkReleased n) := by
  unfold Vol.evacTalkReleased
  split
  · exact h
  · split
    · exact .ite h.closeSource h
    · exact h

theorem talkMark {l : Nat} (h : CutPending z w) : CutPending z (w.talkMark l) := by
  unfold Vol.talkMark
  split
  · exact h
  · exact .ite (.closeSource (.setSource h)) (.setSource h)

theorem absenceMark {b : Bool} {l : Nat} (h : CutPending z w) : CutPending z (w.absenceMark b l) := by
  unfold Vol.absenceMark
  split
  · exact h
  · exact .ite h.setSource (.ite (.notify h.setSource) h.setSource)

/-! ### The evacuation controller -/

theorem modEvac {f : Evac → Evac} (h : CutPending z w) : CutPending z (w.modEvac f) := h

theorem changeList {b : Bool} (h : CutPending z w) : CutPending z (w.changeList b) := .setVoice (.modEvac h)

theorem makeEvacRequest (h : CutPending z w) : CutPending z (w.makeEvacRequest nv) := by
  unfold Vol.makeEvacRequest
  have hlist := h.modEvac (f := fun e => { e with list := some w.rowList })
  generalize w.modEvac _ = v at hlist
  dsimp only
  split
  · split
    · exact .modEvac hlist.createRequest
    · exact hlist.createRequest
  · exact hlist.createRequest

theorem setEvac {st : EvacState} {c : EvacCause} (h : CutPending z w) : CutPending z (w.setEvac st c) := .notify (.modEvac h)

theorem suppressLow (h : CutPending z w) : CutPending z (w.suppressLow nv) :=
  .handOut (h.foldl fun _ _ h => h.removeRequest)

theorem enterEvacuate {c : EvacCause} (h : CutPending z w) : CutPending z (w.enterEvacuate nv c) := by
  unfold Vol.enterEvacuate
  have hlow := (h.setEvac (st := .evacuate) (c := c)).suppressLow (nv := nv)
  exact .ite hlow.makeEvacRequest (.ite hlow.changeList hlow)

theorem enterAlert {c : EvacCause} (h : CutPending z w) : CutPending z (w.enterAlert nv c) :=
  .ite h.enterEvacuate (.makeEvacRequest (.setEvac (.modEvac h)))

theorem returnNormal {c : EvacCause} (h : CutPending z w) : CutPending z (w.returnNormal nv c) := by
  have remove : ∀ {v : Vol} (r : Option Nat), CutPending z v → CutPending z (match r with
      | some n => v.removeRequest n .cancelled
      | none => v) := by
    intro v r hv
    cases r with
    | none => exact hv
    | some n => exact hv.removeRequest
  have close : ∀ {v : Vol}, CutPending z v → CutPending z (match v.evac.lane with
      | some lane => if v.evacSourceOpen then v.closeSource lane .stopped else v
      | none => v) := by
    intro v hv
    split
    · exact .ite hv.closeSource hv
    · exact hv
  unfold Vol.returnNormal
  exact .handOut (close (.modEvac (remove _ h.setEvac)))

theorem alertMark (h : CutPending z w) : CutPending z (w.alertMark nv) := .ite (.ite (.enterEvacuate (.modEvac h)) h) h

theorem evacRise {n : Nat} {f : EvacFn} (h : CutPending z w) : CutPending z (w.evacRise nv n f).2 := by
  unfold Vol.evacRise
  split
  · split
    · exact h.enterAlert
    · exact h
  · split
    · exact h
    · exact h.enterEvacuate
  · split
    · exact h
    · exact h.returnNormal
  · exact h.evacTalkPressed

theorem evacFall {n : Nat} {f : EvacFn} (h : CutPending z w) : CutPending z (w.evacFall n f) := by
  cases f with
  | talk => exact h.evacTalkReleased
  | alert => exact h
  | full => exact h
  | reset => exact h

theorem evacSettle {n : Nat} {f : EvacFn} (h : CutPending z w) : CutPending z (w.evacSettle nv n f) := by
  cases f with
  | alert => exact h.evacRise
  | full => exact h.evacRise
  | reset => exact h
  | talk => exact h

/-! ### Contact lines -/

theorem warnPlatform {p : Nat} (h : CutPending z w) : CutPending z (w.warnPlatform nv p).2 := by
  unfold Vol.warnPlatform
  split
  · exact h
  · split
    · exact h
    · exact h.createRequest

theorem markTrain {p : Nat} (h : CutPending z w) : CutPending z (w.markTrain nv p).2 := by
  unfold Vol.markTrain
  split
  · exact h.tryPlatform
  · exact h

theorem closeDoors {p : Nat} (h : CutPending z w) : CutPending z (w.closeDoors nv p) := by
  unfold Vol.closeDoors
  split
  · exact h.enterGone
  · exact h

theorem updateTrain {p : Nat} (h : CutPending z w) : CutPending z (w.updateTrain p) := h.modPlatform

theorem riseAct {n : Nat} {f : LineFn} (h : CutPending z w) : CutPending z (w.riseAct nv n f).2 := by
  cases f with
  | plain => exact h
  | talk l g p => exact h.talkPressed
  | trainPresent p => exact h.updateTrain.markTrain
  | doorsClosed p => exact h.closeDoors
  | platformWarn p => exact h.warnPlatform
  | zoneFault y => exact h.zoneEvent
  | output _ _ _ _ => exact h
  | evac f => exact h.evacRise

theorem fallAct {n : Nat} {f : LineFn} (h : CutPending z w) : CutPending z (w.fallAct nv n f) := by
  cases f with
  | plain => exact h
  | talk l g p => exact h.talkReleased
  | trainPresent p => exact h.updateTrain
  | doorsClosed p => exact h
  | platformWarn p => exact h
  | zoneFault y => exact h.zoneEvent
  | output _ _ _ _ => exact h
  | evac f => exact h.evacFall

theorem setLine {l : Nat} {x : Line} (h : CutPending z w) : CutPending z (w.setLine l x) := h

theorem takeEdge {n : Nat} {rising : Bool} (h : CutPending z w) : CutPending z (w.takeEdge nv n rising) := by
  have acted : ∀ {v : Vol} {f : LineFn}, CutPending z v → CutPending z
      (if rising = true then v.riseAct nv n f else (EdgeResult.none, v.fallAct nv n f)).2 := by
    intro v f hv
    cases rising
    · exact hv.fallAct
    · exact hv.riseAct
  unfold Vol.takeEdge
  exact .ite (.notify (.setLine (acted (.setLine h)))) (.ite (.notify (acted (.setLine h))) (acted (.setLine h)))

theorem settleAct {n : Nat} {b : Bool} {f : LineFn} (h : CutPending z w) : CutPending z (w.settleAct nv n b f) := by
  cases f with
  | trainPresent p => exact h.updateTrain
  | zoneFault y => exact .ite h.zoneEvent h
  | evac f => exact .ite h.evacSettle h
  | plain => exact h
  | talk _ _ _ => exact h
  | doorsClosed p => exact h
  | platformWarn p => exact h
  | output _ _ _ _ => exact h

theorem takeSettling {n : Nat} {b : Bool} (h : CutPending z w) : CutPending z (w.takeSettling nv n b) :=
  .settleAct (.setLine h)

theorem sampleLine {n : Nat} {raw : Bool} (h : CutPending z w) : CutPending z (w.sampleLine nv n raw) := by
  unfold Vol.sampleLine
  dsimp only
  refine .ite h (.ite ?_ h.setLine)
  split
  · exact .takeEdge h.setLine
  · exact .takeSettling h.setLine

/-! ### The parts of a block mark -/

theorem takeList {v : Nat} (h : CutPending z w) : CutPending z (w.takeList nv v) := by
  have flag : ∀ (r : Option Nat) (b : Bool), CutPending z (match r with
      | some n => if b = true then w.modRequest n fun r => { r with incomplete := true } else w
      | none => w) := by
    intro r b
    cases r with
    | none => exact h
    | some n => exact .ite h h
  unfold Vol.takeList
  dsimp only
  split
  · exact h
  · exact .ite h (.makeDemand (.setVoice (.raiseUses (.lowerUses (.withdrawDemand (flag _ _))))))

theorem voiceMark {v : Nat} (h : CutPending z w) : CutPending z (w.voiceMark nv v) := by
  unfold Vol.voiceMark
  refine .ite ?_ (.ite ?_ (.ite ?_ (.ite h.setVoice h)))
  · unfold Vol.stopCancelled
    split
    · exact h.removeRequest.handOut
    · exact h
  · unfold Vol.takeEnd
    split
    · exact h.releaseVoice.settleEnd.handOut
    · exact h.releaseVoice.handOut
  · unfold Vol.startVoice
    dsimp only
    split
    · exact h
    · exact h.setVoice

theorem clockMark (h : CutPending z w) : CutPending z (w.clockMark nv) :=
  .ite h.queueTime.finish (.ite h.advanceSecond.queueTime.finish (.ite h h))

theorem silenceMark {y : Nat} (h : CutPending z w) : CutPending z (w.silenceMark nv y) :=
  .ite h.zoneEvent.finish (.ite h h)

theorem alertEvent (h : CutPending z w) : CutPending z (w.alertEvent nv) := .ite h.alertMark.finish h.alertMark

theorem listEvent (h : CutPending z w) : CutPending z (w.listEvent nv) := .ite h.takeList.finish h

/-- R48: a cut that is pending before a block mark is pending at its mixer's step. -/
theorem markParts {levels : BitVec 16} (h : CutPending z w) : CutPending z (w.markParts nv levels) := by
  unfold Vol.markParts
  dsimp only
  refine foldl ?_ fun _ _ h => .ite h.voiceMark.finish h
  refine foldl ?_ fun _ _ h => .ite (.ite h.sampleLine.finish h.sampleLine) h
  refine foldl ?_ fun _ _ h => .ite h.absenceMark h
  refine foldl ?_ fun _ _ h => .ite (.ite h.talkMark.finish h.talkMark) h
  have hsilence : CutPending z ((List.range 64).foldl
      (fun v y => if !w.taken (.silence y) then v.silenceMark nv y else v)
      ((if !w.taken .list then w.listEvent nv else w).clockMark nv)) :=
    .foldl (.clockMark (.ite h.listEvent h)) fun _ _ h => .ite h.silenceMark h
  exact .ite hsilence.alertEvent hsilence

end CutPending

end Sys2Proof.Mixer
end

section
/-! PROOFS. What the production of a frame's samples and the sending of its frames change, and the monitor slot (R52, R163). -/

namespace Sys2Proof.Mixer

open Sys2Proof.Machine Sys2Proof.Laws Sys2Proof.Statements

/-! ### The production of samples (R109) -/

/-- `w'` differs from `w` in its voices alone. -/
def VoicesAlone (w w' : Vol) : Prop := w' = { w with voices := w'.voices }

theorem VoicesAlone.refl (w : Vol) : VoicesAlone w w := rfl

theorem VoicesAlone.trans {a b c : Vol} (h : VoicesAlone a b) (k : VoicesAlone b c) : VoicesAlone a c :=
  Eq.trans k (congrArg (fun v : Vol => { v with voices := c.voices }) h)

theorem setVoice_alone (w : Vol) (v : Nat) (x : Voice) : VoicesAlone w (w.setVoice v x) := rfl

theorem makeDemand_alone (w : Vol) (v : Nat) : VoicesAlone w (w.makeDemand v) := by
  unfold Vol.makeDemand
  dsimp only
  split
  · exact .refl w
  · split
    · exact setVoice_alone _ _ _
    · exact .refl w

theorem playFrame_alone (w : Vol) (nv : Nonvolatile) (v : Nat) : VoicesAlone w (w.playFrame nv v).2 := by
  unfold Vol.playFrame
  dsimp only
  split
  · exact setVoice_alone _ _ _
  · split
    · exact .trans (setVoice_alone _ _ _) (makeDemand_alone _ _)
    · exact setVoice_alone _ _ _

theorem voiceFrame_alone (w : Vol) (nv : Nonvolatile) (v : Nat) : VoicesAlone w (w.voiceFrame nv v).2 := by
  unfold Vol.voiceFrame
  dsimp only
  split
  · exact .refl w
  · split
    · exact playFrame_alone w nv v
    · split
      · exact ((setVoice_alone _ _ _).trans (makeDemand_alone _ _)).trans (playFrame_alone _ nv v)
      · exact .refl w

theorem voiceFrames_alone (w : Vol) (nv : Nonvolatile) : VoicesAlone w (w.voiceFrames nv).2 :=
  foldl_keeps (fun a : List Int × Vol => VoicesAlone w a.2) _ _ _ (.refl w) fun a v h => h.trans (voiceFrame_alone a.2 nv v)

/-! ### The frames sent (R163) -/

/-- The byte of the next return frame leaves the message in sending, of the engine. -/
theorem popByte_eq (w : Vol) : ∃ e, w.popByte.2.2 = { w with engine := e } := by
  unfold Vol.popByte
  split
  · split
    · exact ⟨_, rfl⟩
    · exact ⟨w.engine, rfl⟩
  · exact ⟨w.engine, rfl⟩

/-- What a part has sent in a frame whose mixed outputs are `mixed`. -/
structure Sends (w : Vol) (mix : List Int) (sent : Sent) : Prop where
  mixed : sent.mixed = mix
  monitor : sent.up.monitor = w.monitorAudio mix
  down : ∀ p < 4, (tget DownFrame.zero sent.down p).slots = (List.range 16).map (w.slotAudio mix p)

theorem sendFrames_eq (w : Vol) (mixed : List Int) :
    ∃ e sent, w.sendFrames mixed = { w with engine := e, sent := sent } ∧ Sends w mixed sent := by
  obtain ⟨e, he⟩ := popByte_eq w
  unfold Vol.sendFrames
  generalize w.popByte = popped at he
  obtain ⟨valid, byte, v⟩ := popped
  dsimp only at he ⊢
  subst he
  refine ⟨_, _, rfl, rfl, rfl, fun p hp => ?_⟩
  rw [tget_of_lt _ _ hp, Vector.getElem_ofFn]
  rfl

/-- R50, R109, R163: the voices produce, and the frames carry the mix of what they produced. -/
theorem produce_eq (w : Vol) (nv : Nonvolatile) : ∃ voices e sent mixed,
    w.produce nv = { w with voices := voices, engine := e, sent := sent } ∧ Sends w mixed sent := by
  have halone := voiceFrames_alone w nv
  unfold Vol.produce
  generalize w.voiceFrames nv = made at halone
  obtain ⟨samples, v⟩ := made
  dsimp only at halone ⊢
  obtain ⟨e, sent, hsent, hsends⟩ := sendFrames_eq v (v.mixAll samples)
  generalize v.mixAll samples = mixed at *
  rw [halone] at hsent hsends
  exact ⟨_, e, sent, mixed, (halone ▸ rfl : v.sendFrames mixed = _).trans hsent,
    ⟨hsends.mixed, hsends.monitor, hsends.down⟩⟩

/-! ### The monitor slot (R52) -/

theorem exec_frameClockFrame (x : FrameInput) (s : State) : exec (.frameClockFrame x) s = .next (takeFrame x s) := rfl

theorem zone_fixed_of_within {w w' : Vol} (h : w.Within w') (z : Nat) : (w'.zone z).fixed = (w.zone z).fixed := by
  have hzones := congrArg (fun v : Vol => tget (Zone.fixed .initial) v.zones z) h.fixed
  simpa [Vol.fixed, tget_map, Vol.zone] using hzones

theorem sent_of_within {w w' : Vol} (h : w.Within w') : w'.sent = w.sent := (congrArg Vol.sent h.fixed :)

theorem monitor_of_within {w w' : Vol} (h : w.Within w') : w'.monitor = w.monitor := (congrArg Vol.monitor h.fixed :)

/-- The end of an event leaves what the frames carry. -/
theorem Sends.of_within {w w' : Vol} {mix : List Int} {sent : Sent} (h : Sends w mix sent) (hw : w.Within w') :
    Sends w' mix sent := by
  have hplacement : ∀ z, (w'.zone z).placement = (w.zone z).placement := fun z =>
    (congrArg Zone.placement (zone_fixed_of_within hw z) :)
  refine ⟨h.mixed, ?_, fun p hp => ?_⟩
  · rw [h.monitor, Vol.monitorAudio, Vol.monitorAudio, monitor_of_within hw]
  · rw [h.down p hp]
    refine congrArg (List.map · (List.range 16)) (funext fun q => ?_)
    simp only [Vol.slotAudio, hplacement]

/-- Every frame sends what the part, as the frame leaves it, selects and places. -/
theorem takeFrame_sends (x : FrameInput) {s : State} (hr : s.running = true) :
    Sends (takeFrame x s).vol (takeFrame x s).vol.sent.mixed (takeFrame x s).vol.sent := by
  rw [takeFrame_body x s hr]
  generalize beforeFrame s x.verdict = b
  dsimp only
  unfold frameBody
  generalize b.vol.giveLanes.atSamples b.nv x.levels = v
  obtain ⟨voices, e, sent, mixed, hmade, hsends⟩ := produce_eq v b.nv
  have hproduced : (v.produce b.nv).sent = sent := by rw [hmade]
  have hends := finish_within (v.produce b.nv) b.nv
  rw [sent_of_within hends, hproduced, hsends.mixed]
  refine Sends.of_within ?_ hends
  rw [hmade]
  exact ⟨hsends.mixed, hsends.monitor, hsends.down⟩

/-- A frame keeps the selection. -/
theorem takeFrame_monitor (x : FrameInput) {s : State} (hr : s.running = true) : (takeFrame x s).vol.monitor = s.vol.monitor := by
  obtain ⟨_, _, _, hkeeps, _⟩ := takeFrame_keeps x s hr
  exact (congrArg Vol.monitor hkeeps :)

/-- R50: the slot of a placed zone carries its mixed output. -/
theorem slotAudio_placed {w : Vol} {mixed : List Int} {z p q : Nat} (hz : z < 64) (h : (w.zone z).placement = some (p, q))
    (hlow : ∀ y < z, (w.zone y).placement ≠ some (p, q)) : w.slotAudio mixed p q = BitVec.ofInt 24 (mixed.getD z 0) := by
  have hfind : (List.range 64).find? (fun y => decide ((w.zone y).placement = some (p, q))) = some z :=
    Zones.zoneAt_eq_some hz h hlow
  rw [Vol.slotAudio, hfind]

theorem monitorAudio_none {w : Vol} (mixed : List Int) (h : w.monitor = none) : w.monitorAudio mixed = 0 := by
  simp [Vol.monitorAudio, h]

theorem monitorAudio_some {w : Vol} {z : Nat} (mixed : List Int) (h : w.monitor = some z) :
    w.monitorAudio mixed = BitVec.ofInt 24 (mixed.getD z 0) := by
  simp [Vol.monitorAudio, h]

theorem monitorCarried : MonitorCarried := by
  intro x s hr
  have hsends := takeFrame_sends x hr
  have hmonitor := takeFrame_monitor x hr
  refine ⟨_, exec_frameClockFrame x s, hmonitor, fun h => ?_, fun z h => ?_, fun z p q h hz hp hq hplaced hlow => ?_⟩
  · rw [hsends.monitor, monitorAudio_none _ (hmonitor.trans h)]
  · rw [hsends.monitor, monitorAudio_some _ (hmonitor.trans h)]
  · rw [hsends.monitor, monitorAudio_some _ (hmonitor.trans h), hsends.down p hp, ← slotAudio_placed hz hplaced hlow]
    simp [hq]

/-- Settles O41. -/
theorem monitorSelected : Obligations.MonitorSelected := ⟨monitorTaken, monitorCarried⟩

end Sys2Proof.Mixer
end

section
/-! PROOFS. The mixer's step at a block mark (R41 to R43, R46 to R48): what the parts of the mark before it leave it, the
targets and levels it gives each zone, and that nothing after it in the frame changes them. -/

namespace Sys2Proof.Mixer

open Sys2Proof.Machine Sys2Proof.Laws Sys2Proof.Statements

/-! ### Targets and steps (R41 to R43, R47) -/

theorem derating_eq (x : Zone) : x.derating = if x.health = .derated then 24 else 0 := rfl

theorem fgTarget_unheld {w : Vol} {z : Nat} (h : (w.zone z).holder = none) : w.fgTarget z = 192 := by
  simp [Vol.fgTarget, h, Config.mute]

theorem fgTarget_held {w : Vol} {z k : Nat} {c : Claim} (h : (w.zone z).holder = some k) (hc : w.claim k = some c) :
    w.fgTarget z = min 191 ((if 14 ≤ c.priority then (w.zone z).evacBase else (w.zone z).fgBase)
      + (if (w.zone z).health = .derated then 24 else 0) - (w.zone z).compensation) := by
  simp only [Vol.fgTarget, h, hc, Option.bind_some, derating_eq]

theorem compensation_off {x : Zone} (h : x.compOn = false ∨ x.ambient = none) : x.compensation = 0 := by
  unfold Zone.compensation
  split
  next hon ha => simp [hon, ha] at h
  next => rfl

theorem compensation_on {x : Zone} {d : Nat} (h : x.compOn = true) (ha : x.ambient = some d) :
    x.compensation = min (d - x.compRef) x.compLimit := by
  simp [Zone.compensation, h, ha]

theorem bgMuted_iff (w : Vol) (z : Nat) : w.bgMuted z = true ↔ (w.zone z).bgLane = none
    ∨ (∃ l, (w.zone z).bgLane = some l ∧ w.align.out.presence.getLsbD l = false) ∨ (w.zone z).state = .off
    ∨ (z ∈ w.group 31 ∧ w.evac.state ≠ .normal) := by
  unfold Vol.bgMuted Vol.laneSeen
  cases h : (w.zone z).bgLane with
  | none => simp [h]
  | some l => simp [h, or_assoc]

theorem bgTarget_muted {w : Vol} {z : Nat} (h : w.bgMuted z = true) : w.bgTarget z = 192 := if_pos h

theorem bgTarget_heard {w : Vol} {z : Nat} (h : ¬ w.bgMuted z = true) : w.bgTarget z =
    min 191 ((w.zone z).bgBase + (if (w.zone z).state = .held then (w.zone z).duck else 0)
      + (if (w.zone z).health = .derated then 24 else 0)) := if_neg h

theorem targetsComputed : TargetsComputed := by
  intro w z
  refine ⟨fgTarget_unheld, fun _ _ => fgTarget_held, compensation_off, fun _ => compensation_on,
    fun h => bgTarget_muted ((bgMuted_iff w z).mpr h), fun l hl hseen hon hev => bgTarget_heard ?_⟩
  rw [bgMuted_iff, hl]
  rintro (h | ⟨k, hk, h⟩ | h | ⟨hmem, h⟩)
  · cases h
  · obtain rfl := Option.some.inj hk
    rw [hseen] at h
    cases h
  · exact hon h
  · exact hev.elim (absurd hmem) h

/-- The target is within one step of the level. -/
theorem ramp_reaches {rate level target : Nat} (hup : target ≤ level + rate) (hdown : level ≤ target + rate) :
    ramp rate level target = target := by
  unfold ramp
  split
  · rw [if_pos (by omega)]
  · rw [if_pos (by omega)]

theorem ramp_rises {rate level target : Nat} (h : level + rate < target) : ramp rate level target = level + rate := by
  rw [ramp, if_pos (by omega), if_neg (by omega)]

theorem ramp_falls {rate level target : Nat} (h : target + rate < level) : ramp rate level target = level - rate := by
  rw [ramp, if_neg (by omega), if_neg (by omega)]

theorem rampSteps : RampSteps := by
  intro rate level target
  obtain h | h | ⟨hup, hdown⟩ : level + rate < target ∨ target + rate < level
      ∨ target ≤ level + rate ∧ level ≤ target + rate := by omega
  · rw [ramp_rises h]
    omega
  · rw [ramp_falls h]
    omega
  · rw [ramp_reaches hup hdown]
    omega

/-! ### Between block marks (R46, R47) -/

theorem gain_fixed_of_betweenMarks {w w' : Vol} (h : betweenMarks w'.fixed = betweenMarks w.fixed) (z : Nat) :
    (w'.gain z).fixed = (w.gain z).fixed := by
  have hgains := congrArg (fun v : Vol => tget (Gain.fixed .initial) v.gains z) h
  simpa [betweenMarks, Vol.fixed, tget_map, Vol.gain] using hgains

theorem levelsStandBetweenMarks : LevelsStandBetweenMarks := by
  intro x s hr hmark
  obtain ⟨_, _, _, _, _, _, hbetween⟩ := takeFrame_keeps x s hr
  refine ⟨_, exec_frameClockFrame x s, fun z _ => ?_⟩
  exact (gain_fixed_of_betweenMarks (w := { s.vol with fclk := s.vol.fclk })
    (w' := { (takeFrame x s).vol with fclk := s.vol.fclk }) (hbetween hmark).1 z :)

/-! ### What the parts of a block mark before the mixer's step leave it -/

/-- Bases, levels and staged bases stand: of every gain record all but the cut pending flag, of every zone the fields that
are configured, and the ramp rate. -/
structure BasesStand (w w' : Vol) : Prop where
  gain : ∀ z, (w'.gain z).fixed = (w.gain z).fixed
  zone : ∀ z, (w'.zone z).configured = (w.zone z).configured
  rate : w'.rampRate = w.rampRate

theorem BasesStand.refl (w : Vol) : BasesStand w w := ⟨fun _ => rfl, fun _ => rfl, rfl⟩

theorem BasesStand.trans {a b c : Vol} (h : BasesStand a b) (k : BasesStand b c) : BasesStand a c :=
  ⟨fun z => (k.gain z).trans (h.gain z), fun z => (k.zone z).trans (h.zone z), k.rate.trans h.rate⟩

theorem BasesStand.foldl {β : Type} {f : Vol → β → Vol} {l : List β} {w : Vol} (h : ∀ v b, BasesStand v (f v b)) :
    BasesStand w (l.foldl f w) := foldl_keeps (BasesStand w) f l w (.refl w) fun _ b hv => hv.trans (h _ b)

theorem BasesStand.guard {w w' : Vol} (b : Bool) (h : BasesStand w w') : BasesStand w (if b then w' else w) := by
  cases b
  · exact .refl w
  · exact h

theorem basesStand_of_outer {w w' : Vol} (hg : w'.outer.gains = w.outer.gains) (hz : w'.outer.zones = w.outer.zones)
    (hr : w'.rampRate = w.rampRate) : BasesStand w w' := by
  refine ⟨fun z => ?_, fun z => ?_, hr⟩
  · have hgain := congrArg (fun t => tget (Gain.fixed .initial) t z) hg
    simpa [Vol.outer, Vol.fixed, tget_map, Vol.gain] using hgain
  · have hzone := congrArg (fun t => tget (Zone.configured .initial) t z) hz
    simpa [Vol.outer, tget_map, Vol.zone] using hzone

theorem basesStand_of_around {w w' : Vol} (h : w.Around w') : BasesStand w w' :=
  basesStand_of_outer (congrArg Vol.gains h.outer) (congrArg Vol.zones h.outer) (congrArg Vol.rampRate h.outer :)

theorem basesStand_of_within {w w' : Vol} (h : w.Within w') : BasesStand w w' := basesStand_of_around h.around

theorem basesStand_of_betweenMarks {w w' : Vol} (h : betweenMarks w'.fixed = betweenMarks w.fixed) : BasesStand w w' := by
  refine ⟨gain_fixed_of_betweenMarks h, fun z => ?_, (congrArg Vol.rampRate h :)⟩
  have hzone := congrArg (fun v : Vol => tget (Zone.fixed .initial) v.zones z) h
  have hfixed : (w'.zone z).fixed = (w.zone z).fixed := by
    simpa [betweenMarks, Vol.fixed, tget_map, Vol.zone] using hzone
  exact (congrArg Zone.configured hfixed :)

theorem clockMark_bases (w : Vol) (nv : Nonvolatile) : BasesStand w (w.clockMark nv) := by
  have tested : ∀ v : Vol, BasesStand v ((v.queueTime nv).finish nv) := fun v =>
    basesStand_of_within ((queueTime_within _ _).trans (finish_within _ _))
  have ticked : ∀ c : StationClock, BasesStand w { w with clock := c } := fun _ => ⟨fun _ => rfl, fun _ => rfl, rfl⟩
  have advanced : BasesStand w (w.advanceSecond nv) := by
    unfold Vol.advanceSecond
    split
    · exact (ticked _).trans (basesStand_of_around (walkAll_around _ _))
    · exact ticked _
  unfold Vol.clockMark
  split
  · exact tested w
  · split
    · exact advanced.trans (tested _)
    · split
      · exact ticked _
      · exact .refl w

theorem silenceMark_bases (w : Vol) (nv : Nonvolatile) (z : Nat) : BasesStand w (w.silenceMark nv z) := by
  unfold Vol.silenceMark
  dsimp only
  split
  · exact basesStand_of_around ((zoneEvent_around w nv z Zone.goSilent fun _ => rfl).trans (finish_around _ _))
  · split
    · exact basesStand_of_around (modZone_around w z (fun x => { x with silence := x.silence + 1 }) fun _ => rfl)
    · exact .refl w

/-- An event of a block mark, ended when it is due. -/
theorem ended_bases {w v : Vol} (nv : Nonvolatile) (b : Bool) (h : w.Around v) :
    BasesStand w (if b = true then v.finish nv else v) := by
  cases b
  · exact basesStand_of_around h
  · exact basesStand_of_around (h.trans (finish_around _ _))

/-- No part of a block mark before the mixer's step changes a base, a level or a staged base (R46, R47). -/
theorem markParts_bases (w : Vol) (nv : Nonvolatile) (levels : BitVec 16) : BasesStand w (w.markParts nv levels) := by
  have list : BasesStand w (w.listEvent nv) :=
    .guard _ (basesStand_of_within ((takeList_within _ _ _).trans (finish_within _ _)))
  unfold Vol.markParts
  refine BasesStand.trans ?_ (.foldl fun v k => .guard _ (basesStand_of_within
    ((voiceMark_within v nv k).trans (finish_within _ nv))))
  refine BasesStand.trans ?_ (.foldl fun v l => .guard _ (ended_bases nv _ (sampleLine_around v nv l _)))
  refine BasesStand.trans ?_ (.foldl fun v l => .guard _ (basesStand_of_around (absenceMark_around v _ l)))
  refine BasesStand.trans ?_ (.foldl fun v l => .guard _ (ended_bases nv _ (talkMark_around v l)))
  refine BasesStand.trans ?_ (.guard _ (ended_bases nv _ (alertMark_around _ nv)))
  refine BasesStand.trans ?_ (.foldl fun v z => .guard _ (silenceMark_bases v nv z))
  exact (BasesStand.guard _ list).trans (clockMark_bases _ nv)

theorem gains_of_arbitration {w w' : Vol} (h : arbitration w' = arbitration w) : w'.gains = w.gains := (congrArg Vol.gains h :)

/-- What is due before a frame keeps a pending cut (R48). -/
theorem beforeFrame_cut {z : Nat} {s : State} (v : ReadVerdict) (h : CutPending z s.vol) :
    CutPending z (beforeFrame s v).vol := by
  have hread : CutPending z (if s.vol.readDue then (completeRead s v).finish else s).vol := by
    split
    · obtain ⟨hdue, _⟩ := completeRead_keeps s v
      exact (h.congr (gains_of_arbitration hdue.arbitration)).finish
    · exact h
  unfold beforeFrame
  generalize (if s.vol.readDue then (completeRead s v).finish else s) = a at hread
  have hended : CutPending z (if a.vol.store.op.overdue then (endOverdue a).finish else a).vol := by
    split
    · obtain ⟨hdue, _⟩ := endOverdue_keeps a
      exact (hread.congr (gains_of_arbitration hdue.arbitration)).finish
    · exact hread
  dsimp only
  generalize (if a.vol.store.op.overdue then (endOverdue a).finish else a) = b at hended
  obtain ⟨_, hend, _⟩ := endSending_keeps b.vol
  obtain ⟨_, hstart, _⟩ := startSending_keeps b.vol.endSending
  exact hended.congr (gains_of_arbitration (hstart.trans hend))

/-- The part as the parts of a block mark before the mixer's step leave it: bases and levels as before the frame, and every
cut that was pending. -/
theorem before_mixer (x : FrameInput) (s : State) :
    BasesStand s.vol ((beforeFrame s x.verdict).vol.giveLanes.markParts (beforeFrame s x.verdict).nv x.levels)
      ∧ ∀ z, CutPending z s.vol →
        CutPending z ((beforeFrame s x.verdict).vol.giveLanes.markParts (beforeFrame s x.verdict).nv x.levels) := by
  obtain ⟨hwork, _⟩ := beforeFrame_keeps s x.verdict
  have hcut := fun z => beforeFrame_cut (z := z) (s := s) x.verdict
  generalize beforeFrame s x.verdict = b at hwork hcut
  obtain ⟨hgive, harb, _⟩ := giveLanes_keeps b.vol
  refine ⟨?_, fun z h => ((hcut z h).congr (gains_of_arbitration harb)).markParts⟩
  exact ((basesStand_of_betweenMarks hwork.between).trans (basesStand_of_betweenMarks hgive)).trans
    (markParts_bases _ b.nv x.levels)

/-! ### One zone of a pass over the zones -/

/-- In a pass over different zones, what is read of a zone is changed by its own step alone. -/
theorem foldl_reads_once {α : Type} (read : Vol → α) {step : Vol → Nat → Vol} {z : Nat}
    (hs : ∀ v y, y ≠ z → read (step v y) = read v) {l : List Nat} (hn : l.Nodup) (hz : z ∈ l) (w : Vol) :
    ∃ u, read u = read w ∧ read (l.foldl step w) = read (step u z) := by
  have others : ∀ (l : List Nat) (v : Vol), z ∉ l → read (l.foldl step v) = read v := by
    intro l
    induction l with
    | nil => exact fun _ _ => rfl
    | cons y t ih =>
      intro v hl
      rw [List.mem_cons, not_or] at hl
      obtain ⟨hy, ht⟩ := hl
      exact (ih _ ht).trans (hs v y (Ne.symm hy))
  obtain ⟨as, rest, rfl, has⟩ := List.eq_append_cons_of_mem hz
  have hrest : z ∉ rest := (List.nodup_cons.mp (List.nodup_append.mp hn).2.1).1
  refine ⟨as.foldl step w, others as w has, ?_⟩
  rw [List.foldl_append, List.foldl_cons]
  exact others rest _ hrest

/-! ### The staged bases become active (R46) -/

/-- A zone record with the staged bases of a gain record. -/
def withBases (g : Gain) (x : Zone) : Zone :=
  { x with fgBase := g.stagedFg.getD x.fgBase, bgBase := g.stagedBg.getD x.bgBase }

/-- A gain record with nothing staged. -/
def unstaged (g : Gain) : Gain := { g with stagedFg := none, stagedBg := none }

theorem applyStaged_eq (w : Vol) (z : Nat) :
    w.applyStaged z = (w.modZone z (withBases (w.gain z))).setGain z (unstaged (w.gain z)) := rfl

theorem applyStaged_self (w : Vol) {z : Nat} (hz : z < 64) :
    (w.applyStaged z).zone z = withBases (w.gain z) (w.zone z) ∧ (w.applyStaged z).gain z = unstaged (w.gain z) := by
  rw [applyStaged_eq]
  exact ⟨Vol.zone_modZone w _ hz, gain_setGain _ _ hz⟩

theorem applyStaged_other (w : Vol) {y z : Nat} (h : y ≠ z) :
    (w.applyStaged y).zone z = w.zone z ∧ (w.applyStaged y).gain z = w.gain z := by
  rw [applyStaged_eq]
  exact ⟨Vol.zone_modZone_ne w _ h, gain_setGain_ne _ _ h⟩

/-- R46: every zone is stepped once. -/
theorem staged_applied (w : Vol) {z : Nat} (hz : z < 64) :
    ((List.range 64).foldl Vol.applyStaged w).zone z = withBases (w.gain z) (w.zone z)
      ∧ ((List.range 64).foldl Vol.applyStaged w).gain z = unstaged (w.gain z) := by
  have others : ∀ (v : Vol) (y : Nat), y ≠ z →
      ((v.applyStaged y).zone z, (v.applyStaged y).gain z) = (v.zone z, v.gain z) := by
    intro v y h
    obtain ⟨hzone, hgain⟩ := applyStaged_other v h
    rw [hzone, hgain]
  obtain ⟨u, hu, hfold⟩ := foldl_reads_once (fun v => (v.zone z, v.gain z)) others List.nodup_range (List.mem_range.mpr hz) w
  obtain ⟨hzone, hgain⟩ := applyStaged_self u hz
  obtain ⟨huz, hug⟩ := Prod.mk.inj hu
  obtain ⟨hfz, hfg⟩ := Prod.mk.inj hfold
  rw [← huz, ← hug]
  exact ⟨hfz.trans hzone, hfg.trans hgain⟩

/-- Staged bases are no ramp rate. -/
theorem staged_applied_rate (w : Vol) : ((List.range 64).foldl Vol.applyStaged w).rampRate = w.rampRate :=
  foldl_keeps (fun v : Vol => v.rampRate = w.rampRate) _ _ _ rfl fun _ _ h => h

/-! ### The targets and levels (R41, R43, R47, R48) -/

/-- The gain record of a zone after the mixer's step on the part `w`. -/
def movedGain (w : Vol) (z : Nat) : Gain :=
  { w.gain z with
    fgTarget := w.fgTarget z, bgTarget := w.bgTarget z, cut := false
    fgLevel := if ((w.gain z).cut && (w.zone z).holder.isSome) = true then 192
      else ramp w.rampRate (w.gain z).fgLevel (w.fgTarget z)
    bgLevel := ramp w.rampRate (w.gain z).bgLevel (w.bgTarget z) }

theorem moveLevels_eq (w : Vol) (z : Nat) : w.moveLevels z = w.setGain z (movedGain w z) := rfl

/-- The step writes gain records alone. -/
theorem levels_moved_gains (w : Vol) :
    (List.range 64).foldl Vol.moveLevels w = { w with gains := ((List.range 64).foldl Vol.moveLevels w).gains } :=
  foldl_keeps (fun v : Vol => v = { w with gains := v.gains }) _ _ _ rfl fun v z hv => by
    rw [moveLevels_eq]
    exact congrArg (fun u : Vol => { u with gains := tset v.gains z (movedGain v z) }) hv

/-- A zone's record after its step depends on the part less the gain records of the other zones. -/
theorem movedGain_moveLevels (w : Vol) {y z : Nat} (h : y ≠ z) : movedGain (w.moveLevels y) z = movedGain w z := by
  have hgain : (w.moveLevels y).gain z = w.gain z := gain_setGain_ne w _ h
  unfold movedGain
  rw [hgain]
  rfl

/-- Every zone is stepped once. -/
theorem levels_moved (w : Vol) {z : Nat} (hz : z < 64) : ((List.range 64).foldl Vol.moveLevels w).gain z = movedGain w z := by
  obtain ⟨u, hu, hfold⟩ := foldl_reads_once (fun v => (movedGain v z, v.gain z))
    (fun v y h => Prod.ext (movedGain_moveLevels v h) (gain_setGain_ne v _ h)) List.nodup_range (List.mem_range.mpr hz) w
  obtain ⟨hmoved, _⟩ := Prod.mk.inj hu
  obtain ⟨_, hgain⟩ := Prod.mk.inj hfold
  exact hgain.trans ((gain_setGain u _ hz).trans hmoved)

/-! ### What stands after the mixer's step -/

/-- What the rest of a frame leaves of what the mixer works on. -/
structure MixStands (w w' : Vol) : Prop where
  zones : w'.zones = w.zones
  gains : w'.gains = w.gains
  claims : w'.claims = w.claims
  align : w'.align = w.align
  groups : w'.groups = w.groups
  evac : w'.evac = w.evac
  exhausted : w'.exhaustedVoice = w.exhaustedVoice

theorem MixStands.refl (w : Vol) : MixStands w w := ⟨rfl, rfl, rfl, rfl, rfl, rfl, rfl⟩

theorem MixStands.trans {a b c : Vol} (h : MixStands a b) (k : MixStands b c) : MixStands a c :=
  ⟨k.zones.trans h.zones, k.gains.trans h.gains, k.claims.trans h.claims, k.align.trans h.align, k.groups.trans h.groups,
    k.evac.trans h.evac, k.exhausted.trans h.exhausted⟩

theorem MixStands.foldl {β : Type} {f : Vol → β → Vol} {l : List β} {w : Vol} (h : ∀ v b, MixStands v (f v b)) :
    MixStands w (l.foldl f w) := foldl_keeps (MixStands w) f l w (.refl w) fun _ b hv => hv.trans (h _ b)

theorem stepGen_stands (w : Vol) (g : Nat) : MixStands w (w.stepGen g) := ⟨rfl, rfl, rfl, rfl, rfl, rfl, rfl⟩

theorem fclk_stands (w : Vol) (c : FrameClock) : MixStands w { w with fclk := c } := ⟨rfl, rfl, rfl, rfl, rfl, rfl, rfl⟩

theorem modLine_stands (w : Vol) (l : Nat) (f : Line → Line) : MixStands w (w.modLine l f) :=
  ⟨rfl, rfl, rfl, rfl, rfl, rfl, rfl⟩

theorem showLine_stands (w : Vol) (l : Nat) : MixStands w (w.showLine l) := by
  unfold Vol.showLine
  split
  · exact modLine_stands _ _ _
  · exact .refl w

theorem modVoice_stands (w : Vol) (v : Nat) (f : Voice → Voice) (hs : ∀ x, (f x).source = x.source)
    (hc : ∀ x, (f x).claim = x.claim) : MixStands w (w.modVoice v f) :=
  ⟨rfl, rfl, rfl, rfl, rfl, rfl, exhaustedVoice_of_arbitration (arbitration_setVoice _ _ _ (hs _) (hc _))⟩

/-- After the mixer's step a block mark steps the generators, shows the OUTPUT lines and ends. -/
theorem blockMark_stands (w : Vol) (nv : Nonvolatile) (levels : BitVec 16) :
    MixStands (w.markParts nv levels).mixerMark (w.blockMark nv levels) := by
  have outputs : MixStands (w.markParts nv levels).mixerMark (w.atOutputs nv levels) := by
    unfold Vol.atOutputs
    refine .foldl fun v g => ?_
    split
    · exact stepGen_stands v g
    · exact .refl v
  have shown : MixStands (w.markParts nv levels).mixerMark (w.atOutputs nv levels).showLines :=
    outputs.trans (.foldl showLine_stands)
  unfold Vol.blockMark
  generalize (w.atOutputs nv levels).showLines = v at shown
  refine (shown.trans (modVoice_stands v 7 (fun x => { x with newListWaits := false }) ?_ ?_)).trans (fclk_stands _ _)
  · exact fun _ => rfl
  · exact fun _ => rfl

theorem atSamples_stands {w : Vol} (nv : Nonvolatile) (levels : BitVec 16) (h : w.atMark = true) :
    MixStands (w.markParts nv levels).mixerMark (w.atSamples nv levels) := by
  have hmarked := blockMark_stands w nv levels
  unfold Vol.atSamples
  rw [if_pos h]
  generalize w.blockMark nv levels = v at hmarked
  exact hmarked.trans (fclk_stands _ _)

theorem produce_stands (w : Vol) (nv : Nonvolatile) : MixStands w (w.produce nv) := by
  obtain ⟨_, harb, _⟩ := produce_keeps w nv
  have hexhausted := exhaustedVoice_of_arbitration harb
  obtain ⟨voices, e, sent, mixed, hmade, _⟩ := produce_eq w nv
  rw [hmade] at hexhausted ⊢
  exact ⟨rfl, rfl, rfl, rfl, rfl, rfl, hexhausted⟩

/-! ### The frame at a block mark -/

theorem gain_fixed_of_within {w w' : Vol} (h : w.Within w') (z : Nat) : (w'.gain z).fixed = (w.gain z).fixed :=
  gain_fixed_of_betweenMarks (betweenMarks_of_within h) z

theorem align_of_within {w w' : Vol} (h : w.Within w') : w'.align = w.align := (congrArg Vol.align h.fixed :)

theorem groups_of_within {w w' : Vol} (h : w.Within w') : w'.groups = w.groups := (congrArg Vol.groups h.fixed :)

theorem evacState_of_within {w w' : Vol} (h : w.Within w') : w'.evac.state = w.evac.state :=
  (congrArg (fun v : Vol => v.evac.state) h.fixed :)

/-- A frame at a block mark: the mixer's step on the part `w` that the mark hands it, work that leaves the mix, and the end of
the event. -/
theorem takeFrame_atMark {x : FrameInput} {s b : State} {w : Vol} (hr : s.running = true) (hmark : s.vol.atMark = true)
    (hb : b = beforeFrame s x.verdict) (hw : w = b.vol.giveLanes.atLevels b.nv x.levels) :
    ∃ p : Vol, MixStands ((List.range 64).foldl Vol.moveLevels w) p ∧ (takeFrame x s).vol = p.finish b.nv := by
  obtain ⟨hwork, _⟩ := beforeFrame_keeps s x.verdict
  rw [takeFrame_body x s hr]
  rw [← hb] at hwork ⊢
  have hfclk : b.vol.giveLanes.fclk = s.vol.fclk :=
    betweenMarks_fclk ((giveLanes_keeps b.vol).1.trans hwork.between)
  have hmark' : b.vol.giveLanes.atMark = true := by
    rw [← hmark, Vol.atMark, Vol.atMark, hfclk]
  refine ⟨(b.vol.giveLanes.atSamples b.nv x.levels).produce b.nv, ?_, by dsimp only [frameBody]⟩
  rw [hw]
  exact (atSamples_stands b.nv x.levels hmark').trans (produce_stands _ b.nv)

/-- What the mixer's step of a block mark finds of a zone (R46, R48). -/
structure Handed (s : State) (w : Vol) (z : Nat) : Prop where
  fgBase : (w.zone z).fgBase = (s.vol.gain z).stagedFg.getD (s.vol.zone z).fgBase
  bgBase : (w.zone z).bgBase = (s.vol.gain z).stagedBg.getD (s.vol.zone z).bgBase
  stagedFg : (w.gain z).stagedFg = none
  stagedBg : (w.gain z).stagedBg = none
  fgLevel : (w.gain z).fgLevel = (s.vol.gain z).fgLevel
  bgLevel : (w.gain z).bgLevel = (s.vol.gain z).bgLevel
  rate : w.rampRate = s.vol.rampRate
  cut : (s.vol.gain z).cut = true → (w.gain z).cut = true

theorem handed {x : FrameInput} {s b : State} {w : Vol} (hb : b = beforeFrame s x.verdict)
    (hw : w = b.vol.giveLanes.atLevels b.nv x.levels) {z : Nat} (hz : z < 64) : Handed s w z := by
  have hbefore := before_mixer x s
  rw [← hb] at hbefore
  unfold Vol.atLevels at hw
  generalize b.vol.giveLanes.markParts b.nv x.levels = v at hw hbefore
  obtain ⟨hbases, hcut⟩ := hbefore
  have hrate := staged_applied_rate v
  obtain ⟨hzone, hgain⟩ := staged_applied v hz
  rw [← hw] at hrate hzone hgain
  have hstands := hbases.gain z
  have hconfigured := hbases.zone z
  have hfg : (v.gain z).stagedFg = (s.vol.gain z).stagedFg := (congrArg Gain.stagedFg hstands :)
  have hbg : (v.gain z).stagedBg = (s.vol.gain z).stagedBg := (congrArg Gain.stagedBg hstands :)
  have hfgBase : (v.zone z).fgBase = (s.vol.zone z).fgBase := (congrArg Zone.fgBase hconfigured :)
  have hbgBase : (v.zone z).bgBase = (s.vol.zone z).bgBase := (congrArg Zone.bgBase hconfigured :)
  refine ⟨?_, ?_, ?_, ?_, ?_, ?_, hrate.trans hbases.rate, fun h => ?_⟩
  · rw [hzone, withBases, hfg, hfgBase]
  · rw [hzone, withBases, hbg, hbgBase]
  · rw [hgain, unstaged]
  · rw [hgain, unstaged]
  · rw [hgain]
    exact (congrArg Gain.fgLevel hstands :)
  · rw [hgain]
    exact (congrArg Gain.bgLevel hstands :)
  · rw [hgain]
    exact hcut z h

/-- What a frame at a block mark leaves of the part that the mixer's step finds. -/
structure Mixed (w t : Vol) : Prop where
  zones : ∀ z, (w.zone z).fixed = (t.zone z).fixed
  align : w.align = t.align
  groups : w.groups = t.groups
  evac : w.evac.state = t.evac.state
  gain : ∀ z < 64, (t.gain z).fixed = (movedGain w z).fixed
  quiet : w.exhaustedVoice = none →
    w.claims = t.claims ∧ (∀ z, (w.zone z).holder = (t.zone z).holder) ∧ ∀ z < 64, t.gain z = movedGain w z

/-- Without an EXHAUSTED report the end of the event leaves claims, zones and gain records. -/
theorem finish_mix_quiet {p : Vol} (nv : Nonvolatile) (h : p.exhaustedVoice = none) :
    (p.finish nv).claims = p.claims ∧ (p.finish nv).zones = p.zones ∧ (p.finish nv).gains = p.gains := by
  have harb := arbitration_finish nv h
  generalize p.finish nv = t at harb
  exact ⟨(congrArg Vol.claims harb :), (congrArg Vol.zones harb :), gains_of_arbitration harb⟩

/-- The mixer's step changes gain records alone, and neither the rest of the frame nor the end of the event changes what it
wrote but for a cut that becomes pending. -/
theorem mixed_of_stands {w p : Vol} (nv : Nonvolatile) (h : MixStands ((List.range 64).foldl Vol.moveLevels w) p) :
    Mixed w (p.finish nv) := by
  have hmoved := fun z (hz : z < 64) => levels_moved w hz
  rw [levels_moved_gains w] at h hmoved
  generalize ((List.range 64).foldl Vol.moveLevels w).gains = gains at h hmoved
  have hzone : ∀ z, p.zone z = w.zone z := fun z => by rw [Vol.zone, h.zones, Vol.zone]
  have hgain : ∀ z < 64, p.gain z = movedGain w z := fun z hz => by
    rw [← hmoved z hz, Vol.gain, h.gains, Vol.gain]
  have hexhausted : p.exhaustedVoice = w.exhaustedVoice := h.exhausted
  have hends := finish_within p nv
  have hquiet := fun hq => finish_mix_quiet (p := p) nv hq
  generalize p.finish nv = t at *
  refine ⟨fun z => ?_, ?_, ?_, ?_, fun z hz => ?_, fun hq => ?_⟩
  · rw [zone_fixed_of_within hends, hzone]
  · rw [align_of_within hends, h.align]
  · rw [groups_of_within hends, h.groups]
  · rw [evacState_of_within hends, h.evac]
  · rw [gain_fixed_of_within hends, hgain z hz]
  · obtain ⟨hclaims, hzones, hgains⟩ := hquiet (hexhausted.trans hq)
    refine ⟨?_, fun z => ?_, fun z hz => ?_⟩
    · rw [hclaims, h.claims]
    · rw [← hzone, Vol.zone, Vol.zone, hzones]
    · rw [← hgain z hz, Vol.gain, Vol.gain, hgains]

/-- R48: the holder cut. -/
theorem movedGain_fgLevel_cut {w : Vol} {z : Nat} (hc : (w.gain z).cut = true) (hh : (w.zone z).holder.isSome = true) :
    (movedGain w z).fgLevel = 192 := by
  simp [movedGain, hc, hh]

theorem movedGain_fgLevel_ramp {w : Vol} {z : Nat} (h : (w.gain z).cut = false ∨ (w.zone z).holder = none) :
    (movedGain w z).fgLevel = ramp w.rampRate (w.gain z).fgLevel (w.fgTarget z) := by
  rcases h with h | h
  · simp [movedGain, h]
  · simp [movedGain, h]

theorem markMovesLevels : MarkMovesLevels := by
  intro x s b w hr hmark hb hw
  obtain ⟨p, hstands, ht⟩ := takeFrame_atMark hr hmark hb hw
  have hmixed := mixed_of_stands b.nv hstands
  rw [← ht] at hmixed
  refine ⟨hw, _, exec_frameClockFrame x s, fun z _ => hmixed.zones z, hmixed.align, hmixed.groups, hmixed.evac, fun hq => ?_,
    fun z hz => ?_⟩
  · obtain ⟨hclaims, hholder, _⟩ := hmixed.quiet hq
    exact ⟨hclaims, fun z _ => hholder z⟩
  · have hh := handed hb hw hz
    have hgain := hmixed.gain z hz
    have hfgLevel : ((takeFrame x s).vol.gain z).fgLevel = (movedGain w z).fgLevel := (congrArg Gain.fgLevel hgain :)
    refine ⟨hh.fgBase, hh.bgBase, (congrArg Gain.stagedFg hgain :).trans hh.stagedFg,
      (congrArg Gain.stagedBg hgain :).trans hh.stagedBg, (congrArg Gain.fgTarget hgain :), (congrArg Gain.bgTarget hgain :),
      ?_, hh.cut, fun hc hheld => ?_, fun hc => ?_, fun hq => ?_⟩
    · rw [← hh.rate, ← hh.bgLevel]
      exact (congrArg Gain.bgLevel hgain :)
    · rw [hfgLevel, movedGain_fgLevel_cut hc hheld]
    · rw [hfgLevel, movedGain_fgLevel_ramp hc, hh.rate, hh.fgLevel]
    · obtain ⟨_, _, hmoved⟩ := hmixed.quiet hq
      rw [hmoved z hz]
      rfl

/-- Settles O43. -/
theorem levelsRamp : Obligations.LevelsRamp := ⟨markMovesLevels, levelsStandBetweenMarks, targetsComputed, rampSteps⟩

end Sys2Proof.Mixer
end

section
/-! PROOFS. The call table, the platforms and the due list (Chapter 4): what an update of one leaves of the others, what the
steps at the end of a transition can change, and the due entries (R59, R79). -/

namespace Sys2Proof.Calls

open Sys2Proof.Machine Sys2Proof.Laws Sys2Proof.Statements
open Sys2Proof.Zones (mem_insertBy sortBy_perm)
open Sys2Proof.Live (declines_of_act answers_of_act)

/-! ### Reading calls and platforms -/

theorem lt_of_call {w : Vol} {c : Nat} {x : Call} (h : w.call c = some x) : c < 256 := by
  by_contra hc
  simp [Vol.call, tget_of_ge _ _ (Nat.not_lt.mp hc)] at h

theorem call_setCall_ne (w : Vol) {c d : Nat} (x : Option Call) (h : d ≠ c) : (w.setCall c x).call d = w.call d :=
  tget_tset_ne _ _ _ h.symm

theorem call_setCall_of {w : Vol} {c : Nat} {y : Call} (h : w.call c = some y) (x : Option Call) :
    (w.setCall c x).call c = x := Vol.call_setCall w x (lt_of_call h)

/-- An empty slot stays empty, whether it is one of the table's or not. -/
@[simp] theorem call_setCall_none (w : Vol) (c : Nat) : (w.setCall c none).call c = none := by
  by_cases hc : c < 256
  · exact Vol.call_setCall w none hc
  · exact tget_of_ge _ _ (Nat.not_lt.mp hc)

theorem modCall_of {w : Vol} {c : Nat} {x : Call} (h : w.call c = some x) (f : Call → Call) :
    w.modCall c f = w.setCall c (some (f x)) := by
  simp [Vol.modCall, h]

@[simp] theorem call_setPlatform (w : Vol) (p : Nat) (x : Platform) (c : Nat) : (w.setPlatform p x).call c = w.call c := rfl
@[simp] theorem platform_setCall (w : Vol) (c : Nat) (x : Option Call) (p : Nat) :
    (w.setCall c x).platform p = w.platform p := rfl
theorem due_setCall (w : Vol) (c : Nat) (x : Option Call) : (w.setCall c x).due = w.due := rfl
@[simp] theorem call_dropDue (w : Vol) (slot c : Nat) : (w.dropDue slot).call c = w.call c := rfl

theorem platform_setPlatform (w : Vol) {p : Nat} (x : Platform) (h1 : 1 ≤ p) (h32 : p ≤ 32) :
    (w.setPlatform p x).platform p = x := tget_tset_self _ _ _ (by omega)

theorem platform_setPlatform_ne (w : Vol) {p q : Nat} (x : Platform) (hp : 1 ≤ p) (hq : 1 ≤ q) (h : q ≠ p) :
    (w.setPlatform p x).platform q = w.platform q := tget_tset_ne _ _ _ (by omega)

theorem call_congr {w w' : Vol} (h : w'.calls = w.calls) (c : Nat) : w'.call c = w.call c := by
  rw [Vol.call, h, Vol.call]

theorem platform_congr {w w' : Vol} (h : w'.platforms = w.platforms) (p : Nat) : w'.platform p = w.platform p := by
  rw [Vol.platform, h, Vol.platform]

/-! ### Ordered insertion -/

/-- An insertion into a list in order keeps the order, where the new element and each old one stand one before the other. -/
theorem pairwise_insertBy {α : Type} {lt : α → α → Bool} (trans : ∀ a b c, lt a b = true → lt b c = true → lt a c = true)
    {x : α} {l : List α} (hl : l.Pairwise fun a b => lt a b = true) (total : ∀ y ∈ l, lt x y = false → lt y x = true) :
    (insertBy lt x l).Pairwise fun a b => lt a b = true := by
  induction l with
  | nil => simp [insertBy]
  | cons y t ih =>
    obtain ⟨hy, ht⟩ := List.pairwise_cons.mp hl
    unfold insertBy
    split
    · next hxy =>
      refine List.pairwise_cons.mpr ⟨fun z hz => ?_, hl⟩
      rcases List.mem_cons.mp hz with rfl | hz
      · exact hxy
      · exact trans x y z hxy (hy z hz)
    · next hxy =>
      have hyx := total y List.mem_cons_self (Bool.eq_false_iff.mpr hxy)
      refine List.pairwise_cons.mpr ⟨fun z hz => ?_, ih ht fun z hz => total z (List.mem_cons_of_mem _ hz)⟩
      rcases (mem_insertBy _ _ _ _).mp hz with rfl | hz
      · exact hyx
      · exact hy z hz

/-- The sort of different elements by an order that stands between any two of them. -/
theorem pairwise_sortBy {α : Type} {lt : α → α → Bool} (trans : ∀ a b c, lt a b = true → lt b c = true → lt a c = true)
    (total : ∀ a b, a ≠ b → lt a b = false → lt b a = true) {l : List α} (hn : l.Nodup) :
    (sortBy lt l).Pairwise fun a b => lt a b = true := by
  induction l with
  | nil => exact .nil
  | cons x t ih =>
    obtain ⟨hx, ht⟩ := List.nodup_cons.mp hn
    refine pairwise_insertBy trans (ih ht) fun y hy => total x y ?_
    rintro rfl
    exact hx ((sortBy_perm lt t).mem_iff.mp hy)

/-! ### What the request queue leaves of the timetable -/

/-- `w'` has the calls, the platforms, the due list and the station clock of `w`. -/
structure KeepsCalls (w w' : Vol) : Prop where
  calls : w'.calls = w.calls
  platforms : w'.platforms = w.platforms
  due : w'.due = w.due
  clock : w'.clock = w.clock

theorem KeepsCalls.trans {a b c : Vol} (h : KeepsCalls a b) (k : KeepsCalls b c) : KeepsCalls a c :=
  ⟨k.calls.trans h.calls, k.platforms.trans h.platforms, k.due.trans h.due, k.clock.trans h.clock⟩

theorem keepsCalls_of_within {w w' : Vol} (h : w.Within w') : KeepsCalls w w' :=
  have calls := congrArg (fun v : Vol => v.calls) h.fixed
  have platforms := congrArg (fun v : Vol => v.platforms) h.fixed
  have due := congrArg (fun v : Vol => v.due) h.fixed
  have clock := congrArg (fun v : Vol => v.clock) h.fixed
  ⟨calls, platforms, due, clock⟩

theorem modEngine_keepsCalls (w : Vol) (f : Engine → Engine) : KeepsCalls w (w.modEngine f) := ⟨rfl, rfl, rfl, rfl⟩

theorem createRequest_keepsCalls (w : Vol) (nv : Nonvolatile) (r : Request) : KeepsCalls w (w.createRequest nv r).2 := by
  unfold Vol.createRequest
  dsimp only
  have h0 := replaceMoment_within w r
  generalize w.replaceMoment r = w0 at h0
  split
  · next w1 h =>
    exact keepsCalls_of_within
      (h0.trans ((makeRoom_within h).trans ((numberRequest_within w1 r).trans (enterQueue_within _ _ _))))
  · have dropped := endNotice_within (w0.numberRequest r).2 (w0.numberRequest r).1 .dropped
    refine (keepsCalls_of_within ((h0.trans (numberRequest_within w0 r)).trans dropped)).trans ?_
    exact (modEngine_keepsCalls _ _).trans (keepsCalls_of_within (handOut_within _ _))

theorem notify_keepsCalls (w : Vol) (n : Notice) : KeepsCalls w (w.notify n) := keepsCalls_of_within (notify_within w n)

theorem supersede_keepsCalls (w : Vol) (nv : Nonvolatile) (c : Nat) (k : Option Trigger) (m : FinishMark) :
    KeepsCalls w (w.supersede nv c k m) := keepsCalls_of_within (supersede_within w nv c k m)

theorem revoice_keepsCalls (w : Vol) (nv : Nonvolatile) (c : Nat) : KeepsCalls w (w.revoice nv c) :=
  keepsCalls_of_within ((Vol.Within.foldl _ _ _ fun _ _ => returnToReady_within _ _).trans (handOut_within _ _))

/-! ### What a call's trigger, notice and due entry can change -/

/-- What the steps behind a call's change can do to the timetable: the call's announced flag and its due entry. -/
structure OfCall (slot : Nat) (w w' : Vol) : Prop where
  platforms : w'.platforms = w.platforms
  clock : w'.clock = w.clock
  others : ∀ s, s ≠ slot → w'.call s = w.call s
  own : ∀ c, w.call slot = some c → ∃ b, w'.call slot = some { c with announced := b }
  due : ∀ e ∈ w'.due, e ∈ w.due ∨ e.slot = slot

theorem OfCall.trans {slot : Nat} {a b c : Vol} (h : OfCall slot a b) (k : OfCall slot b c) : OfCall slot a c where
  platforms := k.platforms.trans h.platforms
  clock := k.clock.trans h.clock
  others s hs := (k.others s hs).trans (h.others s hs)
  own x hx := by
    obtain ⟨a, ha⟩ := h.own x hx
    exact k.own { x with announced := a } ha
  due e he := (k.due e he).elim (h.due e) .inr

theorem KeepsCalls.ofCall {w w' : Vol} (h : KeepsCalls w w') (slot : Nat) : OfCall slot w w' where
  platforms := h.platforms
  clock := h.clock
  others s _ := call_congr h.calls s
  own c hc := ⟨c.announced, (call_congr h.calls slot).trans hc⟩
  due _ he := .inl (h.due ▸ he)

theorem announced_ofCall (w : Vol) (slot : Nat) : OfCall slot w (w.modCall slot fun c => { c with announced := true }) where
  platforms := rfl
  clock := rfl
  others s hs := call_setCall_ne w _ hs
  own c hc := ⟨true, by rw [modCall_of hc, call_setCall_of hc]⟩
  due _ he := .inl he

/-! ### Due entries (R59, R79) -/

/-- The due time of the call of a slot, if the slot holds a call that has one. -/
def dueOf (w : Vol) (slot : Nat) : Option Nat := (w.call slot).bind fun c => c.dueTime (w.profile c.profile)

/-- The list with a slot's entry, if it has one, in its place. -/
def withEntry (slot : Nat) (l : List DueEntry) : Option Nat → List DueEntry
  | none => l
  | some t => insertBy DueEntry.before { time := t, slot := slot } l

/-- The new due entry of a call enters the list without its old one; nothing else changes. -/
theorem remakeDue_eq (w : Vol) (slot : Nat) :
    w.remakeDue slot = { w with due := withEntry slot (w.dropDue slot).due (dueOf w slot) } := by
  have hp : ∀ n, (w.dropDue slot).profile n = w.profile n := fun _ => rfl
  cases hc : w.call slot with
  | none => simp only [Vol.remakeDue, call_dropDue, hc, dueOf, Option.bind_none, withEntry]; rfl
  | some c =>
    simp only [Vol.remakeDue, call_dropDue, hc, hp, dueOf, Option.bind_some]
    cases c.dueTime (w.profile c.profile) <;> rfl

theorem dueOf_eq_some_iff (w : Vol) (slot t : Nat) :
    dueOf w slot = some t ↔ ∃ c, w.call slot = some c ∧ c.dueTime (w.profile c.profile) = some t :=
  Option.bind_eq_some_iff

theorem mem_withEntry (slot : Nat) (l : List DueEntry) (o : Option Nat) (e : DueEntry) :
    e ∈ withEntry slot l o ↔ e ∈ l ∨ (e.slot = slot ∧ o = some e.time) := by
  cases o with
  | none => simp [withEntry]
  | some t =>
    obtain ⟨time, s⟩ := e
    simp only [withEntry, mem_insertBy, DueEntry.mk.injEq, Option.some.injEq]
    rw [or_comm, and_comm, eq_comm (a := t)]

theorem mem_dropDue (w : Vol) (slot : Nat) (e : DueEntry) : e ∈ (w.dropDue slot).due ↔ e ∈ w.due ∧ e.slot ≠ slot := by
  simp [Vol.dropDue]

theorem mem_remakeDue (w : Vol) (slot : Nat) (e : DueEntry) : e ∈ (w.remakeDue slot).due ↔
    (e ∈ w.due ∧ e.slot ≠ slot)
      ∨ (e.slot = slot ∧ ∃ c, w.call slot = some c ∧ c.dueTime (w.profile c.profile) = some e.time) := by
  rw [remakeDue_eq, mem_withEntry, mem_dropDue, dueOf_eq_some_iff]

@[simp] theorem remakeDue_calls (w : Vol) (slot : Nat) : (w.remakeDue slot).calls = w.calls := by rw [remakeDue_eq]
@[simp] theorem remakeDue_platforms (w : Vol) (slot : Nat) : (w.remakeDue slot).platforms = w.platforms := by
  rw [remakeDue_eq]

theorem remakeDue_ofCall (w : Vol) (slot : Nat) : OfCall slot w (w.remakeDue slot) := by
  have hd := fun e => (mem_remakeDue w slot e).mp
  rw [remakeDue_eq] at hd ⊢
  refine ⟨rfl, rfl, fun _ _ => rfl, fun c hc => ⟨c.announced, hc⟩, fun e he => ?_⟩
  exact (hd e he).imp And.left And.left

theorem fireTrigger_ofCall (w : Vol) (nv : Nonvolatile) (slot : Nat) (k : Trigger) (stale : Bool) :
    OfCall slot w (w.fireTrigger nv slot k stale).2 := by
  have stands : OfCall slot w w := KeepsCalls.ofCall ⟨rfl, rfl, rfl, rfl⟩ slot
  unfold Vol.fireTrigger
  split
  · exact stands
  · split
    · exact stands
    · next n _ =>
      split
      · exact stands
      · split
        · exact (notify_keepsCalls _ _).ofCall slot
        · next x _ =>
          have created := createRequest_keepsCalls w nv { w.requestFrom x n .timetable with call := some (slot, k) }
          split
          · next h =>
            rw [h] at created
            exact (created.ofCall slot).trans (announced_ofCall _ slot)
          · next h =>
            rw [h] at created
            exact created.ofCall slot

theorem callNotice_keepsCalls (w : Vol) (slot : Nat) (k : Option Trigger) (stale made : Bool) :
    KeepsCalls w (w.callNotice slot k stale made) := by
  unfold Vol.callNotice
  split
  · exact ⟨rfl, rfl, rfl, rfl⟩
  · exact notify_keepsCalls _ _

theorem endTransition_ofCall (w : Vol) (nv : Nonvolatile) (slot : Nat) (k : Option Trigger) (stale : Bool) :
    OfCall slot w (w.endTransition nv slot k stale) := by
  cases k with
  | none => exact ((callNotice_keepsCalls w slot none stale false).ofCall slot).trans (remakeDue_ofCall _ slot)
  | some k =>
    exact (fireTrigger_ofCall w nv slot k stale).trans
      (((callNotice_keepsCalls _ slot (some k) stale _).ofCall slot).trans (remakeDue_ofCall _ slot))

theorem fireAndNotify_ofCall (w : Vol) (nv : Nonvolatile) (slot : Nat) (k : Trigger) :
    OfCall slot w (w.fireAndNotify nv slot k) :=
  (fireTrigger_ofCall w nv slot k false).trans ((callNotice_keepsCalls _ slot (some k) false _).ofCall slot)

theorem dueEntry_before_iff (a b : DueEntry) : a.before b = true ↔ DueBefore a b := by
  simp [DueEntry.before, DueBefore]

theorem withEntry_pairwise {slot : Nat} {l : List DueEntry} (o : Option Nat) (hl : l.Pairwise DueBefore)
    (hs : ∀ d ∈ l, d.slot ≠ slot) : (withEntry slot l o).Pairwise DueBefore := by
  cases o with
  | none => exact hl
  | some t =>
    have sorted := pairwise_insertBy (lt := DueEntry.before) (x := ⟨t, slot⟩) (l := l)
    simp only [dueEntry_before_iff, ← Bool.not_eq_true, DueBefore] at sorted
    refine sorted (fun a b c => by omega) hl fun d hd => ?_
    have := hs d hd
    omega

theorem dueListKept : DueListKept := by
  intro w slot
  refine ⟨mem_remakeDue w slot, by rw [remakeDue_eq], fun hl => ?_⟩
  rw [remakeDue_eq]
  exact withEntry_pairwise _ (hl.filter _) fun d hd => ((mem_dropDue w slot d).mp hd).2

end Sys2Proof.Calls
end

section
/-! PROOFS. The transitions of a call (R60 to R69): the steps of each, and the offer of a platform (R64). -/

namespace Sys2Proof.Calls

open Sys2Proof.Machine Sys2Proof.Laws Sys2Proof.Statements
open Sys2Proof.Zones (sortBy_perm)

/-! ### Triggers, withdrawals, notices (R66 to R70, R96) -/

theorem triggerFires : TriggerFires := by
  refine ⟨fun w nv slot c k stale hc => ⟨fun hoff => ?_, fun n hn hs he => ⟨fun ht => ?_, ?_⟩⟩, fun _ _ => rfl, rfl⟩
  · unfold Vol.fireTrigger
    simp only [hc]
    cases ht : (w.profile c.profile).templateFor k with
    | none => rfl
    | some n => exact if_pos (by simpa [ht] using hoff)
  · simp [Vol.fireTrigger, hc, hn, hs, he, ht]
  · rintro x r made w1 hx rfl hr
    have created : w.createRequest nv { w.requestFrom x n .timetable with call := some (slot, k) } = (made, w1) := hr
    refine ⟨fun hm => ?_, fun hm => ?_⟩
    · obtain ⟨m, rfl⟩ := Option.ne_none_iff_exists'.mp hm
      simp [Vol.fireTrigger, hc, hn, hs, he, hx, created]
    · simp [Vol.fireTrigger, hc, hn, hs, he, hx, created, hm]

/-- A request names a call and a trigger kind, in two readings. -/
theorem callRequestsWithdrawn : CallRequestsWithdrawn := by
  intro w nv slot k m
  unfold Vol.supersede Vol.withdrawRequests
  congr 2
  refine List.filter_congr fun r _ => ?_
  rcases r.call with _ | ⟨s, t⟩
  · simp
  · cases k <;> simp

theorem callStateMarks : CallStateMarks := by
  intro w slot c t stale made hc
  refine ⟨(t.isSome || stale) && decide (w.evac.state = .evacuate), by rw [Vol.callNotice, hc], ?_⟩
  simp [Option.isSome_iff_ne_none, and_comm]

theorem endTransition_fires {w w1 : Vol} {nv : Nonvolatile} {slot : Nat} {k : Trigger} {stale made : Bool}
    (h : w.fireTrigger nv slot k stale = (made, w1)) :
    w.endTransition nv slot (some k) stale = (w1.callNotice slot (some k) stale made).remakeDue slot := by
  simp only [Vol.endTransition, h]

/-! ### The steps of the transitions (R60 to R62) -/

section

variable {w : Vol} {slot : Nat} {c : Call} (nv : Nonvolatile) (p : Nat) (stale : Bool)

theorem enterApproaching_eq (hc : w.call slot = some c) : w.enterApproaching nv slot stale =
    (w.setCall slot (some { c with state := .approaching })).endTransition nv slot (some .approach) stale := by
  rw [Vol.enterApproaching, modCall_of hc]

theorem enterFinal_eq (hc : w.call slot = some c) : w.enterFinal nv slot stale =
    ((w.setCall slot (some { c with state := .final })).supersede nv slot (some .boarding) .superseded).endTransition nv slot
      (some .final) stale := by
  rw [Vol.enterFinal, modCall_of hc]

theorem enterPlatform_boarding (hc : w.call slot = some c) : w.enterPlatform nv slot p .boarding stale =
    ((w.setPlatform p { w.platform p with occupant := some slot }).setCall slot
      (some { c with state := .boarding, held := none })).endTransition nv slot (some .boarding) stale := by
  have hc1 : (w.modPlatform p fun x => { x with occupant := some slot }).call slot = some c := hc
  rw [Vol.enterPlatform, modCall_of hc1]
  rfl

theorem enterPlatform_atPlatform (hc : w.call slot = some c) : w.enterPlatform nv slot p .atPlatform stale =
    (((w.setPlatform p { w.platform p with occupant := some slot }).setCall slot
      (some { c with state := .atPlatform, held := none, arrival := some w.clock.time })).supersede nv slot (some .approach)
        .superseded).endTransition nv slot (some .arrived) stale := by
  have hc1 : (w.modPlatform p fun x => { x with occupant := some slot }).call slot = some c := hc
  rw [Vol.enterPlatform, modCall_of hc1]
  rfl

/-! ### A platform is freed (R62, R77, R78) -/

/-- Platform `p` has no occupant any more. -/
def vacate (w : Vol) (p : Nat) : Vol := w.setPlatform p { w.platform p with occupant := none }

@[simp] theorem call_vacate (w : Vol) (p c : Nat) : (vacate w p).call c = w.call c := rfl
@[simp] theorem due_vacate (w : Vol) (p : Nat) : (vacate w p).due = w.due := rfl

/-- The call of `slot` is GONE at the station time. -/
def gone (w : Vol) (slot : Nat) (c : Call) : Vol :=
  w.setCall slot (some { c with state := .gone, gone := some w.clock.time })

theorem freePlatform_occupied {q : Nat} (hp : (w.call slot).bind (·.platform) = some q)
    (ho : (w.platform q).occupant = some slot) :
    w.freePlatform slot = (some q, vacate w q) := by
  simp only [Vol.freePlatform, hp, ho, if_true]
  rfl

theorem freePlatform_other (h : ∀ q, (w.call slot).bind (·.platform) = some q → (w.platform q).occupant ≠ some slot) :
    w.freePlatform slot = (none, w) := by
  unfold Vol.freePlatform
  split
  · next q hq => exact if_neg (h q hq)
  · rfl

theorem enterGone_occupied (hc : w.call slot = some c) {q : Nat} (hp : c.platform = some q)
    (ho : (w.platform q).occupant = some slot) : w.enterGone nv slot stale =
      (((vacate (gone w slot c) q).supersede nv slot none .superseded).endTransition nv slot none stale).offerPlatform
        nv q := by
  rw [Vol.enterGone, modCall_of hc, freePlatform_occupied (q := q)]
  · rfl
  · rw [call_setCall_of hc]
    exact hp
  · exact ho

theorem enterGone_other (hc : w.call slot = some c)
    (ho : ∀ q, c.platform = some q → (w.platform q).occupant ≠ some slot) : w.enterGone nv slot stale =
      ((gone w slot c).supersede nv slot none .superseded).endTransition nv slot none stale := by
  rw [Vol.enterGone, modCall_of hc, freePlatform_other]
  · rfl
  · rw [call_setCall_of hc]
    exact ho

end

theorem transitionsRun : TransitionsRun := by
  rintro w nv slot c stale hc
  refine ⟨enterApproaching_eq nv stale hc, enterFinal_eq nv stale hc, fun p => enterPlatform_boarding nv p stale hc,
    fun p => enterPlatform_atPlatform nv p stale hc, ?_, fun k made w1 h => endTransition_fires h, rfl⟩
  rintro w1 rfl
  exact ⟨fun p hp ho => enterGone_occupied nv stale hc hp ho, fun ho => enterGone_other nv stale hc ho⟩

/-! ### What a transition makes of its call and its platform -/

/-- The call that enters its platform at the time `t`. -/
def entered (c : Call) (h : HeldTransition) (t : Nat) : Call :=
  { c with state := h.target, held := none, arrival := if h = .atPlatform then some t else c.arrival }

/-- The call of `slot` is the occupant of `p`, before the steps that end its transition. -/
def onPlatform (w : Vol) (slot p : Nat) (c : Call) (h : HeldTransition) : Vol :=
  (w.setPlatform p { w.platform p with occupant := some slot }).setCall slot (some (entered c h w.clock.time))

theorem enterPlatform_ofCall {w : Vol} {slot : Nat} {c : Call} (nv : Nonvolatile) (p : Nat) (h : HeldTransition)
    (stale : Bool) (hc : w.call slot = some c) :
    OfCall slot (onPlatform w slot p c h) (w.enterPlatform nv slot p h stale) := by
  cases h with
  | boarding =>
    rw [enterPlatform_boarding nv p stale hc]
    exact endTransition_ofCall _ _ _ _ _
  | atPlatform =>
    rw [enterPlatform_atPlatform nv p stale hc]
    exact ((supersede_keepsCalls _ _ _ _ _).ofCall slot).trans (endTransition_ofCall _ _ _ _ _)

/-- The call after its transition onto a platform. -/
theorem enterPlatform_call {w : Vol} {slot : Nat} {c : Call} (nv : Nonvolatile) (p : Nat) (h : HeldTransition)
    (stale : Bool) (hc : w.call slot = some c) :
    ∃ b, (w.enterPlatform nv slot p h stale).call slot = some { entered c h w.clock.time with announced := b } :=
  (enterPlatform_ofCall nv p h stale hc).own _ (call_setCall_of (w := w.setPlatform p _) hc _)

theorem enterPlatform_occupant {w : Vol} {slot p : Nat} {c : Call} (nv : Nonvolatile) (h : HeldTransition) (stale : Bool)
    (hc : w.call slot = some c) (h1 : 1 ≤ p) (h32 : p ≤ 32) :
    ((w.enterPlatform nv slot p h stale).platform p).occupant = some slot := by
  rw [platform_congr (enterPlatform_ofCall nv p h stale hc).platforms, onPlatform, platform_setCall,
    platform_setPlatform _ _ h1 h32]

/-! ### What a hold makes of its call and its platform (R63) -/

theorem holdCall_calls (w : Vol) (slot p o : Nat) (h : HeldTransition) :
    (w.holdCall slot p o h).calls = (w.modCall slot fun c => { c with held := some (h, w.clock.time) }).calls := by
  simp [Vol.holdCall]

theorem holdCall_platforms (w : Vol) (slot p o : Nat) (h : HeldTransition) :
    (w.holdCall slot p o h).platforms = (w.modPlatform p fun x => { x with conflict := true }).platforms := by
  simp [Vol.holdCall]
  rfl

theorem holdCall_call {w : Vol} {slot : Nat} {c : Call} (hc : w.call slot = some c) (p o : Nat) (h : HeldTransition) :
    (w.holdCall slot p o h).call slot = some { c with held := some (h, w.clock.time) } := by
  rw [call_congr (holdCall_calls w slot p o h), modCall_of hc, call_setCall_of hc]

theorem holdCall_platform (w : Vol) (slot o : Nat) (h : HeldTransition) {p : Nat} (h1 : 1 ≤ p) (h32 : p ≤ 32) :
    (w.holdCall slot p o h).platform p = { w.platform p with conflict := true } := by
  rw [platform_congr (holdCall_platforms w slot p o h), Vol.modPlatform, platform_setPlatform _ _ h1 h32]

theorem callHeld : CallHeld := by
  intro w slot p o h c d hc hd
  have service : ∀ {s : Nat} {x : Call}, w.call s = some x →
      (((w.setCall slot (some { c with held := some (h, w.clock.time) })).setPlatform p
        { w.platform p with conflict := true }).call s).elim 0 (·.service) = x.service := by
    intro s x hx
    rw [call_setPlatform]
    by_cases hs : s = slot
    · subst hs
      obtain rfl : c = x := Option.some.inj (hc.symm.trans hx)
      rw [call_setCall_of hc]
      rfl
    · rw [call_setCall_ne _ _ hs, hx]
      rfl
  rw [Vol.holdCall, modCall_of hc]
  simp only [Vol.modPlatform, platform_setCall, service hc, service hd]

/-! ### A platform is tried (R60, R61, R63) -/

theorem tryPlatform_none {w : Vol} {slot : Nat} {c : Call} (nv : Nonvolatile) (h : HeldTransition) (stale : Bool)
    (hc : w.call slot = some c) (hp : c.platform = none) : w.tryPlatform nv slot h stale = w.remakeDue slot := by
  simp [Vol.tryPlatform, hc, hp]

theorem tryPlatform_free {w : Vol} {slot p : Nat} {c : Call} (nv : Nonvolatile) (h : HeldTransition) (stale : Bool)
    (hc : w.call slot = some c) (hp : c.platform = some p) (ho : (w.platform p).occupant = none) :
    w.tryPlatform nv slot h stale = w.enterPlatform nv slot p h stale := by
  simp [Vol.tryPlatform, hc, hp, ho]

theorem tryPlatform_occupied {w : Vol} {slot p o : Nat} {c : Call} (nv : Nonvolatile) (h : HeldTransition) (stale : Bool)
    (hc : w.call slot = some c) (hp : c.platform = some p) (ho : (w.platform p).occupant = some o) :
    w.tryPlatform nv slot h stale = w.holdCall slot p o h := by
  simp [Vol.tryPlatform, hc, hp, ho]

/-! ### The calls held on a platform (R64) -/

/-- The time since which a call is held. -/
def heldSince (w : Vol) (s : Nat) : Nat := ((w.call s).bind (·.held)).elim 0 (·.2)

/-- The order of the calls held on a platform: the earliest held, then the lowest slot. -/
def heldBefore (w : Vol) (a b : Nat) : Bool :=
  decide (heldSince w a < heldSince w b) || (decide (heldSince w a = heldSince w b) && decide (a < b))

theorem heldBefore_iff (w : Vol) (a b : Nat) : heldBefore w a b = true ↔
    heldSince w a < heldSince w b ∨ (heldSince w a = heldSince w b ∧ a < b) := by
  simp [heldBefore]

theorem heldSince_of_heldOn {w : Vol} {p s since : Nat} {k : HeldTransition} (h : HeldOn w p s k since) :
    heldSince w s = since := by
  obtain ⟨c, hc, -, hh⟩ := h
  simp [heldSince, hc, hh]

theorem mem_heldOn (w : Vol) (p s : Nat) : s ∈ w.heldOn p ↔ ∃ k since, HeldOn w p s k since := by
  unfold Vol.heldOn
  rw [(sortBy_perm _ _).mem_iff, List.mem_filter, List.mem_range]
  cases hc : w.call s with
  | none => simp [HeldOn, hc]
  | some c =>
    simp only [lt_of_call hc, true_and, Bool.and_eq_true, decide_eq_true_eq, Option.isSome_iff_exists, HeldOn, hc,
      Option.some.injEq, exists_eq_left', Prod.exists]
    constructor
    · rintro ⟨⟨k, since, hh⟩, hp⟩
      exact ⟨k, since, hp, hh⟩
    · rintro ⟨k, since, hp, hh⟩
      exact ⟨⟨k, since, hh⟩, hp⟩

theorem heldOn_pairwise (w : Vol) (p : Nat) : (w.heldOn p).Pairwise fun a b => heldBefore w a b = true := by
  refine pairwise_sortBy (lt := heldBefore w) ?_ ?_ (List.nodup_range.filter _)
  · intro a b c hab hbc
    rw [heldBefore_iff] at hab hbc ⊢
    omega
  · intro a b hne hab
    rw [← Bool.not_eq_true, heldBefore_iff] at hab
    rw [heldBefore_iff]
    omega

/-- The call that has been held longest, among equals the lowest slot, stands first. -/
theorem heldOn_first {w : Vol} {p s since : Nat} {k : HeldTransition} (h : HeldOn w p s k since)
    (least : ∀ s' k' since', HeldOn w p s' k' since' → since < since' ∨ (since = since' ∧ s ≤ s')) :
    ∃ rest, w.heldOn p = s :: rest := by
  have hs := (mem_heldOn w p s).mpr ⟨k, since, h⟩
  have sorted := heldOn_pairwise w p
  rcases hl : w.heldOn p with _ | ⟨a, rest⟩
  · simp [hl] at hs
  rw [hl] at hs sorted
  rcases List.mem_cons.mp hs with rfl | hs
  · exact ⟨rest, rfl⟩
  obtain ⟨k', since', ha⟩ := (mem_heldOn w p a).mp (hl ▸ List.mem_cons_self)
  have before := (heldBefore_iff w a s).mp (List.rel_of_pairwise_cons sorted hs)
  have after := least a k' since' ha
  rw [heldSince_of_heldOn h, heldSince_of_heldOn ha] at before
  omega

/-- The first of the held calls completes its transition; the latch is set again when others are left. -/
theorem offerPlatform_first {w : Vol} {p s since : Nat} {k : HeldTransition} {rest : List Nat} (nv : Nonvolatile)
    (hl : w.heldOn p = s :: rest) (h : HeldOn w p s k since) : w.offerPlatform nv p =
      if rest = [] then w.enterPlatform nv s p k false
      else (w.enterPlatform nv s p k false).modPlatform p fun x => { x with conflict := true } := by
  obtain ⟨c, hc, -, hh⟩ := h
  simp only [Vol.offerPlatform, hl, hc, Option.bind_some, hh]

theorem offerPlatform_none {w : Vol} {p : Nat} (nv : Nonvolatile) (h : ∀ s k since, ¬ HeldOn w p s k since) :
    w.offerPlatform nv p = w := by
  have hl : w.heldOn p = [] := List.eq_nil_iff_forall_not_mem.mpr fun s hs => by
    obtain ⟨k, since, hk⟩ := (mem_heldOn w p s).mp hs
    exact h s k since hk
  simp only [Vol.offerPlatform, hl]

theorem platformOffered : PlatformOffered := by
  intro w nv p
  refine ⟨offerPlatform_none nv, fun s k since h least => ⟨_, rfl, fun alone => ?_, fun ⟨s', k', since', h', hne⟩ => ?_⟩⟩
  all_goals
    obtain ⟨rest, hl⟩ := heldOn_first h least
    have sorted := heldOn_pairwise w p
    rw [offerPlatform_first nv hl h]
    rw [hl] at sorted
  · refine if_pos (List.eq_nil_iff_forall_not_mem.mpr fun a ha => ?_)
    obtain ⟨k', since', h'⟩ := (mem_heldOn w p a).mp (hl ▸ List.mem_cons_of_mem s ha)
    have before := (heldBefore_iff w s a).mp (List.rel_of_pairwise_cons sorted ha)
    rw [alone a k' since' h'] at before
    omega
  · refine if_neg fun hrest => hne ?_
    have hs' := (mem_heldOn w p s').mpr ⟨k', since', h'⟩
    simpa [hl, hrest] using hs'

/-! ### What an offer leaves of a call that is not held on the platform -/

/-- `w'` has the call of `slot`, the platforms but `p`, and no new due entry of `slot`. -/
structure Spares (slot p : Nat) (w w' : Vol) : Prop where
  call : w'.call slot = w.call slot
  platform : ∀ q, 1 ≤ p → 1 ≤ q → q ≠ p → w'.platform q = w.platform q
  due : ∀ e ∈ w'.due, e.slot = slot → e ∈ w.due

theorem enterPlatform_spares {w : Vol} {s slot p : Nat} {c : Call} (nv : Nonvolatile) (h : HeldTransition) (stale : Bool)
    (hc : w.call s = some c) (hs : slot ≠ s) : Spares slot p w (w.enterPlatform nv s p h stale) := by
  have k := enterPlatform_ofCall nv p h stale hc
  refine ⟨?_, fun q hp hq hqp => ?_, fun e he hes => ?_⟩
  · rw [k.others slot hs]
    exact call_setCall_ne (w.setPlatform p _) _ hs
  · rw [platform_congr k.platforms]
    exact platform_setPlatform_ne w _ hp hq hqp
  · exact (k.due e he).resolve_right fun h => hs (hes.symm.trans h)

theorem offerPlatform_spares {w : Vol} {slot p : Nat} (nv : Nonvolatile)
    (hn : ∀ k since, ¬ HeldOn w p slot k since) : Spares slot p w (w.offerPlatform nv p) := by
  rcases hl : w.heldOn p with _ | ⟨s, rest⟩
  · rw [Vol.offerPlatform, hl]
    exact ⟨rfl, fun _ _ _ _ => rfl, fun _ he _ => he⟩
  obtain ⟨k, since, hs⟩ := (mem_heldOn w p s).mp (hl ▸ List.mem_cons_self)
  have hne : slot ≠ s := fun h => hn k since (h ▸ hs)
  have ⟨c, hc, _, _⟩ := hs
  have entered := enterPlatform_spares (p := p) nv k false hc hne
  rw [offerPlatform_first nv hl hs]
  split
  · exact entered
  · exact ⟨entered.call, fun q hp hq hqp => (platform_setPlatform_ne _ _ hp hq hqp).trans (entered.platform q hp hq hqp),
      entered.due⟩

end Sys2Proof.Calls
end

section
/-! PROOFS. The station clock and the walk of the due list (R54, R55, R67, R79, R80); a due entry taken. -/

namespace Sys2Proof.Calls

open Sys2Proof.Machine Sys2Proof.Laws Sys2Proof.Statements
open Sys2Proof.Live (declines_of_act answers_of_act happens_of_mark)

/-! ### The walk of the due list (R79, R80) -/

theorem nextDue_eq_some_iff (w : Vol) (p : Nat → Bool) (e : DueEntry) : w.nextDue p = some e ↔ ComesDue w p e := by
  unfold Vol.nextDue ComesDue
  cases w.due.find? fun e => p e.slot with
  | none => simp
  | some d =>
    simp only [Option.ite_none_right_eq_some, Option.some.injEq]
    constructor
    · rintro ⟨hd, rfl⟩
      exact ⟨rfl, hd⟩
    · rintro ⟨rfl, hd⟩
      exact ⟨hd, rfl⟩

theorem nextDue_none {w : Vol} {p : Nat → Bool} (h : ¬ ∃ e, ComesDue w p e) : w.nextDue p = none :=
  Option.eq_none_iff_forall_ne_some.mpr fun e he => h ⟨e, (nextDue_eq_some_iff w p e).mp he⟩

theorem takesDue_iff (w : Vol) : w.takesDue = true ↔ w.clock.isSet = true ∧ w.mode = .normal := by
  simp [Vol.takesDue]

theorem walkDue_taken {w : Vol} (nv : Nonvolatile) (p : Nat → Bool) (hset : w.clock.isSet = true) (hm : w.mode = .normal) :
    w.walkDue nv p = Vol.walkFuel nv p 1280 w := if_pos ((takesDue_iff w).mpr ⟨hset, hm⟩)

theorem walkDue_not_taken {w : Vol} (nv : Nonvolatile) (p : Nat → Bool)
    (h : w.clock.isSet = false ∨ w.mode = .maintenance) : w.walkDue nv p = w := by
  refine if_neg fun ht => ?_
  obtain ⟨hset, hm⟩ := (takesDue_iff w).mp ht
  simp [hset, hm] at h

/-- A walk that ends within the fuel is what the fuel gives. -/
theorem walkFuel_of_walks {nv : Nonvolatile} {p : Nat → Bool} {n fuel : Nat} {w w' : Vol} (h : Walks nv p n w w')
    (hn : n ≤ fuel) : Vol.walkFuel nv p fuel w = w' := by
  induction n generalizing w fuel with
  | zero =>
    obtain ⟨hdone, rfl⟩ := h
    cases fuel with
    | zero => rfl
    | succ fuel => simp only [Vol.walkFuel, nextDue_none hdone]
  | succ n ih =>
    obtain ⟨e, he, hrest⟩ := h
    obtain ⟨fuel, rfl⟩ : ∃ k, fuel = k + 1 := ⟨fuel - 1, by omega⟩
    simp only [Vol.walkFuel, (nextDue_eq_some_iff w p e).mpr he]
    exact ih hrest (by omega)

theorem dueWalk : DueWalk := fun _ _ nv p _ =>
  ⟨fun hset hm hn hw => (walkDue_taken nv p hset hm).trans (walkFuel_of_walks hw hn), walkDue_not_taken nv p, rfl,
    fun _ => rfl⟩

/-! ### An entry taken (R67, R79) -/

theorem walkedEntryActs : WalkedEntryActs := by
  intro w nv e c stale hc hstale
  have hstale : decide (e.time + Config.staleSeconds < w.clock.time) = stale := hstale.symm
  refine ⟨fun hk hst => ?_, fun hk hst => ?_, fun hk hst => ?_, fun h => ?_, fun h => ?_, mem_dropDue w⟩
  · simp only [Vol.takeDue, call_dropDue, hc, hk, hst, hstale]
  · simp only [Vol.takeDue, call_dropDue, hc, hk, hst, hstale]
  · simp only [Vol.takeDue, call_dropDue, hc, hk, hst, hstale]
  · rcases h with ⟨hk, hst⟩ | ⟨hk, hst⟩ <;> simp only [Vol.takeDue, call_dropDue, hc, hk, hst, hstale]
  · rcases h with hst | hst <;> cases hk : c.kind <;> simp only [Vol.takeDue, call_dropDue, hc, hk, hst]

/-! ### A second of the station clock (R54) -/

theorem exec_secondAdvance (s : State) :
    exec .secondAdvance s = .next (takeMark .second Vol.secondDue (fun nv w => w.advanceSecond nv) s) := rfl

theorem advanceSecond_counts {w : Vol} (nv : Nonvolatile) (h : w.clock.time < 4294967295) : w.advanceSecond nv =
    ({ w with clock := { w.clock with time := w.clock.time + 1, marks := 0 } } : Vol).walkAll nv := if_pos h

theorem advanceSecond_stays {w : Vol} (nv : Nonvolatile) (h : w.clock.time = 4294967295) : w.advanceSecond nv =
    { w with clock := { w.clock with marks := 0 } } := if_neg (by simp [h, Config.maxTime])

theorem secondTaken : SecondTaken := by
  intro s hm hset hmarks
  have due : s.vol.secondDue = true := by simp [Vol.secondDue, hset, hmarks]
  have happens := happens_of_mark (exec_secondAdvance s) hm due
  refine ⟨fun ht => ?_, fun ht => ?_⟩
  · rw [← advanceSecond_counts s.nv ht]
    exact happens
  · rw [← advanceSecond_stays s.nv ht]
    exact happens

/-- Settles O54: the second, the walk by induction on the entries taken, and the entry by kind and state of its call. -/
theorem secondAdvances : Obligations.SecondAdvances := ⟨secondTaken, dueWalk, walkedEntryActs⟩

/-! ### TIME (R55, R90) -/

theorem exec_time (h : RequestHeader) (t b : Nat) (s : State) :
    exec (.time h t b) s = .next (takeRequest h 8 (Instr.wf (.time h t b)) (actTime t b) s) := rfl

/-- The station clock as TIME sets it, with the notice of a jump. -/
def clockSet (w : Vol) (t b : Nat) : Vol :=
  let set : Vol := { w with clock := { isSet := true, time := t, dayBase := b, marks := 0 } }
  if w.clock.jumps t then set.notify (.timeJump w.clock.time t) else set

/-- The clock set and the due list walked, if TIME walks it. -/
def clockWalked (w : Vol) (nv : Nonvolatile) (t b : Nat) : Vol :=
  if w.clock.isSet = false ∨ w.clock.time < t then (clockSet w t b).walkAll nv else clockSet w t b

theorem jumps_iff (c : StationClock) (t : Nat) :
    c.jumps t = true ↔ c.isSet = true ∧ (c.time + 2 < t ∨ t + 2 < c.time) := by
  simp [StationClock.jumps]

theorem actTime_badArg {t b : Nat} (s : State) (h : t < b ∨ 86400 ≤ t - b) : actTime t b s = refuse .badArg s := if_pos h

theorem actTime_sets {t b : Nat} (s : State) (h : b ≤ t) (hd : t - b < 86400) :
    actTime t b s = okVol s ((clockWalked s.vol s.nv t b).queueTime s.nv) := if_neg (by omega)

/-- Settles O30: the clock set, then the walk, then the queue's tests. -/
theorem timeSet : Obligations.TimeSet := by
  intro h t b s place hs
  have he := exec_time h t b s
  refine ⟨fun hbad => declines_of_act he hs (by decide) (actTime_badArg s hbad), fun hb hd => ?_⟩
  refine ⟨clockSet s.vol t b, clockWalked s.vol s.nv t b, answers_of_act he hs (by decide) (actTime_sets s hb hd),
    fun hj => if_pos ((jumps_iff _ t).mpr hj), fun hj => if_neg (mt (jumps_iff _ t).mp hj), fun hw => if_pos hw,
    fun hset ht => if_neg ?_⟩
  rw [hset]
  simpa using ht

/-! ### DUE_ENTRY_TAKEN (R79, R80) -/

theorem exec_dueEntryTaken (s : State) :
    exec .dueEntryTaken s = .next (takeEvent State.dueReady State.takeHeadDue s) := rfl

/-- The head of the due list, when its time has come, is taken. -/
theorem happens_dueEntryTaken {s : State} {e : DueEntry} {rest : List DueEntry} (hr : s.running = true)
    (hset : s.vol.clock.isSet = true) (hm : s.vol.mode = .normal) (hl : s.vol.due = e :: rest)
    (ht : e.time ≤ s.vol.clock.time) : Happens .dueEntryTaken s { s with vol := s.vol.takeDue s.nv e } := by
  have next : s.vol.nextDue (fun _ => true) = some e := (nextDue_eq_some_iff _ _ _).mpr ⟨by simp [hl], ht⟩
  have takes : s.vol.takesDue = true := (takesDue_iff _).mpr ⟨hset, hm⟩
  have due : s.dueReady = true := by simp [State.dueReady, takes, next]
  have act : s.takeHeadDue = { s with vol := s.vol.takeDue s.nv e } := by
    simp only [State.takeHeadDue, next]
    rfl
  exact ⟨_, (exec_dueEntryTaken s).trans (congrArg _ (takeEvent_due hr due)), act ▸ finish_ends _⟩

theorem dueEntryActs : DueEntryActs := by
  intro s e rest c stale hr hset hm hl ht hc hstale
  have happens := happens_dueEntryTaken hr hset hm hl ht
  obtain ⟨boarding, final, approaching, gone, removed, -⟩ := walkedEntryActs s.vol s.nv e c stale hc hstale
  exact ⟨fun hk hst => boarding hk hst ▸ happens, fun hk hst => final hk hst ▸ happens,
    fun hk hst => approaching hk hst ▸ happens, fun h => gone h ▸ happens, fun h => removed h ▸ happens⟩

end Sys2Proof.Calls
end

section
/-! PROOFS. The calls that end: GONE, CALL CANCEL, CALL REMOVE, and the platform that an ending call frees (R62, R77, R78);
what every transition makes of its call (R60 to R63). -/

namespace Sys2Proof.Calls

open Sys2Proof.Machine Sys2Proof.Laws Sys2Proof.Statements
open Sys2Proof.Live (declines_of_act answers_of_act)

/-- A call that is not held is held on no platform. -/
theorem not_heldOn {w : Vol} {slot : Nat} {c : Call} (hc : w.call slot = some c) (hh : c.held = none) (p : Nat)
    (k : HeldTransition) (since : Nat) : ¬ HeldOn w p slot k since := by
  rintro ⟨x, hx, -, hk⟩
  obtain rfl : c = x := Option.some.inj (hc.symm.trans hx)
  simp [hh] at hk

/-- A call occupies its platform, or does not: the two cases of every ending. -/
theorem occupied_or_other (w : Vol) (slot : Nat) (c : Call) :
    (∃ p, c.platform = some p ∧ (w.platform p).occupant = some slot)
      ∨ ∀ p, c.platform = some p → (w.platform p).occupant ≠ some slot := by
  exact or_iff_not_imp_left.mpr fun h p hp ho => h ⟨p, hp, ho⟩

/-! ### GONE (R62, R69) -/

/-- What a GONE call does before its platform is offered: its requests withdrawn, its notice, its removal entry. -/
def leave (w : Vol) (nv : Nonvolatile) (slot : Nat) (stale : Bool) : Vol :=
  (w.supersede nv slot none .superseded).endTransition nv slot none stale

theorem leave_ofCall (w : Vol) (nv : Nonvolatile) (slot : Nat) (stale : Bool) : OfCall slot w (leave w nv slot stale) :=
  ((supersede_keepsCalls w nv slot none .superseded).ofCall slot).trans (endTransition_ofCall _ nv slot none stale)

/-- The call at the end of its transition to GONE, which an offer of its platform leaves as it is. -/
theorem enterGone_call {w : Vol} {slot : Nat} {c : Call} (nv : Nonvolatile) (stale : Bool) (hc : w.call slot = some c)
    (hh : c.held = none) : ∃ b, (w.enterGone nv slot stale).call slot
      = some { c with state := .gone, gone := some w.clock.time, announced := b } := by
  rcases occupied_or_other w slot c with ⟨q, hq, ho⟩ | ho
  · obtain ⟨b, hb⟩ := (leave_ofCall (vacate (gone w slot c) q) nv slot stale).own _ (call_setCall_of hc _)
    rw [enterGone_occupied nv stale hc hq ho]
    exact ⟨b, (offerPlatform_spares nv (not_heldOn hb hh q)).call.trans hb⟩
  · rw [enterGone_other nv stale hc ho]
    exact (leave_ofCall (gone w slot c) nv slot stale).own _ (call_setCall_of hc _)

/-! ### CALL CANCEL (R77) -/

/-- A cancelled call before its platform is freed: its requests withdrawn, its state, its trigger, notice and due entry. -/
def cancelled (w : Vol) (nv : Nonvolatile) (slot : Nat) (c : Call) : Vol :=
  ((w.supersede nv slot none .withdrawn).setCall slot
    (some { c with state := .cancelled, gone := some w.clock.time, held := none })).endTransition nv slot (some .cancelled)
      false

section

variable {w : Vol} {slot : Nat} {c : Call} (nv : Nonvolatile)

theorem supersede_call (k : Option Trigger) (m : FinishMark) (s : Nat) : (w.supersede nv slot k m).call s = w.call s :=
  call_congr (supersede_keepsCalls w nv slot k m).calls s

theorem cancelled_call (hc : w.call slot = some c) : ∃ b, (cancelled w nv slot c).call slot
    = some { c with state := .cancelled, gone := some w.clock.time, held := none, announced := b } :=
  (endTransition_ofCall _ nv slot (some .cancelled) false).own _
    (call_setCall_of ((supersede_call nv none _ slot).trans hc) _)

theorem cancelled_other (c : Call) {s : Nat} (hs : s ≠ slot) : (cancelled w nv slot c).call s = w.call s :=
  ((endTransition_ofCall _ nv slot (some .cancelled) false).others s hs).trans
    ((call_setCall_ne _ _ hs).trans (supersede_call nv none _ s))

theorem cancelled_platforms (slot : Nat) (c : Call) : (cancelled w nv slot c).platforms = w.platforms :=
  (endTransition_ofCall _ nv slot (some .cancelled) false).platforms.trans
    (supersede_keepsCalls w nv slot none .withdrawn).platforms

theorem cancelled_platform (slot : Nat) (c : Call) (p : Nat) : (cancelled w nv slot c).platform p = w.platform p :=
  platform_congr (cancelled_platforms nv slot c) p

theorem cancelCall_eq (hc : w.call slot = some c) {freed : Option Nat} {v : Vol}
    (hf : (cancelled w nv slot c).freePlatform slot = (freed, v)) :
    w.cancelCall nv slot = freed.elim v (v.offerPlatform nv) := by
  have hc1 : (w.supersede nv slot none .withdrawn).call slot = some c := (supersede_call nv none .withdrawn slot).trans hc
  have ht : (w.supersede nv slot none .withdrawn).clock = w.clock := (supersede_keepsCalls w nv slot none .withdrawn).clock
  rw [Vol.cancelCall, modCall_of hc1, ht, ← cancelled, hf]
  cases freed <;> rfl

theorem cancelled_boundPlatform (hc : w.call slot = some c) :
    ((cancelled w nv slot c).call slot).bind (·.platform) = c.platform := by
  obtain ⟨b, hb⟩ := cancelled_call nv hc
  rw [hb]
  rfl

theorem cancelCall_occupied (hc : w.call slot = some c) {p : Nat} (hp : c.platform = some p)
    (ho : (w.platform p).occupant = some slot) :
    w.cancelCall nv slot = (vacate (cancelled w nv slot c) p).offerPlatform nv p :=
  cancelCall_eq nv hc (freePlatform_occupied ((cancelled_boundPlatform nv hc).trans hp) (by rw [cancelled_platform, ho]))

theorem cancelCall_other (hc : w.call slot = some c)
    (ho : ∀ p, c.platform = some p → (w.platform p).occupant ≠ some slot) :
    w.cancelCall nv slot = cancelled w nv slot c := by
  refine cancelCall_eq nv hc (freePlatform_other fun p hp => ?_)
  rw [cancelled_platform]
  exact ho p ((cancelled_boundPlatform nv hc).symm.trans hp)

end

theorem cancelRuns : CancelRuns := by
  rintro w _ _ nv slot c hc rfl rfl
  exact ⟨fun p hp ho => cancelCall_occupied nv hc hp ho, cancelCall_other nv hc⟩

/-- The cancelled call at the end, which an offer of its platform leaves as it is. -/
theorem cancelCall_call {w : Vol} {slot : Nat} {c : Call} (nv : Nonvolatile) (hc : w.call slot = some c) :
    ∃ b, (w.cancelCall nv slot).call slot
      = some { c with state := .cancelled, gone := some w.clock.time, held := none, announced := b } := by
  obtain ⟨b, hb⟩ := cancelled_call nv hc
  rcases occupied_or_other w slot c with ⟨p, hp, ho⟩ | ho
  · rw [cancelCall_occupied nv hc hp ho]
    exact ⟨b, (offerPlatform_spares nv (not_heldOn (w := vacate (cancelled w nv slot c) p) hb rfl p)).call.trans hb⟩
  · exact ⟨b, by rw [cancelCall_other nv hc ho, hb]⟩

/-! ### CALL REMOVE (R78) -/

/-- A request that names the call of `slot` names none any more. -/
def unnamed (slot : Nat) (r : Request) : Request :=
  match r.call with
  | some (s, _) => if s = slot then { r with call := none } else r
  | none => r

theorem unnamed_eq (slot : Nat) (r : Request) :
    unnamed slot r = if r.call.map (·.1) = some slot then { r with call := none } else r := by
  unfold unnamed
  rcases r.call with _ | ⟨s, t⟩ <;> simp

/-- The withdrawn requests of a call name it no more, and its due entry is gone. -/
def forgotten (w : Vol) (slot : Nat) : Vol :=
  (w.modQueue fun q => { q with requests := q.requests.map (unnamed slot) }).dropDue slot

theorem call_forgotten (w : Vol) (slot c : Nat) : (forgotten w slot).call c = w.call c := rfl
theorem platforms_forgotten (w : Vol) (slot : Nat) : (forgotten w slot).platforms = w.platforms := rfl

/-- A removed call before its platform is freed: its requests withdrawn, and nothing names it. -/
def removed (w : Vol) (nv : Nonvolatile) (slot : Nat) : Vol :=
  forgotten (w.supersede nv slot none .withdrawn) slot

section

variable {w : Vol} {slot : Nat} {c : Call} (nv : Nonvolatile)

theorem removed_call (s : Nat) : (removed w nv slot).call s = w.call s :=
  (call_forgotten _ slot s).trans (supersede_call nv none .withdrawn s)

theorem removed_platforms (slot : Nat) : (removed w nv slot).platforms = w.platforms :=
  (platforms_forgotten _ slot).trans (supersede_keepsCalls w nv slot none .withdrawn).platforms

theorem removed_platform (slot p : Nat) : (removed w nv slot).platform p = w.platform p :=
  platform_congr (removed_platforms nv slot) p

theorem removed_due (w : Vol) (nv : Nonvolatile) (slot : Nat) : ∀ e ∈ (removed w nv slot).due, e.slot ≠ slot :=
  fun e he => ((mem_dropDue _ slot e).mp he).2

/-- What follows the withdrawals of a removal. -/
def removal (w : Vol) (nv : Nonvolatile) (slot service : Nat) : Vol :=
  let (freed, w) := w.freePlatform slot
  let w := w.modCall slot fun c => { c with held := none }
  let w := match freed with
    | some p => w.offerPlatform nv p
    | none => w
  (w.setCall slot none).notify (.callRemoved slot service)

theorem removeCall_steps (hc : w.call slot = some c) :
    w.removeCall nv slot = removal (removed w nv slot) nv slot c.service := by
  rw [Vol.removeCall, hc]
  rfl

theorem removeCall_occupied (hc : w.call slot = some c) {p : Nat} (hp : c.platform = some p)
    (ho : (w.platform p).occupant = some slot) : w.removeCall nv slot =
      ((((vacate (removed w nv slot) p).setCall slot (some { c with held := none })).offerPlatform nv p).setCall slot
        none).notify (.callRemoved slot c.service) := by
  have hc1 : (removed w nv slot).call slot = some c := (removed_call nv slot).trans hc
  have hc2 : (vacate (removed w nv slot) p).call slot = some c := (call_vacate _ p slot).trans hc1
  have free : (removed w nv slot).freePlatform slot = (some p, vacate (removed w nv slot) p) :=
    freePlatform_occupied (by rw [hc1]; exact hp) (by rw [removed_platform, ho])
  rw [removeCall_steps nv hc]
  simp only [removal, free, modCall_of hc2]

theorem removeCall_other (hc : w.call slot = some c)
    (ho : ∀ p, c.platform = some p → (w.platform p).occupant ≠ some slot) : w.removeCall nv slot =
      ((removed w nv slot).setCall slot none).notify (.callRemoved slot c.service) := by
  have hc1 : (removed w nv slot).call slot = some c := (removed_call nv slot).trans hc
  have free : (removed w nv slot).freePlatform slot = (none, removed w nv slot) := freePlatform_other fun p hp => by
    rw [removed_platform]
    rw [hc1] at hp
    exact ho p hp
  rw [removeCall_steps nv hc]
  simp only [removal, free, modCall_of hc1, Vol.setCall, tset_tset]

end

theorem removalRuns : RemovalRuns := by
  rintro w w1 w2 nv slot c hc rfl h2
  have names : w2 = removed w nv slot := by
    simp only [h2, removed, forgotten, ← unnamed_eq]
    rfl
  rw [names]
  exact ⟨fun p hp ho => removeCall_occupied nv hc hp ho, removeCall_other nv hc⟩

theorem removeCall_call (w : Vol) (nv : Nonvolatile) (slot : Nat) : (w.removeCall nv slot).call slot = none := by
  cases hc : w.call slot with
  | none => simp only [Vol.removeCall, hc]
  | some c =>
    rw [removeCall_steps nv hc, removal, call_congr (notify_keepsCalls _ _).calls, call_setCall_none]

/-- A removed call leaves no due entry, whatever the offer of its platform adds. -/
theorem removeCall_due {w : Vol} {slot : Nat} {c : Call} (nv : Nonvolatile) (hc : w.call slot = some c) :
    ∀ e ∈ (w.removeCall nv slot).due, e.slot ≠ slot := by
  intro e he hes
  rcases occupied_or_other w slot c with ⟨p, hp, ho⟩ | ho
  · have hc1 : (removed w nv slot).call slot = some c := (removed_call nv slot).trans hc
    have hc2 : (vacate (removed w nv slot) p).call slot = some c := (call_vacate _ p slot).trans hc1
    have unheld := not_heldOn (c := { c with held := none }) (call_setCall_of hc2 _) rfl p
    rw [removeCall_occupied nv hc hp ho, (notify_keepsCalls _ _).due, due_setCall] at he
    have kept := (offerPlatform_spares nv unheld).due e he hes
    rw [due_setCall, due_vacate] at kept
    exact removed_due w nv slot e kept hes
  · rw [removeCall_other nv hc ho, (notify_keepsCalls _ _).due, due_setCall] at he
    exact removed_due w nv slot e he hes

/-! ### What an ending call leaves (R62, R77, R78) -/

theorem freed_vacate {w v : Vol} {slot p : Nat} (hp : v.platforms = w.platforms)
    (hc : ∀ s, s ≠ slot → v.call s = w.call s) (h1 : 1 ≤ p) (h32 : p ≤ 32) :
    Freed w (vacate v p) slot p := by
  refine ⟨by rw [vacate, platform_setPlatform _ _ h1 h32], fun q hq _ hqp => ?_, hc⟩
  rw [vacate, platform_setPlatform_ne _ _ h1 hq hqp, platform_congr hp]

theorem freed_ofCall {w v v' : Vol} {slot p : Nat} (h : Freed w v slot p) (k : OfCall slot v v') : Freed w v' slot p := by
  obtain ⟨free, platforms, calls⟩ := h
  refine ⟨by rw [platform_congr k.platforms, free], fun q h1 h32 hq => ?_, fun s hs => (k.others s hs).trans (calls s hs)⟩
  rw [platform_congr k.platforms, platforms q h1 h32 hq]

theorem freed_setCall {w v : Vol} {slot p : Nat} (h : Freed w v slot p) (x : Option Call) :
    Freed w (v.setCall slot x) slot p := by
  obtain ⟨free, platforms, calls⟩ := h
  exact ⟨free, platforms, fun s hs => (call_setCall_ne v x hs).trans (calls s hs)⟩

theorem platformFreed : PlatformFreed := by
  intro w nv slot c hc
  refine ⟨fun p hp h1 h32 ho _ => ⟨fun stale => ?_, ?_, ?_⟩, fun ho => ⟨fun stale => ?_, ?_, ?_⟩⟩
  · have base : Freed w (vacate (gone w slot c) p) slot p :=
      freed_vacate rfl (fun s hs => call_setCall_ne w _ hs) h1 h32
    obtain ⟨b, hb⟩ := (leave_ofCall (vacate (gone w slot c) p) nv slot stale).own _ (call_setCall_of hc _)
    exact ⟨_, enterGone_occupied nv stale hc hp ho, freed_ofCall base (leave_ofCall _ nv slot stale), _, hb, rfl⟩
  · obtain ⟨b, hb⟩ := cancelled_call nv hc
    exact ⟨_, cancelCall_occupied nv hc hp ho,
      freed_vacate (cancelled_platforms nv slot c) (fun s hs => cancelled_other nv c hs) h1 h32, _, hb, rfl⟩
  · exact ⟨_, removeCall_occupied nv hc hp ho,
      freed_setCall (freed_vacate (removed_platforms nv slot) (fun s _ => removed_call nv s) h1 h32) _⟩
  · rw [enterGone_other nv stale hc ho]
    exact (leave_ofCall (gone w slot c) nv slot stale).platforms
  · rw [cancelCall_other nv hc ho]
    exact cancelled_platforms nv slot c
  · rw [removeCall_other nv hc ho, (notify_keepsCalls _ _).platforms]
    exact removed_platforms nv slot

/-! ### The states in which the transitions leave a call (R60 to R63, R78) -/

theorem transitionsEnd : TransitionsEnd := by
  intro w nv slot c stale hc
  refine ⟨?_, ?_, fun hh => ?_, removeCall_call w nv slot, fun h hp => ?_, fun h p hp h1 h32 ho => ?_,
    fun h p o hp h1 h32 ho => ?_⟩
  · rw [enterFinal_eq nv stale hc]
    obtain ⟨b, hb⟩ := (endTransition_ofCall _ nv slot (some .final) stale).own _
      ((supersede_call nv (some .boarding) .superseded slot).trans (call_setCall_of hc _))
    exact ⟨_, hb, rfl, rfl⟩
  · rw [enterApproaching_eq nv stale hc]
    obtain ⟨b, hb⟩ := (endTransition_ofCall _ nv slot (some .approach) stale).own _ (call_setCall_of hc _)
    exact ⟨_, hb, rfl, rfl⟩
  · obtain ⟨b, hb⟩ := enterGone_call nv stale hc hh
    exact ⟨_, hb, rfl, rfl, rfl⟩
  · rw [tryPlatform_none nv h stale hc hp]
    exact ⟨(call_congr (remakeDue_calls w slot) slot).trans hc, remakeDue_platforms w slot⟩
  · rw [tryPlatform_free nv h stale hc hp ho]
    obtain ⟨b, hb⟩ := enterPlatform_call nv p h stale hc
    exact ⟨enterPlatform_occupant nv h stale hc h1 h32, _, hb, rfl, rfl, hp, fun hh => if_pos hh⟩
  · rw [tryPlatform_occupied nv h stale hc hp ho]
    exact ⟨rfl, holdCall_call hc p o h, holdCall_platform w slot o h h1 h32⟩

/-- Settles O35: the entry taken, the steps of each transition, and where they leave the call and its platform. -/
theorem dueEntryTaken : Obligations.DueEntryTaken :=
  ⟨dueEntryActs, transitionsEnd, transitionsRun, triggerFires, callRequestsWithdrawn, callStateMarks⟩

end Sys2Proof.Calls
end

section
/-! PROOFS. The requests of the call table: CALL LOAD (R58), CALL MARK (R75), CALL CANCEL and CALL REMOVE (R77, R78), and the
profiles and templates that the timetable reads (R57, R82). -/

namespace Sys2Proof.Calls

open Sys2Proof.Machine Sys2Proof.Laws Sys2Proof.Statements
open Sys2Proof.Live (declines_of_act answers_of_act)

/-- A request of any assigned kind leaves what its owner leaves, with the owner's answer in the reply. -/
theorem answers_of_answer {i : Instr} {h : RequestHeader} {s s' : State} {place kind : Nat} {act : Act} {a : Answer}
    (he : exec i s = .next (takeRequest h kind i.wf act s)) (hs : s.Reaches i h place) (hk : within 1 32 kind = true)
    (ha : act s = (a, s')) : Answers i s s' h kind place a.code a.body := ⟨_, he, takeRequest_ends hs hk act ha⟩

/-! ### The slots that a request can name (R174) -/

theorem slot_lt {slot : Nat} {b : Bool} (h : (b && isByte slot) = true) : slot < 256 := by
  simp only [isByte, Bool.and_eq_true, decide_eq_true_eq] at h
  exact h.2

/-! ### CALL LOAD (R58) -/

theorem exec_callLoad (h : RequestHeader) (c : CallLoad) (s : State) :
    exec (.callLoad h c) s = .next (takeRequest h 9 (Instr.wf (.callLoad h c)) (actCallLoad c) s) := rfl

theorem callLoad_inRange_iff {h : RequestHeader} {c : CallLoad} (hw : Instr.wf (.callLoad h c) = true) :
    c.inRange = true ↔ (∀ p, c.platform = some p → 1 ≤ p ∧ p ≤ 32) ∧ c.profile < 16 := by
  have bytes : c.slot < 256 ∧ c.destination < 256 := by
    simp only [Instr.wf, CallLoad.wf, isByte, Bool.and_eq_true, decide_eq_true_eq] at hw
    omega
  simp [CallLoad.inRange, bytes, optWithin_iff]

theorem actCallLoad_badArg {c : CallLoad} (s : State) (h : ¬ c.inRange = true) : actCallLoad c s = refuse .badArg s := by
  simp [actCallLoad, h]

theorem actCallLoad_inUse {c : CallLoad} {s : State} (h : c.inRange = true) (hc : (s.vol.call c.slot).isSome = true) :
    actCallLoad c s = refuse .inUse s := by
  simp [actCallLoad, h, hc]

theorem actCallLoad_loads {c : CallLoad} {s : State} (h : c.inRange = true) (hc : s.vol.call c.slot = none) :
    actCallLoad c s
      = okVol s (((s.vol.setCall c.slot (some (CallLoad.call c))).remakeDue c.slot).walkOne s.nv c.slot) := by
  simp [actCallLoad, h, hc]

theorem callLoadTaken : CallLoadTaken := by
  intro h c s place hs
  have he := exec_callLoad h c s
  have range := callLoad_inRange_iff hs.shaped
  refine ⟨fun hbad => declines_of_act he hs (by decide) (actCallLoad_badArg s (mt range.mp hbad)),
    fun hp hprofile hc => declines_of_act he hs (by decide) (actCallLoad_inUse (range.mpr ⟨hp, hprofile⟩) hc),
    fun hp hprofile hc => ⟨_, _, answers_of_act he hs (by decide) (actCallLoad_loads (range.mpr ⟨hp, hprofile⟩) hc), rfl,
      rfl, fun off => walkDue_not_taken s.nv _ ?_⟩⟩
  rw [remakeDue_eq]
  exact off

/-- R59: every kind and state of a call. -/
theorem dueTimes : DueTimes := by
  rintro c p _ rfl
  refine ⟨fun hk hst => ⟨fun hp hh => ?_, fun h => ?_⟩, fun hk hst => ?_, fun hk hst => ?_, fun hk hst => ?_,
    fun hk hst => ?_, fun a hk hst ha => ?_, fun g hst hg => ?_⟩
  · simp only [Call.dueTime, hk, hst, Option.isSome_iff_ne_none, hp, hh, ne_eq, not_false_eq_true, and_self, if_true]
    rfl
  · simp only [Call.dueTime, hk, hst]
    refine if_neg fun ⟨hp, hh⟩ => ?_
    rcases h with h | h
    · simp [h] at hp
    · exact h hh
  · simp only [Call.dueTime, hk, hst]
    rfl
  · simp only [Call.dueTime, hk, hst]
    rfl
  · simp only [Call.dueTime, hk, hst]
    rfl
  · simp only [Call.dueTime, hk, hst]
  · simp only [Call.dueTime, hk, hst, ha]
    rfl
  · rcases hst with hst | hst <;> cases hk : c.kind <;> simp only [Call.dueTime, hk, hst, hg] <;> rfl

/-- Settles O31: the request, the due time by kind and state, and the insertion into the due list. -/
theorem callLoaded : Obligations.CallLoaded := ⟨callLoadTaken, dueTimes, dueListKept⟩

/-! ### CALL MARK (R75) -/

theorem exec_callMarkArrived (h : RequestHeader) (slot : Nat) (s : State) : exec (.callMarkArrived h slot) s
    = .next (takeRequest h 11 (Instr.wf (.callMarkArrived h slot)) (actMarkArrived slot) s) := rfl

theorem exec_callMarkDeparted (h : RequestHeader) (slot : Nat) (s : State) : exec (.callMarkDeparted h slot) s
    = .next (takeRequest h 11 (Instr.wf (.callMarkDeparted h slot)) (actMarkDeparted slot) s) := rfl

section

variable {slot : Nat} {c : Call} {s : State}

theorem actMarkArrived_notFound (hslot : slot < 256) (hc : s.vol.call slot = none) :
    actMarkArrived slot s = refuse .notFound s := by
  simp [actMarkArrived, Nat.not_le.mpr hslot, hc]

theorem actMarkArrived_wrongState (hc : s.vol.call slot = some c)
    (h : c.kind ≠ .arrive ∨ c.state ≠ .approaching ∨ c.held ≠ none ∨ c.platform = none) :
    actMarkArrived slot s = refuse .wrongState s := by
  have fits : ∀ p, c.platform = some p → ¬ (c.kind = .arrive ∧ c.state = .approaching ∧ c.held = none) := by
    rintro p hp ⟨hk, hst, hh⟩
    simp [hk, hst, hh, hp] at h
  simp only [actMarkArrived, Nat.not_le.mpr (lt_of_call hc), hc, if_false]
  cases hp : c.platform with
  | none => rfl
  | some p => exact if_neg (fits p hp)

theorem actMarkArrived_tries (hc : s.vol.call slot = some c) {p : Nat} (hk : c.kind = .arrive) (hst : c.state = .approaching)
    (hh : c.held = none) (hp : c.platform = some p) : actMarkArrived slot s =
      (.of (if (s.vol.platform p).occupant.isSome then .accepted else .ok),
        { s with vol := s.vol.tryPlatform s.nv slot .atPlatform false }) := by
  simp only [actMarkArrived, Nat.not_le.mpr (lt_of_call hc), hc, hp, hk, hst, hh, and_self, if_true, if_false]

theorem actMarkDeparted_notFound (hslot : slot < 256) (hc : s.vol.call slot = none) :
    actMarkDeparted slot s = refuse .notFound s := by
  simp [actMarkDeparted, Nat.not_le.mpr hslot, hc]

theorem actMarkDeparted_wrongState (hc : s.vol.call slot = some c)
    (h : ¬ ((c.kind = .depart ∧ c.state = .final) ∨ (c.kind = .arrive ∧ c.state = .atPlatform))) :
    actMarkDeparted slot s = refuse .wrongState s := by
  simp only [actMarkDeparted, Nat.not_le.mpr (lt_of_call hc), hc, if_neg h, if_false]

theorem actMarkDeparted_leaves (hc : s.vol.call slot = some c)
    (h : (c.kind = .depart ∧ c.state = .final) ∨ (c.kind = .arrive ∧ c.state = .atPlatform)) :
    actMarkDeparted slot s = okVol s (s.vol.enterGone s.nv slot false) := by
  simp only [actMarkDeparted, Nat.not_le.mpr (lt_of_call hc), hc, if_pos h, if_false]

end

theorem callMarkedArrived : CallMarkedArrived := by
  intro h slot s place hs
  have he := exec_callMarkArrived h slot s
  refine ⟨fun hc => declines_of_act he hs (by decide) (actMarkArrived_notFound (slot_lt hs.shaped) hc), fun c hc =>
    ⟨fun hbad => declines_of_act he hs (by decide) (actMarkArrived_wrongState hc hbad),
      fun p hk hst hh hp h1 h32 => ⟨fun o ho => ?_, fun ho => ⟨_, rfl, ?_, ?_, ?_, ?_⟩⟩⟩⟩
  · have act := actMarkArrived_tries hc hk hst hh hp
    rw [tryPlatform_occupied s.nv .atPlatform false hc hp ho, ho] at act
    refine ⟨answers_of_answer (a := .of .accepted) he hs (by decide) act, ?_, ?_⟩
    · rw [holdCall_call hc]
      rfl
    · rw [holdCall_platform _ _ _ _ h1 h32]
  · have act := actMarkArrived_tries hc hk hst hh hp
    rw [tryPlatform_free s.nv .atPlatform false hc hp ho, ho] at act
    exact answers_of_answer (a := .of .ok) he hs (by decide) act
  · exact enterPlatform_occupant s.nv .atPlatform false hc h1 h32
  · exact enterPlatform_around _ _ _ _ _ _
  · obtain ⟨b, hb⟩ := enterPlatform_call s.nv p .atPlatform false hc
    exact ⟨_, hb, rfl, rfl, rfl⟩

theorem callMarkedDeparted : CallMarkedDeparted := by
  intro h slot s place hs
  have he := exec_callMarkDeparted h slot s
  refine ⟨fun hc => declines_of_act he hs (by decide) (actMarkDeparted_notFound (slot_lt hs.shaped) hc), fun c hc =>
    ⟨fun hbad => declines_of_act he hs (by decide) (actMarkDeparted_wrongState hc hbad), fun hfits hh =>
      ⟨_, rfl, answers_of_act he hs (by decide) (actMarkDeparted_leaves hc hfits), enterGone_around _ _ _ _, ?_⟩⟩⟩
  obtain ⟨b, hb⟩ := enterGone_call s.nv false hc hh
  exact ⟨_, hb, rfl, rfl⟩

/-- Settles O33: the two marks, the hold, and the offer to the call held longest. -/
theorem callMarks : Obligations.CallMarks := ⟨callMarkedArrived, callMarkedDeparted, callHeld, platformOffered⟩

/-! ### CALL CANCEL and CALL REMOVE (R77, R78) -/

theorem exec_callCancel (h : RequestHeader) (slot : Nat) (s : State) : exec (.callCancel h slot) s
    = .next (takeRequest h 12 (Instr.wf (.callCancel h slot)) (actCallCancel slot) s) := rfl

theorem exec_callRemove (h : RequestHeader) (slot : Nat) (s : State) : exec (.callRemove h slot) s
    = .next (takeRequest h 13 (Instr.wf (.callRemove h slot)) (actCallRemove slot) s) := rfl

section

variable {slot : Nat} {c : Call} {s : State}

theorem actCallCancel_notFound (hslot : slot < 256) (hc : s.vol.call slot = none) :
    actCallCancel slot s = refuse .notFound s := by
  simp [actCallCancel, Nat.not_le.mpr hslot, hc]

theorem actCallCancel_wrongState (hc : s.vol.call slot = some c)
    (h : c.state = .atPlatform ∨ c.state = .gone ∨ c.state = .cancelled) : actCallCancel slot s = refuse .wrongState s := by
  simp only [actCallCancel, Nat.not_le.mpr (lt_of_call hc), hc, if_pos h, if_false]

theorem actCallCancel_cancels (hc : s.vol.call slot = some c)
    (h : ¬ (c.state = .atPlatform ∨ c.state = .gone ∨ c.state = .cancelled)) :
    actCallCancel slot s = okVol s (s.vol.cancelCall s.nv slot) := by
  simp only [actCallCancel, Nat.not_le.mpr (lt_of_call hc), hc, if_neg h, if_false]

theorem actCallRemove_notFound (hslot : slot < 256) (hc : s.vol.call slot = none) :
    actCallRemove slot s = refuse .notFound s := by
  simp [actCallRemove, Nat.not_le.mpr hslot, hc]

theorem actCallRemove_removes (hc : s.vol.call slot = some c) : actCallRemove slot s =
    ({ code := .ok, body := .announced c.announced }, { s with vol := s.vol.removeCall s.nv slot }) := by
  simp only [actCallRemove, Nat.not_le.mpr (lt_of_call hc), hc, if_false]

end

theorem callCancelled : CallCancelled := by
  intro h slot s place hs
  have he := exec_callCancel h slot s
  refine ⟨fun hc => declines_of_act he hs (by decide) (actCallCancel_notFound (slot_lt hs.shaped) hc), fun c hc =>
    ⟨fun hbad => declines_of_act he hs (by decide) (actCallCancel_wrongState hc hbad), fun hp hg hcan =>
      ⟨_, rfl, answers_of_act he hs (by decide) (actCallCancel_cancels hc (by simp [hp, hg, hcan])),
        cancelCall_around _ _ _, ?_⟩⟩⟩
  obtain ⟨b, hb⟩ := cancelCall_call s.nv hc
  exact ⟨_, hb, rfl, rfl, rfl⟩

theorem callRemoved : CallRemoved := by
  intro h slot s place hs
  have he := exec_callRemove h slot s
  exact ⟨fun hc => declines_of_act he hs (by decide) (actCallRemove_notFound (slot_lt hs.shaped) hc), fun c hc =>
    ⟨_, rfl, answers_of_answer he hs (by decide) (actCallRemove_removes hc), removeCall_call _ _ _, removeCall_due s.nv hc,
      removeCall_around _ _ _⟩⟩

/-- Settles O34: the two requests, their steps, and the platform freed and offered. -/
theorem callEnds : Obligations.CallEnds := ⟨callCancelled, cancelRuns, callRemoved, removalRuns, platformFreed⟩

/-! ### Profiles and templates (R57, R82) -/

theorem exec_tableWriteProfile (h : RequestHeader) (r : ProfileRecord) (s : State) : exec (.tableWriteProfile h r) s
    = .next (takeRequest h 6 (Instr.wf (.tableWriteProfile h r)) (actWriteProfile r) s) := rfl

theorem exec_tableWriteTemplate (h : RequestHeader) (r : TemplateRecord) (s : State) : exec (.tableWriteTemplate h r) s
    = .next (takeRequest h 6 (Instr.wf (.tableWriteTemplate h r)) (actWriteTemplate r) s) := rfl

theorem mem_callsOf (w : Vol) (p c : Nat) : c ∈ w.callsOf p ↔ ∃ x, w.call c = some x ∧ x.profile = p := by
  unfold Vol.callsOf
  rw [List.mem_filter, List.mem_range]
  cases hc : w.call c with
  | none => simp
  | some x => simp [lt_of_call hc]

theorem profileWritten : ProfileWritten := by
  intro h r s place hs
  have he := exec_tableWriteProfile h r s
  refine ⟨fun hr => declines_of_act he hs (by decide) (if_neg (by simp [hr])), fun hr =>
    ⟨_, rfl, answers_of_act he hs (by decide) (if_pos hr), fun c => mem_callsOf _ _ c⟩⟩

theorem templateWritten : TemplateWritten := by
  intro h r s place hs
  have he := exec_tableWriteTemplate h r s
  refine ⟨fun hi ht => answers_of_act he hs (by decide) ((if_pos hi).trans (if_pos ht)),
    fun hi hr => answers_of_act he hs (by decide) ((if_neg hi).trans (if_pos hr)), fun hbad =>
      declines_of_act he hs (by decide) ?_⟩
  by_cases hi : r.items = []
  · have ht : 128 ≤ r.template := hbad.resolve_right fun h => h.1 hi
    exact (if_pos hi).trans (if_neg (Nat.not_lt.mpr ht))
  · refine (if_neg hi).trans (if_neg fun hr => ?_)
    have ht : r.template < 128 := by
      simp only [TemplateRecord.inRange, Bool.and_eq_true, decide_eq_true_eq] at hr
      omega
    simp [hr, Nat.not_le.mpr ht] at hbad

theorem item_inRange_iff (i : Item) : i.inRange = true ↔ ItemRange i := by
  cases i with
  | clip c => simp [Item.inRange, ItemRange, Nat.lt_succ_iff (n := 1023)]
  | field f => simp [Item.inRange, ItemRange]
  | pause n => simp [Item.inRange, ItemRange, within_iff]
  | tone t n => simp [Item.inRange, ItemRange, within_iff, Nat.lt_succ_iff (n := 3)]

theorem target_inRange_iff (t : Target) : t.inRange = true ↔ ∀ g, t = .group g → g ≤ 31 := by
  cases t with
  | group g => simp [Target.inRange, Nat.lt_succ_iff (n := 31)]
  | callPlatform => simp [Target.inRange]
  | profile => simp [Target.inRange]

theorem profileAndTemplateRanges : ProfileAndTemplateRanges := by
  refine ⟨fun r => ?_, fun r => ?_⟩
  · simp only [ProfileRecord.inRange, Bool.and_eq_true, decide_eq_true_eq, within_iff, optBelow_iff,
      toList_all_iff none, and_assoc, Nat.lt_succ_iff (n := 15), Nat.lt_succ_iff (n := 31), Nat.lt_succ_iff (n := 127)]
  · simp only [TemplateRecord.inRange, Bool.and_eq_true, decide_eq_true_eq, within_iff, List.all_eq_true, item_inRange_iff,
      target_inRange_iff, and_assoc, Nat.lt_succ_iff (n := 127)]

/-- Settles O24: the two writes and their ranges. -/
theorem profilesAndTemplates : Obligations.ProfilesAndTemplates := ⟨profileWritten, templateWritten, profileAndTemplateRanges⟩

end Sys2Proof.Calls
end

section
/-! PROOFS. CALL UPDATE (R71 to R74): its checks, and what a new platform and a new expected time do. -/

namespace Sys2Proof.Calls

open Sys2Proof.Machine Sys2Proof.Laws Sys2Proof.Statements
open Sys2Proof.Live (declines_of_act answers_of_act)

/-! ### What a trigger of its own and a return to READY do (R66, R70, R73, R93) -/

theorem ownTrigger : OwnTrigger := by
  intro w w1 nv slot k made h
  simp only [Vol.fireAndNotify, h]

theorem revoice_eq (w : Vol) (nv : Nonvolatile) (slot : Nat) : w.revoice nv slot =
    ((w.queue.requests.filter fun r => decide (r.call.map (·.1) = some slot) && (r.voice?.isSome && !r.isPlaying)
        && r.override.isNone && decide ((r.template.bind w.template).map (·.target) = some .callPlatform)).foldl
      (fun v r => v.returnToReady r.number) w).handOut nv := by
  unfold Vol.revoice
  dsimp only
  congr 2
  refine List.filter_congr fun r _ => ?_
  unfold Request.voice? Request.isPlaying
  rcases r.call with _ | ⟨s, t⟩ <;> cases r.state <;> simp

theorem returnToReady_voiced {w : Vol} {n v : Nat} {r : Request} (hr : w.request n = some r) (hv : r.state = .voiced v) :
    w.returnToReady n = (w.modRequest n fun x => { x with state := .ready }).releaseVoice v := by
  simp only [Vol.returnToReady, hr, Request.voice?, hv]

theorem voicedRequestsReturn : VoicedRequestsReturn := fun w nv slot =>
  ⟨revoice_eq w nv slot, fun _ _ _ hr hv => returnToReady_voiced hr hv⟩

/-! ### A new platform (R72, R73) -/

theorem occupies_of {c : Call} (h : c.state = .boarding ∨ c.state = .final) : c.state.occupies = true := by
  rcases h with h | h <;> rw [h] <;> rfl

theorem occupies_not_of {c : Call} (h : c.state = .planned ∨ c.state = .approaching) : c.state.occupies = false := by
  rcases h with h | h <;> rw [h] <;> rfl

/-- The call of `slot` takes platform `q` as its occupant. -/
def seated (w : Vol) (slot q : Nat) (c : Call) : Vol :=
  (w.setPlatform q { w.platform q with occupant := some slot }).setCall slot (some { c with platform := some q })

/-- The steps of a platform update that follow the new platform: the due entry and the VOICED requests. -/
def replanned (w : Vol) (nv : Nonvolatile) (slot : Nat) : Vol := (w.remakeDue slot).revoice nv slot

theorem replanned_ofCall (w : Vol) (nv : Nonvolatile) (slot : Nat) : OfCall slot w (replanned w nv slot) :=
  (remakeDue_ofCall w slot).trans ((revoice_keepsCalls _ nv slot).ofCall slot)

/-- What becomes of a call that waits for its new platform: a held arrival is tried there, else the due entry is tested. -/
def retried (w : Vol) (nv : Nonvolatile) (slot : Nat) : Option (HeldTransition × Nat) → Vol
  | some (.atPlatform, _) => w.tryPlatform nv slot .atPlatform false
  | some (.boarding, _) => w.walkOne nv slot
  | none => w.walkOne nv slot

/-- The call of `slot` with a platform, or none, that it does not occupy; a hold is dropped. -/
def reassigned (w : Vol) (slot : Nat) (c : Call) (p : Option Nat) : Vol :=
  w.setCall slot (some { c with platform := p, held := none })

/-- A change from one platform to another fires PLATFORM_CHANGE. -/
def changeTold (w : Vol) (nv : Nonvolatile) (slot : Nat) (old new : Option Nat) : Vol :=
  if old.isSome && new.isSome then w.fireAndNotify nv slot .platformChange else w

section

variable {w : Vol} {slot : Nat} {c : Call} (nv : Nonvolatile)

theorem updatePlatform_same (hc : w.call slot = some c) {p : Option Nat} (hp : c.platform = p) :
    w.updatePlatform nv slot p = w := by
  simp only [Vol.updatePlatform, hc, if_pos hp]

theorem updatePlatform_moves (hc : w.call slot = some c) {o q : Nat} (hst : c.state.occupies = true)
    (hp : c.platform = some o) (hne : o ≠ q) : w.updatePlatform nv slot (some q) =
      ((replanned (seated (vacate w o) slot q c) nv slot).fireAndNotify nv slot .platformChange).offerPlatform nv o := by
  have moved : (((vacate w o).modPlatform q fun x => { x with occupant := some slot }).modCall slot fun c =>
      { c with platform := some q }) = seated (vacate w o) slot q c :=
    modCall_of (w := (vacate w o).modPlatform q _) hc _
  have other : ¬ some o = some q := fun h => hne (Option.some.inj h)
  simp only [Vol.updatePlatform, hc, hp, if_neg other, hst, if_true, Option.isSome_some, Bool.and_self, replanned, ← moved]
  rfl

theorem updatePlatform_enters (hc : w.call slot = some c) (q : Nat) (hst : c.state.occupies = true)
    (hp : c.platform = none) : w.updatePlatform nv slot (some q) = replanned (seated w slot q c) nv slot := by
  have moved : ((w.modPlatform q fun x => { x with occupant := some slot }).modCall slot fun c =>
      { c with platform := some q }) = seated w slot q c :=
    modCall_of (w := w.modPlatform q _) hc _
  simp only [Vol.updatePlatform, hc, hp, hst, reduceCtorEq, if_false, if_true, Option.isSome_none, Bool.false_and,
    Bool.false_eq_true, replanned, ← moved]

theorem updatePlatform_waits (hc : w.call slot = some c) {p : Option Nat} (hst : c.state.occupies = false)
    (hne : c.platform ≠ p) : w.updatePlatform nv slot p =
      changeTold (retried (replanned (reassigned w slot c p) nv slot) nv slot c.held) nv slot c.platform p := by
  simp only [Vol.updatePlatform, hc, if_neg hne, hst, Bool.false_eq_true, if_false, modCall_of hc]
  rcases c.held with _ | ⟨_ | _, _⟩ <;> rfl

end

theorem platformUpdates : PlatformUpdates := by
  intro w nv slot c p hc
  refine ⟨updatePlatform_same nv hc, ?_, fun hst hne => ?_⟩
  · rintro o q hst hp rfl hne ho hq
    refine ⟨_, rfl, ?_⟩
    have other : (vacate w o).platform q = w.platform q := platform_setPlatform_ne w _ ho hq hne.symm
    rw [updatePlatform_moves nv hc (occupies_of hst) hp hne, seated, other]
    rfl
  · have waits := updatePlatform_waits nv hc (occupies_not_of hst) hne
    refine ⟨_, retried (replanned (reassigned w slot c p) nv slot) nv slot c.held, rfl, ?_, ?_, fun hp hq => ?_,
      fun h => ?_⟩
    · intro since hh
      rw [hh]
      rfl
    · rintro (hh | ⟨since, hh⟩) <;> rw [hh] <;> rfl
    · rw [waits]
      exact if_pos (by simpa [Option.isSome_iff_ne_none] using ⟨hp, hq⟩)
    · rw [waits]
      exact if_neg (by simpa [Option.isSome_iff_ne_none, or_iff_not_imp_left] using h)

/-- A call that occupies its platform is, after an update onto a free one, the occupant of that one. -/
theorem updatePlatform_seats {w : Vol} {slot q : Nat} {c : Call} (nv : Nonvolatile) (hc : w.call slot = some c)
    (hst : c.state.occupies = true) (hne : c.platform ≠ some q) (hq1 : 1 ≤ q) (hq32 : q ≤ 32)
    (ho : ∀ o, c.platform = some o → 1 ≤ o ∧ o ≤ 32) :
    ((w.updatePlatform nv slot (some q)).call slot).bind (·.platform) = some q
      ∧ ((w.updatePlatform nv slot (some q)).platform q).occupant = some slot := by
  have seats : ∀ v v' : Vol, v.call slot = some c → OfCall slot (seated v slot q c) v' →
      (∃ b, v'.call slot = some { c with platform := some q, announced := b }) ∧ (v'.platform q).occupant = some slot := by
    intro v v' hv k
    refine ⟨k.own _ (call_setCall_of (w := v.setPlatform q _) hv _), ?_⟩
    rw [platform_congr k.platforms, seated, platform_setCall, platform_setPlatform _ _ hq1 hq32]
  cases hp : c.platform with
  | none =>
    rw [updatePlatform_enters nv hc q hst hp]
    obtain ⟨⟨b, hb⟩, occupant⟩ := seats w _ hc (replanned_ofCall _ nv slot)
    exact ⟨by rw [hb]; rfl, occupant⟩
  | some o =>
    have hoq : o ≠ q := fun h => hne (h ▸ hp)
    obtain ⟨⟨b, hb⟩, occupant⟩ := seats (vacate w o) _ hc
      ((replanned_ofCall _ nv slot).trans (fireAndNotify_ofCall _ nv slot .platformChange))
    rw [updatePlatform_moves nv hc hst hp hoq]
    have unheld : ∀ k since, ¬ HeldOn ((replanned (seated (vacate w o) slot q c) nv slot).fireAndNotify nv slot
        .platformChange) o slot k since := by
      rintro k since ⟨x, hx, hxp, -⟩
      obtain rfl := Option.some.inj (hb.symm.trans hx)
      exact hoq (Option.some.inj hxp).symm
    have spares := offerPlatform_spares nv unheld
    exact ⟨by rw [spares.call, hb]; rfl, by rw [spares.platform q (ho o hp).1 hq1 hoq.symm, occupant]⟩

/-! ### A new expected time (R74) -/

theorem call_delay_none {c : Call} (h : c.expected = none) : c.delay = 0 := by
  rw [Call.delay, h]
  rfl

theorem call_delay_some {c : Call} {e : Nat} (h : c.expected = some e) : c.delay = (e - c.scheduled) / 60 := by
  rw [Call.delay, h]
  unfold delayMinutes
  split
  · next heq => simp at heq
  · next x heq =>
    obtain rfl : e = x := Option.some.inj heq
    split
    · next hle => simp [Nat.sub_eq_zero_of_le hle]
    · rfl

theorem expectedUpdates : ExpectedUpdates := by
  refine ⟨?_, fun c => ⟨call_delay_none, fun e he => call_delay_some he⟩⟩
  rintro w w1 nv slot c e hc h1
  refine ⟨?_, fun hx => by simp only [Vol.updateExpected, modCall_of hc, ← h1, hx]⟩
  rintro x n hx rfl
  have update : w.updateExpected nv slot e =
      if (w1.profile x.profile).delayThreshold ≤ x.delay - x.delayRef
          ∨ (w1.profile x.profile).delayThreshold ≤ x.delayRef - x.delay then
        (w1.setCall slot (some { x with delayRef := x.delay })).fireAndNotify nv slot .delay
      else w1 := by
    simp only [Vol.updateExpected, modCall_of hc, ← h1, hx, modCall_of hx]
  rw [update]
  exact ⟨fun h => if_pos (by omega), fun hlow hhigh => if_neg (by omega)⟩

/-! ### The checks of CALL UPDATE (R71) -/

theorem exec_callUpdate (h : RequestHeader) (slot : Nat) (e p : Carried Nat) (s : State) : exec (.callUpdate h slot e p) s
    = .next (takeRequest h 10 (Instr.wf (.callUpdate h slot e p)) (actCallUpdate slot e p) s) := rfl

theorem updateRanges : UpdateRanges := by
  intro slot e p
  have slots : slot < 256 ↔ slot ≤ 255 := Nat.lt_succ_iff
  cases p with
  | value q => cases e <;> simp [updateInRange, within_iff, slots]
  | left => cases e <;> simp [updateInRange, slots]
  | cleared => cases e <;> simp [updateInRange, slots]

/-- What CALL UPDATE does to a call that passes its checks: the platform first, then the expected time. -/
def updated (w : Vol) (nv : Nonvolatile) (slot : Nat) (e p : Carried Nat) : Vol :=
  let v := (Carried.toUpdate p).elim w (w.updatePlatform nv slot)
  (Carried.toUpdate e).elim v (v.updateExpected nv slot)

section

variable {slot : Nat} {c : Call} {s : State} {e p : Carried Nat}

theorem actCallUpdate_badArg (hr : updateInRange slot e p = false) : actCallUpdate slot e p s = refuse .badArg s := by
  simp [actCallUpdate, hr]

theorem actCallUpdate_notFound (hr : updateInRange slot e p = true) (hc : s.vol.call slot = none) :
    actCallUpdate slot e p s = refuse .notFound s := by
  simp [actCallUpdate, hr, hc]

theorem actCallUpdate_wrongState (hr : updateInRange slot e p = true) (hc : s.vol.call slot = some c)
    (h : c.state.updatable = false ∨ (p = .cleared ∧ c.state.occupies = true)) :
    actCallUpdate slot e p s = refuse .wrongState s := by
  have refused : c.state.updatable = false ∨ ((Carried.toUpdate p) = some none ∧ c.state.occupies = true) :=
    h.imp_right fun ⟨hp, hst⟩ => ⟨by rw [hp]; rfl, hst⟩
  simp [actCallUpdate, hr, hc, refused]

theorem actCallUpdate_conflict (hr : updateInRange slot e p = true) (hc : s.vol.call slot = some c)
    (hst : c.state = .boarding ∨ c.state = .final) {q : Nat} (hp : p = .value q) (hne : c.platform ≠ some q)
    (ho : (s.vol.platform q).occupant.isSome = true) : actCallUpdate slot e p s =
      (.of .conflict, { s with vol := s.vol.setPlatform q { s.vol.platform q with conflict := true } }) := by
  have hup : c.state.updatable = true := by rcases hst with h | h <;> rw [h] <;> rfl
  have conflicts : s.vol.updateConflicts c (Carried.toUpdate p) = some q := by
    rw [hp]
    exact if_pos ⟨occupies_of hst, hne, ho⟩
  have taken : ¬ (c.state.updatable = false ∨ ((Carried.toUpdate p) = some none ∧ c.state.occupies = true)) := by
    simp [hup, hp, Carried.toUpdate]
  simp only [actCallUpdate, hr, Bool.not_true, Bool.false_eq_true, hc, if_neg taken, conflicts, if_false]
  rfl

/-- A call to which no check of R71 objects. -/
structure Updatable (w : Vol) (c : Call) (p : Carried Nat) : Prop where
  state : c.state.updatable = true
  keeps : c.state.occupies = true → p ≠ .cleared
  free : ∀ q, c.state.occupies = true → p = .value q → c.platform = some q ∨ (w.platform q).occupant = none

theorem actCallUpdate_updates (hr : updateInRange slot e p = true) (hc : s.vol.call slot = some c)
    (h : Updatable s.vol c p) : actCallUpdate slot e p s = okVol s (updated s.vol s.nv slot e p) := by
  have passes : ¬ (c.state.updatable = false ∨ ((Carried.toUpdate p) = some none ∧ c.state.occupies = true)) := by
    rintro (hst | ⟨hp, hst⟩)
    · simp [h.state] at hst
    · cases p with
      | cleared => exact h.keeps hst rfl
      | left => simp [Carried.toUpdate] at hp
      | value q => simp [Carried.toUpdate] at hp
  have noConflict : s.vol.updateConflicts c (Carried.toUpdate p) = none := by
    cases p with
    | left => rfl
    | cleared => rfl
    | value q =>
      refine if_neg fun ⟨hst, hne, ho⟩ => ?_
      rcases h.free q hst rfl with hq | hq
      · exact hne hq
      · simp [hq] at ho
  simp only [actCallUpdate, hr, Bool.not_true, Bool.false_eq_true, hc, if_neg passes, noConflict, if_false, updated]
  cases Carried.toUpdate p <;> cases Carried.toUpdate e <;> rfl

end

theorem updatable_of {w : Vol} {c : Call} {p : Carried Nat}
    (h : c.state = .planned ∨ c.state = .approaching
      ∨ ((c.state = .boarding ∨ c.state = .final) ∧ p ≠ .cleared
        ∧ ∀ q, p = .value q → c.platform = some q ∨ (w.platform q).occupant = none)) : Updatable w c p := by
  rcases h with hst | hst | ⟨hst, hp, hq⟩
  · refine ⟨by rw [hst]; rfl, fun ho => ?_, fun q ho => ?_⟩ <;> simp [occupies_not_of (.inl hst)] at ho
  · refine ⟨by rw [hst]; rfl, fun ho => ?_, fun q ho => ?_⟩ <;> simp [occupies_not_of (.inr hst)] at ho
  · exact ⟨by rcases hst with h | h <;> rw [h] <;> rfl, fun _ => hp, fun q _ => hq q⟩

theorem callUpdateTaken : CallUpdateTaken := by
  intro h slot e p s place hs
  have he := exec_callUpdate h slot e p s
  refine ⟨fun hr => declines_of_act he hs (by decide) (actCallUpdate_badArg hr),
    fun hr hc => declines_of_act he hs (by decide) (actCallUpdate_notFound hr hc), fun c hr hc => ⟨fun hst => ?_,
      fun q hst hp hne ho => answers_of_answer (a := .of .conflict) he hs (by decide)
        (actCallUpdate_conflict hr hc hst hp hne ho), fun hst => ?_, fun q hst hp hleft ho hne hold => ?_⟩⟩
  · refine declines_of_act he hs (by decide) (actCallUpdate_wrongState hr hc ?_)
    rcases hst with hst | hst | hst | ⟨hp, hst⟩
    · exact .inl (by rw [hst]; rfl)
    · exact .inl (by rw [hst]; rfl)
    · exact .inl (by rw [hst]; rfl)
    · exact .inr ⟨hp, occupies_of hst⟩
  · have answers := answers_of_act he hs (by decide) (actCallUpdate_updates hr hc (updatable_of hst))
    rcases p with _ | _ | q <;> rcases e with _ | _ | t <;> exact answers
  · obtain ⟨-, -, hrange⟩ := (updateRanges slot e p).mp hr
    obtain ⟨hq1, hq32⟩ := hrange q hp
    have passes : Updatable s.vol c p := updatable_of (.inr (.inr ⟨hst, by simp [hp], fun x hx => by
      obtain rfl : q = x := by simpa [hp] using hx
      exact .inr ho⟩))
    have answers := answers_of_act he hs (by decide) (actCallUpdate_updates hr hc passes)
    subst hp hleft
    exact ⟨_, answers, updatePlatform_seats s.nv hc (occupies_of hst) hne hq1 hq32 hold⟩

/-- Settles O32: the checks and ranges of the request, then the steps of each kind of update. -/
theorem callUpdated : Obligations.CallUpdated :=
  ⟨callUpdateTaken, updateRanges, platformUpdates, ownTrigger, voicedRequestsReturn, expectedUpdates⟩

end Sys2Proof.Calls
end

section
/-! PROOFS. The phrase tables (5.2, R83, R84): a record written, the resets, and the reading of entries in an expansion. -/

namespace Sys2Proof.Phrases

open Sys2Proof.Machine Sys2Proof.Laws Sys2Proof.Statements
open Sys2Proof.Live (declines_of_act answers_of_act)

/-! ### A record of a phrase class (R83) -/

theorem phraseInRange_iff (lo n first : Nat) (es : List (Option Nat)) :
    phraseInRange lo n first es = true ↔ PhrasePasses lo n first es := by
  have hclips : (∀ e ∈ es, ∀ c, e = some c → c < 1024) ↔ ∀ c, some c ∈ es → c < 1024 :=
    ⟨fun h c hc => h _ hc c rfl, fun h e he c hc => h c (hc ▸ he)⟩
  simp [phraseInRange, PhrasePasses, within_iff, optBelow_iff, hclips, and_assoc]

theorem writePhrases_cons {n : Nat} (t : Vector (Option Nat) n) (i : Nat) (e : Option Nat) (es : List (Option Nat)) :
    writePhrases t i (e :: es) = writePhrases (tset t i e) (i + 1) es := rfl

/-- The entries stand at consecutive places from `i`, the others stand. -/
theorem tget_writePhrases {n : Nat} (t : Vector (Option Nat) n) (i : Nat) (es : List (Option Nat)) {k : Nat} (hk : k < n) :
    tget none (writePhrases t i es) k = if i ≤ k ∧ k < i + es.length then es.getD (k - i) none else tget none t k := by
  induction es generalizing t i with
  | nil => exact (if_neg (by simp)).symm
  | cons e es ih =>
    rw [writePhrases_cons, ih, List.length_cons]
    rcases Nat.lt_trichotomy k i with h | rfl | h
    · rw [if_neg (by omega), if_neg (by omega), tget_tset_ne _ _ _ (by omega)]
    · rw [if_neg (by omega), if_pos (by omega), tget_tset_self _ _ _ hk, Nat.sub_self, List.getD_cons_zero]
    · obtain ⟨d, rfl⟩ := Nat.exists_eq_add_of_lt h
      rw [tget_tset_ne _ _ _ (by omega), show i + d + 1 - (i + 1) = d by omega, show i + d + 1 - i = d + 1 by omega,
        List.getD_cons_succ]
      exact if_congr (by omega) rfl rfl

theorem written_writePhrases {n lo first : Nat} (t : Vector (Option Nat) n) (es : List (Option Nat)) (h : lo ≤ first) :
    Written t (writePhrases t (first - lo) es) lo first es := by
  intro k hk
  rw [tget_writePhrases t _ es hk, show k - (first - lo) = lo + k - first by omega]
  exact if_congr (by omega) rfl rfl

/-- The rule for a class whose command writes the table as R83 says when the record passes, and refuses it when it does not. -/
theorem phraseRule_of_act {n : Nat} {make : RequestHeader → Nat → List (Option Nat) → Instr}
    {table : Vol → Vector (Option Nat) n} {put : Vol → Vector (Option Nat) n → Vol} {lo : Nat}
    {act : Nat → List (Option Nat) → Act}
    (he : ∀ h first es s, exec (make h first es) s = .next (takeRequest h 6 (make h first es).wf (act first es) s))
    (hact : ∀ first es s, act first es s = if phraseInRange lo n first es then
      okVol s (put s.vol (writePhrases (table s.vol) (first - lo) es)) else refuse .badArg s) :
    PhraseRule make table put lo := by
  intro h first es s place hs
  refine ⟨fun passes => ?_, fun fails => ?_⟩
  · have ⟨_, _, _, hfirst, _⟩ := passes
    refine ⟨_, written_writePhrases (table s.vol) es hfirst, answers_of_act (he h first es s) hs (by decide) ?_⟩
    rw [hact, if_pos ((phraseInRange_iff lo n first es).mpr passes)]
  · refine declines_of_act (he h first es s) hs (by decide) ?_
    rw [hact, if_neg (mt (phraseInRange_iff lo n first es).mp fails)]

/-! ### The resets (R83, R161, R183) -/

theorem phrasesKept_trans {a b c : Vol} (h : PhrasesKept a b) (k : PhrasesKept b c) : PhrasesKept a c := by
  obtain ⟨h1, h2, h3, h4, h5⟩ := h
  obtain ⟨k1, k2, k3, k4, k5⟩ := k
  exact ⟨k1.trans h1, k2.trans h2, k3.trans h3, k4.trans h4, k5.trans h5⟩

theorem phrasesEmpty_of_kept {w w' : Vol} (k : PhrasesKept w w') (h : PhrasesEmpty w) : PhrasesEmpty w' := by
  obtain ⟨h1, h2, h3, h4, h5⟩ := h
  obtain ⟨k1, k2, k3, k4, k5⟩ := k
  exact ⟨k1.trans h1, k2.trans h2, k3.trans h3, k4.trans h4, k5.trans h5⟩

theorem phrasesKept_of_within {w w' : Vol} (h : w.Within w') : PhrasesKept w w' :=
  have hours := congrArg (fun v : Vol => v.hours) h.fixed
  have minutes := congrArg (fun v : Vol => v.minutes) h.fixed
  have numbers := congrArg (fun v : Vol => v.numbers) h.fixed
  have platforms := congrArg (fun v : Vol => v.platPhrases) h.fixed
  have dests := congrArg (fun v : Vol => v.dests) h.fixed
  ⟨hours, minutes, numbers, platforms, dests⟩

theorem resetNotices_within (w : Vol) : w.Within w.resetNotices := by
  unfold Vol.resetNotices
  refine (Vol.Within.foldl _ _ _ fun v r => endNotice_within v r .reset).trans (Vol.Within.foldl _ _ _ fun v l => ?_)
  split
  · exact notify_within _ _
  · exact .refl v

/-- The soft AUDIO column has none of the phrase tables. -/
theorem resetAudio_keepsPhrases (w : Vol) : PhrasesKept w w.resetAudio := by
  have dropped : PhrasesKept w w.dropNotices := ⟨rfl, rfl, rfl, rfl, rfl⟩
  have noted := phrasesKept_trans dropped (phrasesKept_of_within (resetNotices_within w.dropNotices))
  unfold Vol.resetAudio
  generalize w.dropNotices.resetNotices = u at noted
  exact noted

theorem resetFull_emptiesPhrases (w : Vol) (pr : Programme) : PhrasesEmpty (w.resetFull pr) := ⟨rfl, rfl, rfl, rfl, rfl⟩

/-- The reply to a request and the end of its event leave the phrase tables. -/
theorem happens_keepsPhrases {i : Instr} {s s' : State} {h : RequestHeader} {kind place : Nat} {code : ResultCode}
    {body : ReplyBody} (ha : Answers i s s' h kind place code body) : ∃ t, exec i s = .next t ∧ PhrasesKept s'.vol t.vol := by
  obtain ⟨t, ht, ends⟩ := ha
  have replied : PhrasesKept s'.vol (s'.replied h kind place code body).vol := ⟨rfl, rfl, rfl, rfl, rfl⟩
  exact ⟨t, ht, phrasesKept_trans replied (phrasesKept_of_within ends.vol.toWithin)⟩

theorem exec_resetAudio (h : RequestHeader) (s : State) :
    exec (.resetAudio h) s = .next (takeRequest h 4 (Instr.wf (.resetAudio h)) actResetAudio s) := rfl

theorem exec_resetFull (h : RequestHeader) (s : State) :
    exec (.resetFull h) s = .next (takeRequest h 4 (Instr.wf (.resetFull h)) actResetFull s) := rfl

theorem actResetAudio_normal {s : State} (h : s.vol.evac.state = .normal) :
    actResetAudio s = okVol s s.vol.resetAudio := if_neg (not_not_intro h)

theorem actResetFull_normal {s : State} (h : s.vol.evac.state = .normal) (hw : s.vol.store.op.isProgramWrite = false) :
    actResetFull s = okVol s (s.vol.resetFull (s.nv.loaded s.vol.store.programmeValid)) := by
  simp [actResetFull, h, hw]

theorem lineReset_emptiesPhrases {s : State} (h : s.power ≠ .off) :
    ∃ t, exec .lineReset s = .next t ∧ PhrasesEmpty t.vol := by
  refine ⟨_, Zones.exec_lineReset s, ?_⟩
  rw [Zones.assertReset_on h]
  exact ⟨rfl, rfl, rfl, rfl, rfl⟩

/-! ### An expansion reads the entries (R84) -/

theorem fieldPhrases_read (w : Vol) (x : Spoken) (p d t n : Nat) (hp : x.platform = some p) (hd : x.destination = some d)
    (ht : x.scheduled = some t) (hn : x.delay = some (n + 1)) :
    w.fieldPhrases x .platform = ([tget none w.platPhrases (p - 1)], false)
      ∧ w.fieldPhrases x .destination = ([tget none w.dests d], false)
      ∧ w.fieldPhrases x .scheduled =
          ([tget none w.hours (w.timeOfDay t / 3600), tget none w.minutes (w.timeOfDay t % 3600 / 60)], false)
      ∧ w.fieldPhrases x .delay = ([tget none w.numbers (min n 99)], false) := by
  refine ⟨?_, ?_, ?_, ?_⟩
  · simp only [Vol.fieldPhrases, hp]
  · simp only [Vol.fieldPhrases, hd]
  · simp only [Vol.fieldPhrases, ht, Vol.timePhrases]
  · simp only [Vol.fieldPhrases, hn]

/-- Settles O25: one rule for the five classes, by induction on the entries written; then the four resets, and the reading. -/
theorem phrasesWritten : Obligations.PhrasesWritten := by
  refine ⟨phraseRule_of_act (fun _ _ _ _ => rfl) fun _ _ _ => rfl, phraseRule_of_act (fun _ _ _ _ => rfl) fun _ _ _ => rfl,
    phraseRule_of_act (fun _ _ _ _ => rfl) fun _ _ _ => rfl, phraseRule_of_act (fun _ _ _ _ => rfl) fun _ _ _ => rfl,
    phraseRule_of_act (fun _ _ _ _ => rfl) fun _ _ _ => rfl, fun s => ⟨_, Zones.exec_powerOn s, rfl, rfl, rfl, rfl, rfl⟩,
    fun s => lineReset_emptiesPhrases, fun h s place hs hn hw => ?_, fun h s place hs hn => ?_, fieldPhrases_read⟩
  · obtain ⟨t, ht, kept⟩ := happens_keepsPhrases
      (answers_of_act (exec_resetFull h s) hs (by decide) (actResetFull_normal hn hw))
    exact ⟨t, ht, phrasesEmpty_of_kept kept (resetFull_emptiesPhrases _ _)⟩
  · obtain ⟨t, ht, kept⟩ := happens_keepsPhrases
      (answers_of_act (exec_resetAudio h s) hs (by decide) (actResetAudio_normal hn))
    exact ⟨t, ht, phrasesKept_trans (resetAudio_keepsPhrases s.vol) kept⟩

end Sys2Proof.Phrases
end

section
/-! PROOFS. The request queue (Chapter 5): how a request is read, changed and removed, and what the operations of the arbiter and
of the voices leave of the queue. -/

namespace Sys2Proof.Requests

open Sys2Proof.Machine Sys2Proof.Laws Sys2Proof.Statements

/-! ### Reading a request -/

theorem number_of_request {w : Vol} {n : Nat} {r : Request} (h : w.request n = some r) : r.number = n := by
  simpa using List.find?_some h

theorem mem_of_request {w : Vol} {n : Nat} {r : Request} (h : w.request n = some r) : r ∈ w.queue.requests :=
  List.mem_of_find?_eq_some h

theorem request_congr {w w' : Vol} (h : w'.queue = w.queue) (n : Nat) : w'.request n = w.request n := by
  rw [Vol.request, h, Vol.request]

theorem isPlaying_iff (r : Request) : r.isPlaying = true ↔ ∃ v, r.state = .playing v := by
  unfold Request.isPlaying
  cases r.state <;> simp

/-- R92, R93, R89: the model's test of one moment. -/
theorem sameMoment_iff (a b : Request) : a.sameMoment b = true ↔ SameMoment a b := by
  unfold Request.sameMoment SameMoment
  cases a.origin with
  | timetable =>
    cases a.call with
    | none => simp
    | some c =>
      simp only [Option.isSome_some, Bool.true_and, Bool.and_eq_true, decide_eq_true_eq, true_and, Option.some.injEq,
        exists_eq_left', reduceCtorEq, false_and, or_false]
      rw [eq_comm (a := b.call)]
  | contact => simp
  | direct => simp
  | evac => simp

/-- R87: the queue's order. -/
theorem before_iff (a b : Request) :
    a.before b = true ↔ b.priority < a.priority ∨ (a.priority = b.priority ∧ a.stamp < b.stamp) := by
  simp [Request.before]

theorem before_asymm {a b : Request} (h : a.before b = true) : b.before a = false := by
  rw [before_iff] at h
  rw [← Bool.not_eq_true, before_iff]
  omega

/-! ### A request is removed (R87, R99) -/

/-- The entry of request `n` is freed and its REQUEST END sent. -/
def dequeued (w : Vol) (n : Nat) (r : Request) (o : ReqOutcome) : Vol :=
  ({ w with queue := { w.queue with requests := w.queue.requests.filter fun x => decide (x.number ≠ n) } }).notify
    (.requestEnd (some n) r.origin r.call r.platform r.template r.priority o)

theorem removeRequest_absent {w : Vol} {n : Nat} (o : ReqOutcome) (h : w.request n = none) : w.removeRequest n o = w := by
  simp only [Vol.removeRequest, h]

theorem removeRequest_eq {w : Vol} {n : Nat} {r : Request} (o : ReqOutcome) (h : w.request n = some r) :
    w.removeRequest n o = r.voice?.elim (dequeued w n r o) fun v => (dequeued w n r o).releaseVoice v := by
  obtain rfl := number_of_request h
  simp only [Vol.removeRequest, h]
  cases r.voice? <;> rfl

theorem removeRequest_waiting {w : Vol} {n : Nat} {r : Request} (o : ReqOutcome) (h : w.request n = some r)
    (hs : r.state = .pending ∨ r.state = .ready) : w.removeRequest n o = dequeued w n r o := by
  rw [removeRequest_eq o h]
  rcases hs with hs | hs <;> simp only [Request.voice?, hs, Option.elim_none]

theorem removeRequest_voiced {w : Vol} {n v : Nat} {r : Request} (o : ReqOutcome) (h : w.request n = some r)
    (hs : r.state = .voiced v ∨ r.state = .playing v) : w.removeRequest n o = (dequeued w n r o).releaseVoice v := by
  rw [removeRequest_eq o h]
  rcases hs with hs | hs <;> simp only [Request.voice?, hs, Option.elim_some]

/-! ### The arbiter leaves the queue -/

theorem queue_foldl {β : Type} {f : Vol → β → Vol} (l : List β) (w : Vol) (h : ∀ v b, (f v b).queue = v.queue) :
    (l.foldl f w).queue = w.queue :=
  foldl_keeps (fun v => v.queue = w.queue) f l w rfl fun v b hv => (h v b).trans hv

theorem queue_takeZone (w : Vol) (c z : Nat) : (w.takeZone c z).queue = w.queue := by
  unfold Vol.takeZone Vol.preempt
  split
  · split
    · rfl
    · split
      · split <;> rfl
      · rfl
  · rfl

theorem queue_joinTake (w : Vol) (c : Nat) : (w.joinTake c).queue = w.queue := by
  unfold Vol.joinTake
  split
  · refine queue_foldl _ _ fun v z => ?_
    split
    · exact queue_takeZone _ _ _
    · rfl
  · rfl

theorem queue_wholeTake (w : Vol) (c : Nat) : (w.wholeTake c).queue = w.queue := by
  unfold Vol.wholeTake
  split
  · split
    · exact queue_foldl _ _ fun v z => queue_takeZone _ _ _
    · rfl
  · rfl

theorem queue_partTake (w : Vol) (c : Nat) : (w.partTake c).queue = w.queue := by
  unfold Vol.partTake
  split
  · split
    · refine queue_foldl _ _ fun v z => ?_
      split
      · exact queue_takeZone _ _ _
      · rfl
    · rfl
  · rfl

theorem queue_modeTake (w : Vol) (c : Nat) : (w.modeTake c).queue = w.queue := by
  unfold Vol.modeTake
  split
  · split
    · exact queue_joinTake _ _
    · exact queue_wholeTake _ _
    · exact queue_partTake _ _
  · rfl

theorem queue_releaseClaim (w : Vol) (c : Nat) : (w.releaseClaim c).queue = w.queue := by
  unfold Vol.releaseClaim
  split
  · next x _ =>
    have left : (x.waitingZones.foldl (fun v z => v.leaveWait c z) w).queue = w.queue := queue_foldl _ _ fun _ _ => rfl
    have freed := queue_foldl (f := fun (v : Vol) z => v.modZone z fun y => { y with holder := none }) x.heldZones
      (x.waitingZones.foldl (fun v z => v.leaveWait c z) w) fun _ _ => rfl
    exact (queue_foldl _ _ queue_modeTake).trans (freed.trans left)
  · rfl

theorem queue_placeClaim (w : Vol) (o : Owner) (g p : Nat) (m : ClaimMode) : (w.placeClaim o g p m).2.queue = w.queue := by
  have renumbered : w.renumberClaims.queue = w.queue :=
    queue_foldl (f := fun (v : Vol) (e : Nat × Nat) => v.modClaim e.1 fun x => { x with stamp := e.2 }) _ w fun _ _ => rfl
  have stamped : (if w.stampCounter = Config.maxStamp then w.renumberClaims else w).queue = w.queue := by
    split
    · exact renumbered
    · rfl
  unfold Vol.placeClaim
  dsimp only
  generalize (if w.stampCounter = Config.maxStamp then w.renumberClaims else w) = u at stamped
  split
  · rfl
  · rfl
  · next c _ _ =>
    have waits := fun (l : List Nat) (v : Vol) => queue_foldl (f := fun (v : Vol) z => v.enterWait c z) l v fun _ _ => rfl
    exact (queue_modeTake _ _).trans ((waits _ _).trans stamped)

/-! ### The voices leave the queue -/

theorem queue_makeDemand (w : Vol) (v : Nat) : (w.makeDemand v).queue = w.queue := by
  unfold Vol.makeDemand
  dsimp only
  split
  · rfl
  · split <;> rfl

theorem queue_setVoice (w : Vol) (v : Nat) (x : Voice) : (w.setVoice v x).queue = w.queue := rfl
theorem queue_lowerUses (w : Vol) (fs : List Fragment) : (w.lowerUses fs).queue = w.queue := rfl
theorem queue_withdrawDemand (w : Vol) (v : Nat) : (w.withdrawDemand v).queue = w.queue := rfl

theorem queue_releaseVoice (w : Vol) (v : Nat) : (w.releaseVoice v).queue = w.queue := by
  have rest : ∀ (u : Vol) (fs : List Fragment) (x : Voice),
      (((u.lowerUses fs).withdrawDemand v).setVoice v x).queue = u.queue := fun u fs x =>
    (queue_setVoice _ v x).trans ((queue_withdrawDemand _ v).trans (queue_lowerUses u fs))
  unfold Vol.releaseVoice
  dsimp only
  rw [rest]
  split
  · exact queue_releaseClaim w _
  · rfl

@[simp] theorem request_releaseVoice (w : Vol) (v n : Nat) : (w.releaseVoice v).request n = w.request n :=
  request_congr (queue_releaseVoice w v) n

theorem requests_removeRequest (w : Vol) (n : Nat) (o : ReqOutcome) :
    (w.removeRequest n o).queue.requests = w.queue.requests.filter fun x => decide (x.number ≠ n) := by
  cases h : w.request n with
  | none =>
    rw [removeRequest_absent o h]
    refine (List.filter_eq_self.mpr fun x hx => ?_).symm
    simpa using List.find?_eq_none.mp h x hx
  | some r =>
    have freed : (dequeued w n r o).queue.requests = w.queue.requests.filter fun x => decide (x.number ≠ n) := by
      simp [dequeued]
    rw [removeRequest_eq o h]
    cases r.voice? with
    | none => exact freed
    | some v => exact (congrArg (·.requests) (queue_releaseVoice _ v)).trans freed

/-- A removed request is not in the queue. -/
theorem request_removeRequest (w : Vol) (n : Nat) (o : ReqOutcome) : (w.removeRequest n o).request n = none := by
  rw [Vol.request, requests_removeRequest, List.find?_eq_none]
  simp

end Sys2Proof.Requests
end

section
/-! PROOFS. How a request is created (5.3, 5.4): room and eviction (R88), its number and its stamp (R85), the moment it stands for
(R89), its place in the queue (R87); ANNOUNCE (R94). -/

namespace Sys2Proof.Requests

open Sys2Proof.Machine Sys2Proof.Laws Sys2Proof.Statements
open Sys2Proof.Zones (insertBy_append sortBy_perm sortBy_key_pairwise)
open Sys2Proof.Live (declines_of_act)
open Sys2Proof.Calls (answers_of_answer)

/-! ### Room (R88) -/

/-- The sort's first element is the one that stands before every other. -/
theorem head?_sortBy {α : Type} {lt : α → α → Bool} {l : List α} {r : α} (hr : r ∈ l)
    (least : ∀ x ∈ l, x ≠ r → lt r x = true ∧ lt x r = false) : (sortBy lt l).head? = some r := by
  induction l with
  | nil => simp at hr
  | cons x t ih =>
    have leastT : ∀ y ∈ t, y ≠ r → lt r y = true ∧ lt y r = false := fun y hy => least y (List.mem_cons_of_mem x hy)
    unfold sortBy
    by_cases hx : x = r
    · subst hx
      cases hs : sortBy lt t with
      | nil => rfl
      | cons y u =>
        have hy : y ∈ t := (sortBy_perm lt t).mem_iff.mp (hs ▸ List.mem_cons_self)
        unfold insertBy
        split
        · rfl
        · next hxy =>
          by_contra hne
          exact hxy (leastT y hy fun h => hne (by simp [h])).1
    · have hfirst := ih ((List.mem_cons.mp hr).resolve_left (Ne.symm hx)) leastT
      obtain ⟨u, hs⟩ := List.head?_eq_some_iff.mp hfirst
      simp [hs, insertBy, (least x List.mem_cons_self hx).2]

theorem hasRoom_iff (w : Vol) (p : Nat) : w.hasRoom p = true ↔ HasRoom w p := by
  simp only [Vol.hasRoom, Bool.and_eq_true, Bool.or_eq_true, decide_eq_true_eq]
  rfl

theorem mem_yielding (w : Vol) (p : Nat) (r : Request) :
    r ∈ (w.queue.requests.filter fun r => r.isWaiting && decide (r.priority < p)) ↔ CanYield w p r := by
  simp [CanYield, Request.isWaiting]

theorem makeRoom_stands {w : Vol} {p : Nat} (h : HasRoom w p) : w.makeRoom p = some w :=
  if_pos ((hasRoom_iff w p).mpr h)

theorem makeRoom_evicts {w : Vol} {p : Nat} {r : Request} (h : ¬ HasRoom w p) (hr : CanYield w p r)
    (last : ∀ x, CanYield w p x → x ≠ r → r.priority < x.priority ∨ (r.priority = x.priority ∧ x.stamp < r.stamp)) :
    w.makeRoom p = some (w.removeRequest r.number .evicted) := by
  have chosen : w.evictable p = some r := by
    refine head?_sortBy ((mem_yielding w p r).mpr hr) fun x hx hne => ?_
    have later : x.before r = true :=
      (before_iff x r).mpr ((last x ((mem_yielding w p x).mp hx) hne).imp_right fun ⟨hp, hs⟩ => ⟨hp.symm, hs⟩)
    exact ⟨later, before_asymm later⟩
  simp [Vol.makeRoom, mt (hasRoom_iff w p).mp h, chosen]

theorem makeRoom_none {w : Vol} {p : Nat} (h : ¬ HasRoom w p) (hr : ∀ r, ¬ CanYield w p r) : w.makeRoom p = none := by
  have nobody : w.queue.requests.filter (fun r => r.isWaiting && decide (r.priority < p)) = [] :=
    List.eq_nil_iff_forall_not_mem.mpr fun r => mt (mem_yielding w p r).mp (hr r)
  simp [Vol.makeRoom, mt (hasRoom_iff w p).mp h, Vol.evictable, nobody, sortBy]

theorem roomMade : RoomMade := fun _ _ => ⟨makeRoom_stands, makeRoom_none, fun _ => makeRoom_evicts⟩

/-! ### The number (R85) -/

/-- The numbers of the requests in the queue. -/
def numbers (w : Vol) : List Nat := w.queue.requests.map (·.number)

theorem mem_numbers (w : Vol) (n : Nat) : n ∈ numbers w ↔ ∃ x ∈ w.queue.requests, x.number = n := List.mem_map

theorem freeNumber_succ (w : Vol) (fuel n : Nat) :
    w.freeNumber (fuel + 1) n = if n ∈ numbers w then w.freeNumber fuel ((n + 1) % 65536) else n := by
  simp [Vol.freeNumber, mem_numbers]

/-- The search gives the first number from `n` on that no request holds, when its steps reach it. -/
theorem freeNumber_first {w : Vol} {k fuel n : Nat} (hk : k < fuel) (hn : n < 65536)
    (held : ∀ j < k, (n + j) % 65536 ∈ numbers w) (free : (n + k) % 65536 ∉ numbers w) :
    w.freeNumber fuel n = (n + k) % 65536 := by
  induction k generalizing fuel n with
  | zero =>
    obtain ⟨fuel, rfl⟩ := Nat.exists_eq_succ_of_ne_zero (Nat.ne_of_gt hk)
    have hself : (n + 0) % 65536 = n := by omega
    rw [hself] at free ⊢
    rw [freeNumber_succ, if_neg free]
  | succ k ih =>
    obtain ⟨fuel, rfl⟩ := Nat.exists_eq_succ_of_ne_zero (Nat.ne_of_gt (Nat.zero_lt_of_lt hk))
    have hstep : ∀ j, ((n + 1) % 65536 + j) % 65536 = (n + (j + 1)) % 65536 := fun j => by omega
    have hself : n ∈ numbers w := by simpa [Nat.mod_eq_of_lt hn] using held 0 (Nat.succ_pos k)
    rw [freeNumber_succ, if_pos hself, ih (by omega) (by omega) (fun j hj => hstep j ▸ held (j + 1) (by omega))
      (hstep k ▸ free), hstep]

/-- Among 65 numbers one is free, when at most 64 are held. -/
theorem exists_free {w : Vol} (hlen : w.queue.requests.length ≤ 64) (n : Nat) :
    ∃ k ≤ 64, (n + k) % 65536 ∉ numbers w := by
  by_contra hall
  push Not at hall
  have different : ((List.range 65).map fun k => (n + k) % 65536).Nodup := by
    refine List.nodup_range.map_on fun a ha b hb hab => ?_
    rw [List.mem_range] at ha hb
    omega
  have held : ((List.range 65).map fun k => (n + k) % 65536) ⊆ numbers w := by
    intro m hm
    obtain ⟨k, hk, rfl⟩ := List.mem_map.mp hm
    exact hall k (Nat.le_of_lt_succ (List.mem_range.mp hk))
  have hle := (different.subperm held).length_le
  simp only [numbers, List.length_map, List.length_range] at hle
  omega

/-- In a queue of at most 64 requests the search finds a free number. -/
theorem freeNumber_free {w : Vol} (hlen : w.queue.requests.length ≤ 64) {n : Nat} (hn : n < 65536) :
    w.freeNumber 65 n ∉ numbers w := by
  have hex := exists_free hlen n
  have hex' : ∃ k, (n + k) % 65536 ∉ numbers w := hex.imp fun _ h => h.2
  obtain ⟨k, hk, hfree⟩ := hex
  have hmin := Nat.find_min' hex' hfree
  rw [freeNumber_first (by omega) hn (fun j hj => not_not.mp (Nat.find_min hex' hj)) (Nat.find_spec hex')]
  exact Nat.find_spec hex'

/-! ### The stamps given anew (R85) -/

/-- The place of a stamp among the stamps of the queue. -/
def rank (l : List Request) (stamp : Nat) : Nat := (l.filter fun y => decide (y.stamp < stamp)).length

theorem rank_lt_length {l : List Request} {x : Request} (hx : x ∈ l) : rank l x.stamp < l.length :=
  List.length_filter_lt_length_iff_exists.mpr ⟨x, hx, by simp⟩

theorem rank_lt_rank {l : List Request} {x : Request} (hx : x ∈ l) {stamp : Nat} (h : x.stamp < stamp) :
    rank l x.stamp < rank l stamp := by
  have below : (l.filter fun y => decide (y.stamp < x.stamp))
      = (l.filter fun y => decide (y.stamp < stamp)).filter fun y => decide (y.stamp < x.stamp) := by
    rw [List.filter_filter]
    refine List.filter_congr fun y _ => ?_
    by_cases hy : y.stamp < x.stamp <;> simp [hy]
    omega
  unfold rank
  rw [below]
  exact List.length_filter_lt_length_iff_exists.mpr ⟨x, by simp [hx, h], by simp⟩

theorem rank_inj {l : List Request} {x y : Request} (hx : x ∈ l) (hy : y ∈ l) (h : rank l x.stamp = rank l y.stamp) :
    x.stamp = y.stamp := by
  rcases Nat.lt_trichotomy x.stamp y.stamp with hlt | heq | hlt
  · exact absurd h (Nat.ne_of_lt (rank_lt_rank hx hlt))
  · exact heq
  · exact absurd h (Nat.ne_of_gt (rank_lt_rank hy hlt))

/-- In a list that rises by its stamps a request stands at the place of its stamp. -/
theorem findIdx?_of_rising {l : List Request} (hl : l.Pairwise fun a b => a.stamp < b.stamp) {p : Request → Bool}
    {x : Request} (hx : x ∈ l) (hp : ∀ y ∈ l, p y = true ↔ y = x) : l.findIdx? p = some (rank l x.stamp) := by
  obtain ⟨a, b, rfl⟩ := List.append_of_mem hx
  obtain ⟨-, hxb, hab⟩ := List.pairwise_append.mp hl
  have before : ∀ y ∈ a, y.stamp < x.stamp := fun y hy => hab y hy x List.mem_cons_self
  have behind : ∀ y ∈ x :: b, ¬ y.stamp < x.stamp := by
    intro y hy
    rcases List.mem_cons.mp hy with rfl | hy
    · exact Nat.lt_irrefl _
    · exact Nat.not_lt.mpr (Nat.le_of_lt (List.rel_of_pairwise_cons hxb hy))
  have hrank : rank (a ++ x :: b) x.stamp = a.length := by
    rw [rank, List.filter_append, List.filter_eq_self.mpr (by simpa using before),
      List.filter_eq_nil_iff.mpr (by simpa using behind), List.append_nil]
  have hnone : ∀ y ∈ a, p y = false := by
    intro y hy
    rw [← Bool.not_eq_true, hp y (List.mem_append_left _ hy)]
    rintro rfl
    exact Nat.lt_irrefl _ (before y hy)
  have hself : p x = true := (hp x hx).mpr rfl
  rw [hrank, List.findIdx?_append, List.findIdx?_eq_none_iff.mpr hnone, List.findIdx?_cons, if_pos hself]
  simp

/-- The stamp that the model gives anew to the request of number `n`: its place in the order of the stamps. -/
def newStamp (l : List Request) (n : Nat) : Nat :=
  ((sortBy (fun (a b : Request) => decide (a.stamp < b.stamp)) l).findIdx? fun r => decide (r.number = n)).getD 0

theorem newStamp_eq {l : List Request} (hnumbers : (l.map (·.number)).Nodup) (hstamps : (l.map (·.stamp)).Nodup) {x : Request}
    (hx : x ∈ l) : newStamp l x.number = rank l x.stamp := by
  have hperm := sortBy_perm (fun a b : Request => decide (a.stamp < b.stamp)) l
  have rising := sortBy_key_pairwise (fun r : Request => r.stamp) (List.pairwise_map.mp hstamps)
  have named : ∀ y ∈ sortBy (fun a b : Request => decide (a.stamp < b.stamp)) l,
      decide (y.number = x.number) = true ↔ y = x := fun y hy => by
    rw [decide_eq_true_eq]
    exact ⟨fun h => List.inj_on_of_nodup_map hnumbers (hperm.mem_iff.mp hy) hx h, fun h => h ▸ rfl⟩
  rw [newStamp, findIdx?_of_rising rising (hperm.mem_iff.mpr hx) named]
  exact (hperm.filter _).length_eq

theorem renumberRequests_eq (w : Vol) : w.renumberRequests =
    { w with queue := { w.queue with
      requests := w.queue.requests.map fun r => { r with stamp := newStamp w.queue.requests r.number }
      nextStamp := w.queue.requests.length } } := rfl

/-- The part with stamps to give: a stamp counter at its largest value starts anew behind the stamps given anew. -/
def renewed (w : Vol) : Vol := if w.queue.nextStamp = 4294967295 then w.renumberRequests else w

theorem renewed_of_max {w : Vol} (h : w.queue.nextStamp = 4294967295) : renewed w = w.renumberRequests := if_pos h
theorem renewed_of_low {w : Vol} (h : w.queue.nextStamp ≠ 4294967295) : renewed w = w := if_neg h

/-- What holds of the part and of the part with stamps given anew holds of the part with stamps to give. -/
theorem renewed_induction (P : Vol → Prop) (w : Vol) (hlow : P w) (hmax : P w.renumberRequests) : P (renewed w) := by
  unfold renewed
  split
  · exact hmax
  · exact hlow

theorem renewed_queue (w : Vol) (q : RequestQueue) : { renewed w with queue := q } = { w with queue := q } :=
  renewed_induction (fun u => { u with queue := q } = { w with queue := q }) w rfl rfl

theorem renewed_clock (w : Vol) : (renewed w).clock = w.clock := renewed_induction (fun u => u.clock = w.clock) w rfl rfl

theorem renewed_nextNumber (w : Vol) : (renewed w).queue.nextNumber = w.queue.nextNumber :=
  renewed_induction (fun u => u.queue.nextNumber = w.queue.nextNumber) w rfl rfl

theorem numbers_renewed (w : Vol) : numbers (renewed w) = numbers w :=
  renewed_induction (fun u => numbers u = numbers w) w rfl (by simp [numbers, renumberRequests_eq])

theorem length_renewed (w : Vol) : (renewed w).queue.requests.length = w.queue.requests.length :=
  renewed_induction (fun u => u.queue.requests.length = w.queue.requests.length) w rfl (by simp [renumberRequests_eq])

/-- Stamps given anew stand in the existing order. -/
theorem requests_renumberRequests {w : Vol} (h : QueueDistinct w) : w.renumberRequests.queue.requests =
    w.queue.requests.map fun x => { x with stamp := rank w.queue.requests x.stamp } := by
  obtain ⟨hnumbers, hstamps, -, -⟩ := h
  rw [renumberRequests_eq]
  exact List.map_congr_left fun x hx => by rw [newStamp_eq hnumbers hstamps hx]

theorem queueDistinct_renumberRequests {w : Vol} (h : QueueDistinct w) : QueueDistinct w.renumberRequests := by
  have hrequests := requests_renumberRequests h
  obtain ⟨hnumbers, hstamps, -, hcounter⟩ := h
  unfold QueueDistinct
  rw [hrequests, List.map_map, List.map_map]
  refine ⟨hnumbers, ?_, fun r hr => ?_, hcounter⟩
  · refine (List.Nodup.of_map _ hstamps).map_on fun x hx y hy hxy => ?_
    exact List.inj_on_of_nodup_map hstamps hx hy (rank_inj hx hy hxy)
  · obtain ⟨x, hx, rfl⟩ := List.mem_map.mp hr
    exact rank_lt_length hx

/-! ### A request is numbered (R85) -/

theorem numberRequest_eq (w : Vol) (r : Request) : w.numberRequest r =
    ({ r with
        number := (renewed w).freeNumber 65 w.queue.nextNumber, stamp := (renewed w).queue.nextStamp
        state := if r.notBefore ≤ w.clock.time then .ready else .pending },
      { w with queue := { (renewed w).queue with
        nextNumber := ((renewed w).freeNumber 65 w.queue.nextNumber + 1) % 65536
        nextStamp := (renewed w).queue.nextStamp + 1 } }) := by
  have hmodel : w.numberRequest r =
      ({ r with
          number := (renewed w).freeNumber 65 (renewed w).queue.nextNumber, stamp := (renewed w).queue.nextStamp
          state := if r.notBefore ≤ (renewed w).clock.time then .ready else .pending },
        { renewed w with queue := { (renewed w).queue with
          nextNumber := ((renewed w).freeNumber 65 (renewed w).queue.nextNumber + 1) % 65536
          nextStamp := (renewed w).queue.nextStamp + 1 } }) := rfl
  rw [hmodel, renewed_queue, renewed_clock, renewed_nextNumber]

/-- A request with a number that none holds and the next stamp enters a queue of different numbers and stamps. -/
theorem queueDistinct_insert {u w : Vol} {r : Request} {a b : List Request} (h : QueueDistinct u)
    (hab : u.queue.requests = a ++ b) (hnumber : r.number ∉ numbers u) (hstamp : r.stamp = u.queue.nextStamp)
    (hw : w.queue = { requests := a ++ r :: b, nextNumber := (r.number + 1) % 65536, nextStamp := u.queue.nextStamp + 1 }) :
    QueueDistinct w := by
  obtain ⟨hnumbers, hstamps, hbelow, -⟩ := h
  unfold QueueDistinct
  rw [numbers, hab] at hnumber
  rw [hab] at hnumbers hstamps hbelow
  have hperm : (a ++ r :: b).Perm (r :: (a ++ b)) := List.perm_middle
  simp only [hw, hperm.mem_iff, (hperm.map _).nodup_iff, List.map_cons, List.nodup_cons, List.mem_cons, forall_eq_or_imp]
  refine ⟨⟨hnumber, hnumbers⟩, ⟨fun hr => ?_, hstamps⟩, ⟨by omega, fun x hx => ?_⟩, Nat.mod_lt _ (by decide)⟩
  · obtain ⟨x, hx, hxr⟩ := List.mem_map.mp hr
    have := hbelow x hx
    omega
  · exact Nat.lt_succ_of_lt (hbelow x hx)

theorem numbered : Numbered := by
  intro w r
  refine ⟨_, _, numberRequest_eq w r, rfl, rfl, rfl, fun hlow => ?_, fun hmax => ?_, fun k hk hn held free => ?_,
    fun hd hlen a b hab => ?_⟩
  · rw [renewed_of_low hlow]
    exact ⟨rfl, rfl, rfl⟩
  · rw [renewed_of_max hmax]
    exact ⟨rfl, rfl, requests_renumberRequests⟩
  · refine freeNumber_first (by omega) hn (fun j hj => ?_) ?_
    · rw [numbers_renewed]
      exact (mem_numbers w _).mpr (held j hj)
    · rw [numbers_renewed, mem_numbers]
      rintro ⟨x, hx, hxk⟩
      exact free x hx hxk
  · have distinct : QueueDistinct (renewed w) := renewed_induction QueueDistinct w hd (queueDistinct_renumberRequests hd)
    have ⟨_, _, _, hn⟩ := hd
    exact queueDistinct_insert distinct hab (freeNumber_free (by rwa [length_renewed]) hn) rfl rfl

/-! ### Creation, entry and removal (R87 to R89, R91, R99) -/

theorem replaces_iff (r x : Request) : (r.sameMoment x && !x.isPlaying) = true ↔ SameMoment r x ∧ x.isPlaying = false := by
  rw [Bool.and_eq_true, sameMoment_iff, Bool.not_eq_true']

theorem replaceMoment_stands {w : Vol} {r : Request} (h : ∀ x ∈ w.queue.requests, SameMoment r x → x.isPlaying = true) :
    w.replaceMoment r = w := by
  have nobody : w.queue.requests.find? (fun x => r.sameMoment x && !x.isPlaying) = none := by
    refine List.find?_eq_none.mpr fun x hx hrep => ?_
    obtain ⟨hs, hp⟩ := (replaces_iff r x).mp hrep
    simp [h x hx hs] at hp
  simp only [Vol.replaceMoment, nobody]

theorem replaceMoment_replaces {w : Vol} {r x : Request} {a b : List Request} (hl : w.queue.requests = a ++ x :: b)
    (ha : ∀ y ∈ a, SameMoment r y → y.isPlaying = true) (hs : SameMoment r x) (hp : x.isPlaying = false) :
    w.replaceMoment r = w.removeRequest x.number .superseded := by
  have found : w.queue.requests.find? (fun x => r.sameMoment x && !x.isPlaying) = some x := by
    refine List.find?_eq_some_iff_append.mpr ⟨(replaces_iff r x).mpr ⟨hs, hp⟩, a, b, hl, fun y hy => ?_⟩
    rw [Bool.not_eq_true', ← Bool.not_eq_true, replaces_iff]
    rintro ⟨hsy, hpy⟩
    simp [ha y hy hsy] at hpy
  simp only [Vol.replaceMoment, found]

theorem requestCreated : RequestCreated := by
  intro w nv r
  refine ⟨replaceMoment_stands, fun a x b => replaceMoment_replaces, fun w1 w2 r' hroom hnum => ?_,
    fun w1 w2 r' hroom hnum hw2 => ?_⟩
  · simp only [Vol.createRequest, hroom, hnum]
  · subst hw2
    simp only [Vol.createRequest, hroom, hnum]
    rfl

theorem queueEntered : QueueEntered := by
  refine ⟨fun w nv r a b hl ha hb => ?_, before_iff⟩
  rw [Vol.enterQueue, Vol.modQueue, hl, insertBy_append ha hb]

theorem requestRemoved : RequestRemoved := by
  refine fun w n o => ⟨removeRequest_absent o, ?_⟩
  rintro r w1 hr rfl
  exact ⟨removeRequest_waiting o hr, fun v => removeRequest_voiced o hr⟩

/-! ### ANNOUNCE (R94) -/

theorem exec_announce (h : RequestHeader) (a : Announcement) (s : State) :
    exec (.announce h a) s = .next (takeRequest h 14 (Instr.wf (.announce h a)) (actAnnounce a) s) := rfl

theorem announcementRanges : AnnouncementRanges := by
  intro a
  simp only [Announcement.inRange, FieldValues.inRange, Bool.and_eq_true, decide_eq_true_eq, optBelow_iff, optWithin_iff,
    and_assoc, Nat.lt_succ_iff]

theorem directRequestMade : DirectRequestMade := by
  rintro w a t _ rfl
  rfl

section

variable {a : Announcement} {s : State} {t : Template}

theorem actAnnounce_badArg (s : State) (h : a.inRange = false) : actAnnounce a s = refuse .badArg s := by
  simp only [actAnnounce, h, Bool.not_false, if_true]

theorem actAnnounce_notFound (h : a.inRange = true) (ht : s.vol.template a.template = none) :
    actAnnounce a s = refuse .notFound s := by
  simp only [actAnnounce, h, Bool.not_true, Bool.false_eq_true, if_false, ht]

theorem directRequest_priority (w : Vol) (a : Announcement) (t : Template) :
    (w.directRequest a t).priority = a.priority.getD t.priority := rfl

theorem actAnnounce_evacActive (h : a.inRange = true) (ht : s.vol.template a.template = some t)
    (he : s.vol.evac.state = .evacuate) (hp : a.priority.getD t.priority < 12) :
    actAnnounce a s = refuse .evacActive s := by
  simp only [actAnnounce, h, Bool.not_true, Bool.false_eq_true, if_false, ht, directRequest_priority, he, hp, and_self, if_true]

/-- The answer to an ANNOUNCE whose request has its number, and the state with this request in the queue. -/
def accepted (s : State) (numbered : Request × Vol) : Answer × State :=
  ({ code := .accepted, body := .number numbered.1.number }, { s with vol := numbered.2.enterQueue s.nv numbered.1 })

theorem passes_evacuation {w : Vol} {p : Nat} (h : w.evac.state ≠ .evacuate ∨ 12 ≤ p) :
    ¬ (w.evac.state = .evacuate ∧ p < 12) := fun ⟨hstate, hlow⟩ =>
  h.elim (fun hne => hne hstate) fun hle => Nat.not_lt.mpr hle hlow

theorem actAnnounce_noRoom (h : a.inRange = true) (ht : s.vol.template a.template = some t)
    (he : s.vol.evac.state ≠ .evacuate ∨ 12 ≤ a.priority.getD t.priority)
    (hroom : s.vol.makeRoom (a.priority.getD t.priority) = none) : actAnnounce a s =
      (.of .noRoom, { s with vol := s.vol.modEngine fun e => { e with queueLatch := true } }) := by
  simp only [actAnnounce, h, Bool.not_true, Bool.false_eq_true, if_false, ht, directRequest_priority, passes_evacuation he,
    hroom]

theorem actAnnounce_accepts {w : Vol} (h : a.inRange = true) (ht : s.vol.template a.template = some t)
    (he : s.vol.evac.state ≠ .evacuate ∨ 12 ≤ a.priority.getD t.priority)
    (hroom : s.vol.makeRoom (a.priority.getD t.priority) = some w) :
    actAnnounce a s = accepted s (w.numberRequest (s.vol.directRequest a t)) := by
  simp only [actAnnounce, h, Bool.not_true, Bool.false_eq_true, if_false, ht, directRequest_priority, passes_evacuation he,
    hroom, accepted]

end

theorem announceTaken : AnnounceTaken := by
  intro h a s place hs
  have he := exec_announce h a s
  refine ⟨fun hr => declines_of_act he hs (by decide) (actAnnounce_badArg s hr),
    fun hr ht => declines_of_act he hs (by decide) (actAnnounce_notFound hr ht), fun t hr ht =>
      ⟨fun hev hp => declines_of_act he hs (by decide) (actAnnounce_evacActive hr ht hev hp), fun passes =>
        ⟨fun hroom => ?_, fun w hroom => ?_⟩⟩⟩
  · exact answers_of_answer (a := .of .noRoom) he hs (by decide) (actAnnounce_noRoom hr ht passes hroom)
  · obtain ⟨r, w', hnum, hfields, -⟩ := numbered w (s.vol.directRequest a t)
    have act : actAnnounce a s = accepted s (r, w') := hnum ▸ actAnnounce_accepts hr ht passes hroom
    refine ⟨r, w', hnum, answers_of_answer (a := ⟨.accepted, .number r.number⟩) he hs (by decide) act, ?_⟩
    rw [hfields]
    exact ⟨rfl, rfl, rfl, rfl, rfl, rfl, rfl, rfl, rfl⟩

/-- Settles O36: the request's checks, then the rules of creation one by one. -/
theorem announced : Obligations.Announced :=
  ⟨announceTaken, announcementRanges, directRequestMade, roomMade, numbered, requestCreated, queueEntered, requestRemoved⟩

end Sys2Proof.Requests
end

section
/-! PROOFS. The hand-out of voices (R91): which request is given which voice, and that each hand-out leaves fewer READY requests, so
that the hand-outs of one event come to an end. -/

namespace Sys2Proof.Requests

open Sys2Proof.Machine Sys2Proof.Laws Sys2Proof.Statements

/-! ### The voice that fits (R91) -/

theorem voiceFor_eq_some_iff (w : Vol) (r : Request) (v : Nat) : w.voiceFor r = some v ↔
    (w.voice v).state = .idle ∧ (r.origin = .evac → v = 7)
      ∧ (r.origin ≠ .evac → v < 7 ∧ ∀ u < v, (w.voice u).state ≠ .idle) := by
  unfold Vol.voiceFor
  by_cases hr : r.origin = .evac
  · rw [if_pos hr, Option.ite_none_right_eq_some]
    constructor
    · rintro ⟨hidle, h⟩
      obtain rfl := Option.some.inj h
      exact ⟨hidle, fun _ => rfl, fun hne => absurd hr hne⟩
    · rintro ⟨hidle, h7, -⟩
      obtain rfl := h7 hr
      exact ⟨hidle, rfl⟩
  · simp [hr, List.find?_range_eq_some]

/-- The first READY request in queue order. -/
def firstReady (w : Vol) : Option Request := w.queue.requests.find? fun r => decide (r.state = .ready)

theorem givenVoice_iff (w : Vol) (r : Request) (v : Nat) :
    GivenVoice w r v ↔ firstReady w = some r ∧ w.voiceFor r = some v := by
  rw [voiceFor_eq_some_iff]
  rfl

/-- A request is given its voice. -/
def given (nv : Nonvolatile) (w : Vol) (r : Request) (v : Nat) : Vol :=
  (w.modRequest r.number fun x => { x with state := .voiced v }).beginVoice nv r v

theorem handOutOne_given {w : Vol} {r : Request} {v : Nat} (nv : Nonvolatile) (h : GivenVoice w r v) :
    w.handOutOne nv = some (given nv w r v) := by
  obtain ⟨hr, hv⟩ := (givenVoice_iff w r v).mp h
  unfold firstReady at hr
  simp only [Vol.handOutOne, hr, hv, given]

theorem handOutOne_none {w : Vol} (nv : Nonvolatile) (h : ∀ r v, ¬ GivenVoice w r v) : w.handOutOne nv = none := by
  simp only [givenVoice_iff] at h
  unfold Vol.handOutOne
  split
  · rfl
  · next r hr =>
    split
    · rfl
    · next v hv => exact absurd ⟨hr, hv⟩ (h r v)

/-! ### The READY requests become fewer -/

/-- How many requests are READY. -/
def readyCount (w : Vol) : Nat := w.queue.requests.countP fun r => decide (r.state = .ready)

theorem readyCount_congr {w w' : Vol} (h : w'.queue = w.queue) : readyCount w' = readyCount w := by
  rw [readyCount, h, readyCount]

theorem requests_modRequest (w : Vol) (n : Nat) (f : Request → Request) :
    (w.modRequest n f).queue.requests = w.queue.requests.map fun r => if r.number = n then f r else r := rfl

/-- A change that leaves the states leaves the count. -/
theorem readyCount_modRequest (w : Vol) (n : Nat) {f : Request → Request} (hf : ∀ r, (f r).state = r.state) :
    readyCount (w.modRequest n f) = readyCount w := by
  rw [readyCount, requests_modRequest, List.countP_map]
  refine List.countP_congr fun r _ => ?_
  simp only [Function.comp_apply]
  split
  · rw [hf]
  · rfl

/-- A READY request that becomes VOICED is one less. -/
theorem readyCount_voiced_lt {w : Vol} {r : Request} (hr : r ∈ w.queue.requests) (hs : r.state = .ready) (v : Nat) :
    readyCount (w.modRequest r.number fun x => { x with state := .voiced v }) < readyCount w := by
  have others : readyCount (w.modRequest r.number fun x => { x with state := .voiced v })
      = ((w.queue.requests.filter fun x => decide (x.state = .ready)).filter fun x => decide (x.number ≠ r.number)).length := by
    rw [readyCount, requests_modRequest, List.countP_map, List.filter_filter, ← List.countP_eq_length_filter]
    refine List.countP_congr fun x _ => ?_
    by_cases hx : x.number = r.number <;> simp [hx]
  rw [others, readyCount, List.countP_eq_length_filter]
  exact List.length_filter_lt_length_iff_exists.mpr ⟨r, by simp [hr, hs], by simp⟩

theorem readyCount_removeRequest_le (w : Vol) (n : Nat) (o : ReqOutcome) : readyCount (w.removeRequest n o) ≤ readyCount w := by
  rw [readyCount, requests_removeRequest]
  exact List.filter_sublist.countP_le

theorem readyCount_failBegin_le (w : Vol) (r : Request) (o : ReqOutcome) : readyCount (w.failBegin r o) ≤ readyCount w := by
  unfold Vol.failBegin
  dsimp only
  split
  · exact readyCount_removeRequest_le w r.number o
  · exact readyCount_removeRequest_le w r.number o

/-- The begin of a voice makes no request READY: the request plays, or it ends. -/
theorem readyCount_beginVoice_le (w : Vol) (nv : Nonvolatile) (r : Request) (v : Nat) :
    readyCount (w.beginVoice nv r v) ≤ readyCount w := by
  unfold Vol.beginVoice
  generalize (if r.origin = .evac then expandEvac nv w.listInForce else w.expandTemplate nv r) = e
  obtain ⟨fs, incomplete⟩ := e
  dsimp only
  have marked : readyCount (if incomplete = true then w.modRequest r.number fun x => { x with incomplete := true } else w)
      = readyCount w := by
    split
    · exact readyCount_modRequest w r.number fun _ => rfl
    · rfl
  generalize (if incomplete = true then w.modRequest r.number fun x => { x with incomplete := true } else w) = u at marked
  rw [← marked]
  split
  · exact readyCount_failBegin_le _ _ _
  · split
    · exact readyCount_failBegin_le _ _ _
    · next g _ =>
      have placed := readyCount_congr (queue_placeClaim u (.voice v) g r.priority r.mode)
      generalize u.placeClaim (.voice v) g r.priority r.mode = p at placed
      obtain ⟨c, u'⟩ := p
      rw [← placed]
      cases c with
      | none => exact readyCount_failBegin_le _ _ _
      | some c => exact Nat.le_of_eq (readyCount_congr (queue_makeDemand _ v))

theorem readyCount_given_lt {w : Vol} {r : Request} {v : Nat} (nv : Nonvolatile) (h : firstReady w = some r) :
    readyCount (given nv w r v) < readyCount w :=
  Nat.lt_of_le_of_lt (readyCount_beginVoice_le _ nv r v)
    (readyCount_voiced_lt (List.mem_of_find?_eq_some h) (by simpa using List.find?_some h) v)

theorem not_givenVoice_of_readyCount {w : Vol} (h : readyCount w = 0) (r : Request) (v : Nat) : ¬ GivenVoice w r v := by
  intro hg
  obtain ⟨hr, -⟩ := (givenVoice_iff w r v).mp hg
  exact Nat.ne_of_gt (List.countP_pos_iff.mpr ⟨r, List.mem_of_find?_eq_some hr, List.find?_some hr⟩) h

/-- Hand-outs with fuel for every READY request go on until none can be made. -/
theorem handOutFuel_handsOut (nv : Nonvolatile) {fuel : Nat} {w : Vol} (h : readyCount w ≤ fuel) :
    ∃ n ≤ fuel, HandsOut nv n w (Vol.handOutFuel nv fuel w) := by
  induction fuel generalizing w with
  | zero => exact ⟨0, Nat.le_refl 0, not_givenVoice_of_readyCount (Nat.le_zero.mp h), rfl⟩
  | succ fuel ih =>
    by_cases hg : ∃ r v, GivenVoice w r v
    · obtain ⟨r, v, hg⟩ := hg
      have fewer := readyCount_given_lt (v := v) nv ((givenVoice_iff w r v).mp hg).1
      obtain ⟨n, hn, hands⟩ := ih (w := given nv w r v) (by omega)
      refine ⟨n + 1, Nat.succ_le_succ hn, r, v, hg, ?_⟩
      simp only [Vol.handOutFuel, handOutOne_given nv hg]
      exact hands
    · push Not at hg
      refine ⟨0, Nat.zero_le _, hg, ?_⟩
      simp only [Vol.handOutFuel, handOutOne_none nv hg]

theorem handOut : HandOut := fun _ nv => handOutFuel_handsOut nv List.countP_le_length

end Sys2Proof.Requests
end

section
/-! PROOFS. The queue at work: ANNOUNCE CANCEL (R95), the station time (R90), withdrawals (R96), the settlement of plays (R92, R93),
and what the end of an event does about EXHAUSTED claims (R33, R105, R112). -/

namespace Sys2Proof.Requests

open Sys2Proof.Machine Sys2Proof.Laws Sys2Proof.Statements
open Sys2Proof.Live (declines_of_act answers_of_act)

/-! ### ANNOUNCE CANCEL (R95) -/

theorem exec_announceCancel (h : RequestHeader) (n : Nat) (s : State) : exec (.announceCancel h n) s
    = .next (takeRequest h 15 (Instr.wf (.announceCancel h n)) (actAnnounceCancel n) s) := rfl

section

variable {n : Nat} {s : State} {r : Request}

theorem actAnnounceCancel_notFound (h : s.vol.request n = none) : actAnnounceCancel n s = refuse .notFound s := by
  simp only [actAnnounceCancel, h]

theorem actAnnounceCancel_wrongState (h : s.vol.request n = some r) (ho : r.origin = .evac) :
    actAnnounceCancel n s = refuse .wrongState s := by
  simp only [actAnnounceCancel, h, ho, if_true]

theorem actAnnounceCancel_marks (h : s.vol.request n = some r) (ho : r.origin ≠ .evac) (hp : r.isPlaying = true) :
    actAnnounceCancel n s = okVol s (s.vol.modRequest n fun x => { x with cancelPending := true }) := by
  simp only [actAnnounceCancel, h, ho, hp, if_false, if_true]

theorem actAnnounceCancel_removes (h : s.vol.request n = some r) (ho : r.origin ≠ .evac) (hp : r.isPlaying = false) :
    actAnnounceCancel n s = okVol s ((s.vol.removeRequest n .cancelled).handOut s.nv) := by
  simp only [actAnnounceCancel, h, ho, hp, if_false, Bool.false_eq_true]

end

theorem announceCancelled : AnnounceCancelled := by
  intro h n s place hs
  have he := exec_announceCancel h n s
  refine ⟨fun hr => declines_of_act he hs (by decide) (actAnnounceCancel_notFound hr),
    fun r hr ho => declines_of_act he hs (by decide) (actAnnounceCancel_wrongState hr ho), fun r v hr ho hp => ?_,
    fun r hr ho hp => ⟨answers_of_act he hs (by decide) (actAnnounceCancel_removes hr ho hp), request_removeRequest _ _ _⟩⟩
  have playing : r.isPlaying = true := (isPlaying_iff r).mpr ⟨v, hp⟩
  exact answers_of_act he hs (by decide) (actAnnounceCancel_marks hr ho playing)

/-! ### The station time (R90) -/

theorem expiredNow_iff (w : Vol) (r : Request) :
    w.expiredNow r = true ↔ r.isPlaying = false ∧ ∃ e, r.expiry = some e ∧ e < w.clock.time := by
  unfold Vol.expiredNow
  cases r.expiry <;> simp

theorem readyNow_iff (w : Vol) (r : Request) : w.readyNow r = true ↔ r.state = .pending ∧ r.notBefore ≤ w.clock.time := by
  simp [Vol.readyNow]

theorem isReadyNow_of {w : Vol} {n : Nat} {r : Request} (h : w.request n = some r) (hs : r.state = .pending)
    (hb : r.notBefore ≤ w.clock.time) (he : ∀ e, r.expiry = some e → w.clock.time ≤ e) : w.isReadyNow n = true := by
  have waits : ¬ w.expiredNow r = true := by
    rw [expiredNow_iff]
    rintro ⟨-, e, hx, hlt⟩
    exact Nat.not_lt.mpr (he e hx) hlt
  simp [Vol.isReadyNow, h, (readyNow_iff w r).mpr ⟨hs, hb⟩, waits]

theorem isExpiredNow_of {w : Vol} {n e : Nat} {r : Request} (h : w.request n = some r) (hp : r.isPlaying = false)
    (hx : r.expiry = some e) (he : e < w.clock.time) : w.isExpiredNow n = true := by
  simp only [Vol.isExpiredNow, h]
  exact (expiredNow_iff w r).mpr ⟨hp, e, hx, he⟩

theorem exec_requestReady (n : Nat) (s : State) : exec (.requestReady n) s =
    .next (takeEvent (fun s => s.vol.isReadyNow n) (fun s => s.onVol fun nv w => w.makeReady nv n) s) := rfl

theorem exec_requestExpired (n : Nat) (s : State) : exec (.requestExpired n) s =
    .next (takeEvent (fun s => s.vol.isExpiredNow n) (fun s => s.onVol fun nv w => w.expire nv n) s) := rfl

/-- An event of the queue or the store that is due happens. -/
theorem happens_of_event {i : Instr} {due : State → Bool} {act : State → State} {s : State}
    (he : exec i s = .next (takeEvent due act s)) (hr : s.running = true) (hd : due s = true) : Happens i s (act s) :=
  ⟨_, he.trans (congrArg _ (takeEvent_due hr hd)), finish_ends _⟩

theorem queueTimes : QueueTimes := fun n _ s hrun hr =>
  ⟨fun hs hb hx => happens_of_event (exec_requestReady n s) hrun (isReadyNow_of hr hs hb hx),
    fun _ hp hx he => happens_of_event (exec_requestExpired n s) hrun (isExpiredNow_of hr hp hx he)⟩

theorem queueTimeTaken : QueueTimeTaken := by
  rintro w _ nv rfl
  exact ⟨rfl, expiredNow_iff w, readyNow_iff w, isPlaying_iff⟩

/-! ### Withdrawals (R96) -/

theorem withdrawn : Withdrawn := by
  intro w r m
  refine ⟨fun hp => ?_, fun hp hc => ?_, fun hp hc => ?_⟩
  · simp only [Vol.withdrawRequest, hp, Bool.not_false, if_true]
  · simp only [Vol.withdrawRequest, hp, hc, Bool.not_true, Bool.false_eq_true, if_false, if_true]
  · have first : ∀ x : Option FinishMark, x.or (some m) = if x.isSome = true then x else some m := fun x => by cases x <;> rfl
    simp only [Vol.withdrawRequest, hp, hc, Bool.not_true, Bool.false_eq_true, if_false, first]

/-! ### The settlement of a play (R92, R93) -/

theorem hasNewer_iff (w : Vol) (r : Request) : w.hasNewer r = true ↔ Overtaken w r := by
  simp only [Vol.hasNewer, Overtaken, List.any_eq_true, Bool.and_eq_true, decide_eq_true_eq, Bool.not_eq_true', sameMoment_iff]
  exact exists_congr fun x => and_congr_right fun _ => by tauto

/-- The outcome by finish mark, EVACUATE or a newer request, if a play ends by one of them. -/
def endsAlso (w : Vol) (r : Request) : Option ReqOutcome :=
  match r.finish with
  | some m => some m.outcome
  | none =>
    if w.evac.state = .evacuate ∧ r.priority < 12 then some .suppressed
    else if w.hasNewer r then some .superseded else none

theorem endsAlso_eq {w : Vol} {r : Request} {o : Option ReqOutcome} (h : EndsAlso w r o) : endsAlso w r = o := by
  obtain ⟨hsuperseded, hwithdrawn, hnone⟩ := h
  unfold endsAlso
  split
  · next m hm =>
    cases m with
    | superseded => exact (hsuperseded hm).symm
    | withdrawn => exact (hwithdrawn hm).symm
  · next hm =>
    obtain ⟨hsuppressed, hother⟩ := hnone hm
    split
    · next hlow => exact (hsuppressed hlow).symm
    · next hlow =>
      obtain ⟨hover, hagain⟩ := hother hlow
      split
      · next hnew => exact (hover ((hasNewer_iff w r).mp hnew)).symm
      · next hnew => exact (hagain (mt (hasNewer_iff w r).mpr hnew)).symm

/-- A request that is to play again, after its gap. -/
def playsAgain (w : Vol) (n gap : Nat) : Vol :=
  w.modRequest n fun x =>
    { x with state := .pending, repeatsLeft := x.repeatsLeft.map (· - 1), notBefore := timeSum w.clock.time gap,
             expiry := expiryFrom (timeSum w.clock.time gap) x.window }

section

variable {w : Vol} {n : Nat} {r : Request}

theorem settleEnd_cancelled (h : w.request n = some r) (hc : r.cancelPending = true) :
    w.settleEnd n = w.removeRequest n .cancelled := by
  simp only [Vol.settleEnd, h, hc, if_true]

theorem settleEnd_last (h : w.request n = some r) (hc : r.cancelPending = false) (hl : r.repeatsLeft = some 0) :
    w.settleEnd n = w.removeRequest n (if r.incomplete then .incomplete else .done) := by
  simp only [Vol.settleEnd, h, hc, hl, Bool.false_eq_true, if_false, if_true]

/-- R92 below the first rows: the request ends by `endsAlso`, or it plays again. -/
theorem settleEnd_repeats (h : w.request n = some r) (hc : r.cancelPending = false) (hl : r.repeatsLeft ≠ some 0) :
    w.settleEnd n = (endsAlso w r).elim (playsAgain w n (r.gap.getD 0)) (w.removeRequest n) := by
  cases hm : r.finish with
  | some m => simp only [Vol.settleEnd, h, hc, hl, Bool.false_eq_true, if_false, endsAlso, hm, Option.elim_some]
  | none =>
    simp only [Vol.settleEnd, h, hc, hl, Bool.false_eq_true, if_false, endsAlso, hm]
    split
    · rfl
    · split <;> rfl

theorem settleLost_cancelled (h : w.request n = some r) (hc : r.cancelPending = true) :
    w.settleLost n = w.removeRequest n .cancelled := by
  simp only [Vol.settleLost, h, hc, if_true]

/-- R93 below the first row: the request ends by `endsAlso`, or it is READY again. -/
theorem settleLost_goesOn (h : w.request n = some r) (hc : r.cancelPending = false) :
    w.settleLost n = (endsAlso w r).elim
      (w.modRequest n fun x => { x with state := .ready, expiry := expiryFrom w.clock.time x.window })
      (w.removeRequest n) := by
  cases hm : r.finish with
  | some m => simp only [Vol.settleLost, h, hc, Bool.false_eq_true, if_false, endsAlso, hm, Option.elim_some]
  | none =>
    simp only [Vol.settleLost, h, hc, Bool.false_eq_true, if_false, endsAlso, hm]
    split
    · rfl
    · split <;> rfl

end

theorem timeSum_small {a b : Nat} (h : a + b ≤ 4294967295) : timeSum a b = a + b := if_pos h

theorem expiryFrom_positive (a : Nat) {n : Nat} (h : 0 < n) : expiryFrom a (some n) = some (timeSum a n) := by
  obtain ⟨k, rfl⟩ := Nat.exists_eq_add_one_of_ne_zero (Nat.ne_of_gt h)
  rfl

theorem playsSettled : PlaysSettled := by
  refine ⟨fun w n r o hr => ⟨settleEnd_cancelled hr, fun hc hl hi => ?_, fun hc hl hi => ?_,
      fun hc hl hends => ⟨fun k hk => ?_, ?_⟩⟩,
    fun a b => timeSum_small, fun a => ⟨rfl, rfl, fun n => expiryFrom_positive a⟩⟩
  · rw [settleEnd_last hr hc hl, if_pos hi]
  · rw [settleEnd_last hr hc hl, if_neg (by simp [hi])]
  · rw [settleEnd_repeats hr hc hl, endsAlso_eq hends, hk]
    rfl
  · rintro g _ ho hg rfl
    rw [settleEnd_repeats hr hc hl, endsAlso_eq hends, ho, hg]
    rfl

theorem lostPlaysSettled : LostPlaysSettled := by
  refine fun w n r o hr => ⟨settleLost_cancelled hr, fun hc hends => ⟨fun k hk => ?_, fun ho => ?_⟩⟩
  · rw [settleLost_goesOn hr hc, endsAlso_eq hends, hk]
    rfl
  · rw [settleLost_goesOn hr hc, endsAlso_eq hends, ho]
    rfl

/-! ### The end of an event (R33, R105, R112, R115) -/

section

variable {w : Vol} {v n : Nat} {r : Request}

theorem voiceExhausted_cueing (hn : (w.voice v).request = some n) (hs : (w.voice v).state = .cueing) :
    w.voiceExhausted v = (w.releaseVoice v).removeRequest n .noZones := by
  simp only [Vol.voiceExhausted, hn, hs, decide_true, if_true]

theorem voiceExhausted_playing (hn : (w.voice v).request = some n) (hr : w.request n = some r)
    (hs : (w.voice v).state ≠ .cueing) : w.voiceExhausted v =
      if r.resume = .restart then (w.releaseVoice v).settleLost n
      else (w.releaseVoice v).removeRequest n (if r.cancelPending then .cancelled else .preempted) := by
  simp only [Vol.voiceExhausted, hn, hs, decide_false, Bool.false_eq_true, if_false, request_releaseVoice, hr]

end

theorem reportTaken : ReportTaken := by
  refine fun w v n r hn hr => ⟨voiceExhausted_cueing hn, fun hs hres => ?_, fun hs hres hc => ?_, fun hs hres hc => ?_⟩
  all_goals rw [voiceExhausted_playing hn hr hs, hres]
  · rfl
  · rw [hc]
    rfl
  · rw [hc]
    rfl

/-- Voice `v` plays a template's request and its claim is EXHAUSTED, as a test. -/
def reports (w : Vol) (v : Nat) : Bool :=
  decide ((w.voice v).source = some .template) && ((w.voice v).claim.bind w.claim).any fun x => decide (x.state = .exhausted)

theorem exhaustedVoice_eq (w : Vol) : w.exhaustedVoice = (List.range 8).find? (reports w) := by
  unfold Vol.exhaustedVoice
  refine congrArg (fun p => (List.range 8).find? p) (funext fun v => ?_)
  unfold reports
  dsimp only
  cases (w.voice v).claim.bind w.claim <;> rfl

theorem reported_iff (w : Vol) (v : Nat) : Reported w v ↔ v < 8 ∧ reports w v = true := by
  simp only [Reported, reports, Bool.and_eq_true, decide_eq_true_eq, Option.any_eq_true, Option.bind_eq_some_iff]
  constructor
  · rintro ⟨hv, hs, c, x, hc, hx, he⟩
    exact ⟨hv, hs, x, ⟨c, hc, hx⟩, he⟩
  · rintro ⟨hv, hs, x, ⟨c, hc, hx⟩, he⟩
    exact ⟨hv, hs, c, x, hc, hx, he⟩

theorem exhaustedVoice_eq_some_iff (w : Vol) (v : Nat) :
    w.exhaustedVoice = some v ↔ Reported w v ∧ ∀ u < v, ¬ Reported w u := by
  rw [exhaustedVoice_eq, List.find?_range_eq_some, reported_iff, List.mem_range]
  constructor
  · rintro ⟨hv, hlt, hlow⟩
    exact ⟨⟨hlt, hv⟩, fun u hu hr => by simpa [((reported_iff w u).mp hr).2] using hlow u hu⟩
  · rintro ⟨⟨hlt, hv⟩, hlow⟩
    refine ⟨hv, hlt, fun u hu => ?_⟩
    have := mt (reported_iff w u).mpr (hlow u hu)
    simpa [Nat.lt_trans hu hlt] using this

theorem exhaustedVoice_none {w : Vol} (h : ∀ v, ¬ Reported w v) : w.exhaustedVoice = none :=
  Option.eq_none_iff_forall_ne_some.mpr fun v hv => h v ((exhaustedVoice_eq_some_iff w v).mp hv).1

/-- Reports that are acted on within the fuel are all that the fuel gives. -/
theorem reportExhausted_of_acts {nv : Nonvolatile} {n fuel : Nat} {w w' : Vol} (h : ActsOnReports nv n w w')
    (hn : n ≤ fuel) : Vol.reportExhausted nv fuel w = w' := by
  induction n generalizing w fuel with
  | zero =>
    obtain ⟨hnone, rfl⟩ := h
    cases fuel with
    | zero => rfl
    | succ fuel => simp only [Vol.reportExhausted, exhaustedVoice_none hnone]
  | succ n ih =>
    obtain ⟨v, hv, hlow, hrest⟩ := h
    obtain ⟨fuel, rfl⟩ := Nat.exists_eq_add_one_of_ne_zero (show fuel ≠ 0 by omega)
    simp only [Vol.reportExhausted, (exhaustedVoice_eq_some_iff w v).mpr ⟨hv, hlow⟩]
    exact ih hrest (by omega)

theorem eventEnded : EventEnded := ⟨fun _ _ _ _ hn h => reportExhausted_of_acts h hn, fun _ => rfl⟩

/-- Settles O37: the request and the two events, the hand-out by the number of READY requests, the settlements, and the reports by
induction on the voices that act. -/
theorem queueEvents : Obligations.QueueEvents :=
  ⟨announceCancelled, queueTimes, queueTimeTaken, withdrawn, handOut, playsSettled, lostPlaysSettled, reportTaken, eventEnded⟩

end Sys2Proof.Requests
end

section
/-! PROOFS. The reads of the clip store: the completion of a read for a voice and for a verify (R107, R122, R124, R128), the choice of
the next read (R122), the holds of a bank and the suspension of an erase (R123), the work of a frame. -/

namespace Sys2Proof.Reads

open Sys2Proof.Machine Sys2Proof.Laws Sys2Proof.Statements
open Sys2Proof.Zones (mem_insertBy)
open Sys2Proof.Requests (happens_of_event head?_sortBy)

/-! ### The commands -/

theorem exec_pageReadComplete (v : ReadVerdict) (s : State) : exec (.pageReadComplete v) s
    = .next (takeEvent (fun s => s.vol.readDue) (fun s => completeRead s v) s) := rfl

theorem exec_verifyComplete (v : ReadVerdict) (s : State) : exec (.verifyComplete v) s
    = .next (takeEvent (fun s => s.vol.readDue && s.lastVerifyRead) (fun s => completeRead s v) s) := rfl

theorem readDue_of_elapsed {w : Vol} {r : ReadOp} (h : w.store.read = some r) (he : 48 ≤ r.elapsed) : w.readDue = true := by
  simp only [Vol.readDue, h]
  exact decide_eq_true he

theorem lastVerifyRead_of {s : State} {r : ReadOp} {c length next first n : Nat} {check : BitVec 32} {spoiled : Bool}
    {bank : ClipBank} (h : s.vol.store.read = some r) (hu : r.user = .verify)
    (ho : s.vol.store.op = .verifying c length check next spoiled) (hrun : (s.nv.clip c).run = some (bank, first, n))
    (hn : n = next + 1) : s.lastVerifyRead = true := by
  simp [State.lastVerifyRead, h, hu, ho, hrun, hn]

/-! ### A page that has been read (R124) -/

/-- The read path free, and what the page code found in the read `r` counted. -/
def counted (w : Vol) (r : ReadOp) (v : ReadVerdict) (readable : Bool) : Vol :=
  (w.modStore fun c => { c with read := none }).countRead r v readable

theorem readCounted (w : Vol) (r : ReadOp) (v : ReadVerdict) (readable : Bool) :
    ReadCounted w r v readable (counted w r v readable) := by
  refine ⟨fun hr hv => ?_, fun hr hv => ?_, fun hr hm => ?_, fun hr hm => ?_⟩ <;> subst hr
  · exact if_neg hv
  · exact if_pos hv
  · exact if_pos (List.contains_iff_mem.mpr hm)
  · exact ⟨_, fun c => mem_insertBy _ r.clip c w.store.damagedMarks, if_neg (mt List.contains_iff_mem.mp hm)⟩

theorem voice_counted (w : Vol) (r : ReadOp) (v : ReadVerdict) (readable : Bool) (n : Nat) :
    (counted w r v readable).voice n = w.voice n := by
  unfold counted Vol.countRead Vol.voice
  split
  · split <;> rfl
  · dsimp only
    split
    · rfl
    · simp

/-- The model's test of a page that can be played: it is WRITTEN and the page code could read it. -/
theorem readable_eq {s : State} {r : ReadOp} {v : ReadVerdict} {readable : Bool}
    (hr : readable = true ↔ s.nv.page r.bank r.page = .written ∧ v ≠ .unreadable) :
    (decide (s.nv.page r.bank r.page = .written) && decide (v ≠ .unreadable)) = readable := by
  rw [Bool.eq_iff_iff, hr, Bool.and_eq_true, decide_eq_true_eq, decide_eq_true_eq]

section

variable {s : State} {r : ReadOp} {v : ReadVerdict} {readable : Bool}

theorem completeRead_voice {n : Nat} (h : s.vol.store.read = some r) (hu : r.user = .voice n)
    (hr : readable = true ↔ s.nv.page r.bank r.page = .written ∧ v ≠ .unreadable) :
    completeRead s v = { s with vol := (counted s.vol r v readable).deliver n readable } := by
  simp only [completeRead, h, hu, readable_eq hr]
  rfl

theorem completeRead_verify (h : s.vol.store.read = some r) (hu : r.user = .verify)
    (hr : readable = true ↔ s.nv.page r.bank r.page = .written ∧ v ≠ .unreadable) :
    completeRead s v = endVerify { s with vol := (counted s.vol r v readable).verifyTakes readable } := by
  simp only [completeRead, h, hu, readable_eq hr]
  rfl

theorem completeRead_discarded (h : s.vol.store.read = some r) (hu : r.user = .discarded)
    (hr : readable = true ↔ s.nv.page r.bank r.page = .written ∧ v ≠ .unreadable) :
    completeRead s v = { s with vol := counted s.vol r v readable } := by
  simp only [completeRead, h, hu, readable_eq hr]
  rfl

end

/-! ### A page for a voice (R107) -/

/-- The page `q` has entered the buffer of `x`, which asks for it no longer; an unreadable one is counted (log entry 52). -/
def buffered (x : Voice) (q : PageRef) (readable : Bool) : Voice :=
  { x with buffer := x.buffer ++ [{ ref := q, readable := readable }], demand := none,
           damaged := if readable then x.damaged else min 255 (x.damaged + 1) }

theorem deliver_demanded {w : Vol} {n : Nat} {q : PageRef} (readable : Bool) (h : (w.voice n).demand = some q) :
    w.deliver n readable = (w.setVoice n (buffered (w.voice n) q readable)).makeDemand n := by
  simp only [Vol.deliver, h]
  rfl

theorem deliver_unwanted {w : Vol} {n : Nat} (readable : Bool) (h : (w.voice n).demand = none) : w.deliver n readable = w := by
  simp only [Vol.deliver, h]

theorem pageDelivered {s : State} {r : ReadOp} {v : ReadVerdict} {readable : Bool} {n : Nat} {q : PageRef}
    (hrun : s.running = true) (h : s.vol.store.read = some r) (he : 48 ≤ r.elapsed) (hu : r.user = .voice n)
    (hq : (s.vol.voice n).demand = some q)
    (hr : readable = true ↔ s.nv.page r.bank r.page = .written ∧ v ≠ .unreadable) :
    Happens (.pageReadComplete v) s { s with vol :=
      ((counted s.vol r v readable).setVoice n (buffered (s.vol.voice n) q readable)).makeDemand n } := by
  have kept := voice_counted s.vol r v readable n
  have delivered := deliver_demanded readable ((congrArg Voice.demand kept).trans hq)
  rw [kept] at delivered
  rw [← delivered, ← completeRead_voice h hu hr]
  exact happens_of_event (exec_pageReadComplete v s) hrun (readDue_of_elapsed h he)

/-! ### A page for a verify (R128) -/

section

variable {s : State} {c length next first n : Nat} {check : BitVec 32} {spoiled : Bool} {bank : ClipBank}

theorem verifyTakes_verifying {w : Vol} (readable : Bool) (h : w.store.op = .verifying c length check next spoiled) :
    w.verifyTakes readable = w.setOp (.verifying c length check (next + 1) (spoiled || !readable)) := by
  simp only [Vol.verifyTakes, h]

theorem endVerify_goesOn {w : Vol} (ho : w.store.op = .verifying c length check next spoiled)
    (hrun : (s.nv.clip c).run = some (bank, first, n)) (hn : next < n) :
    endVerify { s with vol := w } = { s with vol := w } := by
  simp only [endVerify, ho, hrun, hn, if_true]

/-- The part with the clip `c` VALID and the seal told. -/
def sealed (s : State) (c length : Nat) : State :=
  { s with
    nv := s.nv.setClip c { s.nv.clip c with state := .valid, length := some length }
    vol := (s.vol.setOp .ready).notify (.storeDone (.seal c false false (s.nv.clip c).written)) }

/-- The part with the check of the clip `c` failed, and that told. -/
def unsealed (s : State) (c : Nat) : State :=
  { s with
    vol := ({ s.vol with store := { s.vol.store with op := .ready, checkFail := true } }).notify
      (.storeDone (.seal c false true (s.nv.clip c).written)) }

theorem endVerify_last {w : Vol} (ho : w.store.op = .verifying c length check next spoiled)
    (hrun : (s.nv.clip c).run = some (bank, first, n)) (hn : n ≤ next) :
    endVerify { s with vol := w } =
      if spoiled = false ∧ crc32 (s.nv.clipBytes bank first length) = check then sealed { s with vol := w } c length
      else unsealed { s with vol := w } c := by
  simp only [endVerify, ho, hrun, Nat.not_lt.mpr hn, if_false, sealed]
  rfl

end

section

variable {s : State} {r : ReadOp} {v : ReadVerdict} {readable spoiled : Bool} {c length next first n : Nat} {check : BitVec 32}
  {bank : ClipBank}

/-- The verify has the page that it was reading. -/
theorem completeRead_verifying (h : s.vol.store.read = some r) (hu : r.user = .verify)
    (ho : s.vol.store.op = .verifying c length check next spoiled)
    (hr : readable = true ↔ s.nv.page r.bank r.page = .written ∧ v ≠ .unreadable) :
    completeRead s v = endVerify { s with
      vol := (counted s.vol r v readable).setOp (.verifying c length check (next + 1) (spoiled || !readable)) } := by
  have stands : (counted s.vol r v readable).store.op = .verifying c length check next spoiled :=
    (countRead_op _ r v readable).trans ho
  rw [completeRead_verify h hu hr, verifyTakes_verifying readable stands]

theorem verifyGoesOn (hs : s.running = true) (h : s.vol.store.read = some r) (he : 48 ≤ r.elapsed) (hu : r.user = .verify)
    (ho : s.vol.store.op = .verifying c length check next spoiled) (hrun : (s.nv.clip c).run = some (bank, first, n))
    (hn : next + 1 < n) (hr : readable = true ↔ s.nv.page r.bank r.page = .written ∧ v ≠ .unreadable) :
    Happens (.pageReadComplete v) s { s with
      vol := (counted s.vol r v readable).setOp (.verifying c length check (next + 1) (spoiled || !readable)) } := by
  have happens := happens_of_event (exec_pageReadComplete v s) hs (readDue_of_elapsed h he)
  rwa [completeRead_verifying h hu ho hr, endVerify_goesOn rfl hrun hn] at happens

theorem verifyEnds (hs : s.running = true) (h : s.vol.store.read = some r) (he : 48 ≤ r.elapsed) (hu : r.user = .verify)
    (ho : s.vol.store.op = .verifying c length check next spoiled) (hrun : (s.nv.clip c).run = some (bank, first, n))
    (hn : n = next + 1) (hr : readable = true ↔ s.nv.page r.bank r.page = .written ∧ v ≠ .unreadable) :
    Happens (.verifyComplete v) s
      (if (spoiled || !readable) = false ∧ crc32 (s.nv.clipBytes bank first length) = check then
        sealed { s with vol := counted s.vol r v readable } c length
      else unsealed { s with vol := counted s.vol r v readable } c) := by
  have due : (s.vol.readDue && s.lastVerifyRead) = true := by
    rw [readDue_of_elapsed h he, lastVerifyRead_of h hu ho hrun hn, Bool.and_self]
  have happens := happens_of_event (exec_verifyComplete v s) hs due
  rw [completeRead_verifying h hu ho hr, endVerify_last rfl hrun (Nat.le_of_eq hn)] at happens
  exact happens

end

/-- The command that ends a verify is the completion of its last read (R128). -/
theorem exec_verifyComplete_last {s : State} (v : ReadVerdict) (h : s.lastVerifyRead = true) :
    exec (.verifyComplete v) s = exec (.pageReadComplete v) s := by
  simp only [exec_verifyComplete, exec_pageReadComplete, takeEvent, whenRunning, h, Bool.and_true]

theorem verifyReads : VerifyReads := by
  intro s r v readable hs h he hr
  refine ⟨counted s.vol r v readable, readCounted s.vol r v readable, fun hu => ?_,
    fun c length next check spoiled bank first n hu ho hrun => ⟨fun hn => ?_, fun hn => ?_, fun hn hsp hre hc => ?_, fun hn hbad => ?_⟩⟩
  · have happens := happens_of_event (exec_pageReadComplete v s) hs (readDue_of_elapsed h he)
    rcases hu with hu | ⟨n, hu, hd⟩
    · rwa [completeRead_discarded h hu hr] at happens
    · rwa [completeRead_voice h hu hr, deliver_unwanted readable (by rw [voice_counted, hd])] at happens
  · exact verifyGoesOn hs h he hu ho hrun hn hr
  · exact exec_verifyComplete_last v (lastVerifyRead_of h hu ho hrun hn)
  · have ends := verifyEnds hs h he hu ho hrun hn hr
    rwa [if_pos ⟨by simp [hsp, hre], hc⟩] at ends
  · have ends := verifyEnds hs h he hu ho hrun hn hr
    have fails : ¬ ((spoiled || !readable) = false ∧ crc32 (s.nv.clipBytes bank first length) = check) := by
      simp only [Bool.or_eq_false_iff, Bool.not_eq_false']
      rintro ⟨⟨hsp, hre⟩, hc⟩
      simp [hsp, hre, hc] at hbad
    rwa [if_neg fails] at ends

theorem readDelivered : ReadDelivered := by
  refine ⟨fun s r v n x q hrun h he hu _ hx hq => ?_, fun s r c length next check bank first n hrun h he hu ho hclip hn hp => ?_⟩
  · subst hx
    have delivered := fun b hr => pageDelivered (v := v) (readable := b) hrun h he hu hq hr
    have found := readCounted s.vol r v
    refine ⟨fun hp hv => ?_, fun hp hv => ?_, fun hbad hm => ?_, fun hbad hm => ?_⟩
    · obtain ⟨good, -⟩ := found true
      have := delivered true (by simp [hp, hv])
      rwa [good rfl (by simp [hv])] at this
    · obtain ⟨-, corrected, -⟩ := found true
      have := delivered true (by simp [hp, hv])
      rwa [corrected rfl hv] at this
    · obtain ⟨-, -, again, -⟩ := found false
      have := delivered false (by simp; tauto)
      rwa [again rfl hm] at this
    · obtain ⟨-, -, -, first⟩ := found false
      obtain ⟨marks, hmem, heq⟩ := first rfl hm
      have := delivered false (by simp; tauto)
      rw [heq] at this
      exact ⟨marks, hmem, this⟩
  · have good : true = true ↔ s.nv.page r.bank r.page = .written ∧ ReadVerdict.good ≠ .unreadable := by simp [hp]
    obtain ⟨found, -⟩ := readCounted s.vol r .good true
    have ends := verifyEnds hrun h he hu ho hclip hn good
    rw [found rfl (by simp)] at ends
    refine ⟨fun hc => ?_, fun hc => ?_⟩
    · rwa [if_pos ⟨rfl, hc⟩] at ends
    · rwa [if_neg fun hall => hc hall.2] at ends

/-! ### The holds of a bank, and the suspension of an erase (R123) -/

theorem bankOf_eq_some_iff (nv : Nonvolatile) (r : PageRef) (bank : ClipBank) :
    nv.bankOf r = some bank ↔ ∃ first n, (nv.clip r.clip).run = some (bank, first, n) := by
  simp [Nonvolatile.bankOf, Nonvolatile.locate]

theorem demandsIn_iff (w : Vol) (nv : Nonvolatile) (v : Nat) (bank : ClipBank) :
    DemandsIn w nv v bank ↔ ∃ r, (w.voice v).demand = some r ∧ nv.bankOf r = some bank := by
  simp only [DemandsIn, bankOf_eq_some_iff, exists_and_left]

/-- The read path is not at work for voice `v`. -/
theorem user_ne_iff (w : Vol) (v : Nat) :
    w.store.read.map (·.user) ≠ some (.voice v) ↔ ∀ r, w.store.read = some r → r.user ≠ .voice v := by
  simp [Option.map_eq_some_iff]

theorem waitsFor_iff (w : Vol) (nv : Nonvolatile) (bank : ClipBank) (v : Nat) :
    w.waitsFor nv bank v = true ↔ DemandsIn w nv v bank ∧ ∀ r, w.store.read = some r → r.user ≠ .voice v := by
  rw [demandsIn_iff, ← user_ne_iff]
  unfold Vol.waitsFor
  cases (w.voice v).demand with
  | none => simp
  | some r => simp

theorem suspendedOn_iff (w : Vol) (nv : Nonvolatile) (bank : ClipBank) : w.suspendedOn nv bank = true ↔ Suspends w nv bank := by
  simp only [Vol.suspendedOn, Suspends, Bool.or_eq_true, List.any_eq_true, List.mem_range, Bool.and_eq_true, decide_eq_true_eq,
    waitsFor_iff, Option.map_eq_some_iff]
  exact or_congr_left (exists_congr fun v => and_congr_right fun _ => by tauto)

theorem suspended_iff (w : Vol) (nv : Nonvolatile) :
    w.suspended nv = true ↔ ∃ bank k n, w.store.op = .erasing bank k n ∧ Suspends w nv bank := by
  unfold Vol.suspended
  cases w.store.op <;> simp [suspendedOn_iff]

theorem holds_iff (w : Vol) (nv : Nonvolatile) (bank : ClipBank) : w.holds nv bank = true ↔ HeldBack w nv bank := by
  unfold Vol.holds HeldBack
  cases w.store.op with
  | programming c busy p data n => simp
  | erasing busy k n =>
    have erased : (∃ j m, StoreOp.erasing busy k n = .erasing bank j m ∧ ¬ Suspends w nv bank)
        ↔ busy = bank ∧ ¬ Suspends w nv bank := by simp
    simp only [reduceCtorEq, exists_false, false_or, erased, Bool.and_eq_true, decide_eq_true_eq, Bool.not_eq_true',
      ← Bool.not_eq_true, suspendedOn_iff]
    exact and_congr_right fun h => by rw [h]
  | _ => simp

/-! ### The choice of the next read (R122) -/

theorem mem_readCandidates (w : Vol) (nv : Nonvolatile) (v : Nat) : v ∈ w.readCandidates nv ↔ Servable w nv v := by
  unfold Vol.readCandidates Servable
  rw [List.mem_filter, List.mem_range]
  refine and_congr_right fun _ => ?_
  simp only [demandsIn_iff, ← holds_iff]
  cases (w.voice v).demand with
  | none => simp
  | some r =>
    cases hb : nv.bankOf r with
    | none => simp [hb]
    | some bank => simp [hb]

theorem chooseRead_eq_some {w : Vol} {nv : Nonvolatile} {v : Nat} (hv : Servable w nv v)
    (least : ∀ u, Servable w nv u → u ≠ v → (w.voice v).buffer.length < (w.voice u).buffer.length
      ∨ ((w.voice v).buffer.length = (w.voice u).buffer.length ∧ v < u)) : w.chooseRead nv = some v := by
  refine head?_sortBy ((mem_readCandidates w nv v).mpr hv) fun u hu hne => ?_
  have before := least u ((mem_readCandidates w nv u).mp hu) hne
  simp only [Bool.or_eq_true, Bool.and_eq_true, decide_eq_true_eq, Bool.or_eq_false_iff, Bool.and_eq_false_iff,
    decide_eq_false_iff_not]
  omega

theorem chooseRead_eq_none {w : Vol} {nv : Nonvolatile} (h : ∀ v, ¬ Servable w nv v) : w.chooseRead nv = none := by
  have nobody : w.readCandidates nv = [] :=
    List.eq_nil_iff_forall_not_mem.mpr fun v => mt (mem_readCandidates w nv v).mp (h v)
  simp [Vol.chooseRead, nobody, sortBy]

theorem storeStarting_iff (w : Vol) : w.storeStarting = true ↔ ∃ n, w.store.op = .starting n := by
  unfold Vol.storeStarting
  cases w.store.op <;> simp

/-- A free read path of a store that does not start up looks for a page to read. -/
theorem pump_free {w : Vol} (hr : w.store.read = none) (ho : ∀ n, w.store.op ≠ .starting n) :
    ¬ (w.store.read.isSome = true ∨ w.storeStarting = true) := by
  simp [hr, storeStarting_iff, ho]

theorem pump_voice {w : Vol} {nv : Nonvolatile} {v first n : Nat} {r : PageRef} {bank : ClipBank} (hr : w.store.read = none)
    (ho : ∀ n, w.store.op ≠ .starting n) (hc : w.chooseRead nv = some v) (hd : (w.voice v).demand = some r)
    (hrun : (nv.clip r.clip).run = some (bank, first, n)) :
    w.pump nv = w.modStore fun s =>
      { s with read := some { user := .voice v, clip := r.clip, bank := bank, page := first + r.page, elapsed := 0 } } := by
  have place : nv.locate r = some (bank, first + r.page) := by simp [Nonvolatile.locate, hrun]
  simp only [Vol.pump, pump_free hr ho, hc, hd, place, if_false]

theorem pump_verify {w : Vol} {nv : Nonvolatile} {c length next first n : Nat} {check : BitVec 32} {spoiled : Bool}
    {bank : ClipBank} (hr : w.store.read = none) (ho : w.store.op = .verifying c length check next spoiled)
    (hc : w.chooseRead nv = none) (hrun : (nv.clip c).run = some (bank, first, n)) (hn : next < n) :
    w.pump nv = w.modStore fun s =>
      { s with read := some { user := .verify, clip := c, bank := bank, page := first + next, elapsed := 0 } } := by
  have free := pump_free hr (by simp [ho])
  simp only [Vol.pump, free, hc, ho, hrun, hn, if_true, if_false]

theorem pump_idle {w : Vol} {nv : Nonvolatile} (hc : w.chooseRead nv = none)
    (ho : ∀ c length check next spoiled, w.store.op ≠ .verifying c length check next spoiled) : w.pump nv = w := by
  unfold Vol.pump
  rw [hc]
  split
  · rfl
  · dsimp only
    split
    · exact absurd ‹_› (ho _ _ _ _ _)
    · rfl

theorem readsChosen : ReadsChosen := by
  intro w nv
  refine ⟨fun busy => if_pos ?_, fun hr ho => ⟨fun v r bank first n hv least hd hrun => ?_, fun hnone => ⟨?_, ?_⟩⟩⟩
  · rwa [storeStarting_iff, Option.isSome_iff_ne_none]
  · exact pump_voice hr ho (chooseRead_eq_some hv least) hd hrun
  · intro c length check next spoiled bank first n hop hrun hn
    exact pump_verify hr hop (chooseRead_eq_none hnone) hrun hn
  · exact pump_idle (chooseRead_eq_none hnone)

/-! ### A frame of work (R122, R123; log entry 8) -/

theorem op_storeTick (w : Vol) (nv : Nonvolatile) : (w.storeTick nv).store.op = w.store.op.tick (w.suspended nv) := rfl

theorem suspended_erasing {w : Vol} {nv : Nonvolatile} {bank : ClipBank} {k n : Nat} (h : w.store.op = .erasing bank k n) :
    w.suspended nv = true ↔ Suspends w nv bank := by
  simp only [Vol.suspended, h, suspendedOn_iff]

theorem storeWorks : StoreWorks := by
  intro w nv
  refine ⟨suspended_iff w nv, rfl, rfl, fun h => ?_, fun r h => ?_, fun bank k n h => ⟨fun hs => ?_, fun hs => ?_⟩,
    fun c bank p data n h => ?_, fun pr n h => ?_, fun n h => ?_⟩
  · exact congrArg (Option.map _) h
  · exact congrArg (Option.map _) h
  · rw [op_storeTick, h, (suspended_erasing h).mpr hs]
    rfl
  · rw [op_storeTick, h, Bool.eq_false_iff.mpr (mt (suspended_erasing h).mp hs)]
    rfl
  all_goals
    rw [op_storeTick, h]
    rfl

theorem framesWork : FramesWork := by
  intro x s hr hd ho
  obtain ⟨-, -, -, -, -, store, -⟩ := takeFrame_keeps x s hr
  have op := congrArg StoreCtl.op (store hd ho)
  exact ⟨takeFrame x s, rfl, op⟩

/-- Settles O51: the completion of a read by its user and by what the page code found, the arbiter's choice from the demands that
can be served, and the frame's work from what holds while it passes. -/
theorem readsCompleted : Obligations.ReadsCompleted := ⟨readDelivered, verifyReads, readsChosen, storeWorks, framesWork⟩

end Sys2Proof.Reads
end

section
/-! PROOFS. What a request speaks and where (R84 to R86, R102): the values of its source, the phrase entries of a field, the fragments
of its list, the group of its target. -/

namespace Sys2Proof.Voices

open Sys2Proof.Machine Sys2Proof.Laws Sys2Proof.Statements

/-! ### The values of the source (R85) -/

theorem or_eq_ite {α : Type} (x y : Option α) : x.or y = if x.isSome = true then x else y := by cases x <;> rfl

theorem sourceSpeaks : SourceSpeaks := by
  refine fun w r => ⟨fun slot k c ho hr hc => ?_, fun v ho hv => ?_, fun p k c ho hp hk hc => ?_, fun p ho hp hk => ?_,
    fun ho hr => ?_⟩
  · simp only [Vol.spoken, ho, hr, hc]
    rfl
  · simp only [Vol.spoken, ho, hv, or_eq_ite]
  · simp only [Vol.spoken, ho, hp, hk, Option.bind_some, hc]
    rfl
  · simp only [Vol.spoken, ho, hp, hk, Option.bind_none]
    rfl
  · simp only [Vol.spoken, ho, hr]
    rfl

/-! ### The phrase entries of a field (R84) -/

theorem timeOfDay_eq {w : Vol} {time day : Nat} (h : (day : Int) = ((time : Int) - (w.clock.dayBase : Int)) % 86400) :
    w.timeOfDay time = day := by
  rw [Vol.timeOfDay, ← h, Int.toNat_natCast]

theorem timePhrases_eq {w : Vol} {time day : Nat} (h : (day : Int) = ((time : Int) - (w.clock.dayBase : Int)) % 86400) :
    w.timePhrases time = [tget none w.hours (day / 3600), tget none w.minutes (day % 3600 / 60)] := by
  simp only [Vol.timePhrases, timeOfDay_eq h]

/-- The entry of a delay among those of NUMBERS, which start at 1 and end at 100. -/
theorem delayEntry_eq (n : Nat) : (if n + 1 ≤ 99 then n + 1 else 100) - 1 = min n 99 := by
  split <;> omega

theorem fieldPhrases_delay {w : Vol} {x : Spoken} {d : Nat} (h : x.delay = some d) (hd : 1 ≤ d) :
    w.fieldPhrases x .delay = ([tget none w.numbers ((if d ≤ 99 then d else 100) - 1)], false) := by
  obtain ⟨n, rfl⟩ := Nat.exists_eq_add_one_of_ne_zero (Nat.ne_of_gt hd)
  simp only [Vol.fieldPhrases, h, delayEntry_eq]

theorem fieldsRendered : FieldsRendered := by
  refine fun w x => ⟨?times, ?_, ?_, ?_, ?_, ?_, ?_, ?_, fun d => fieldPhrases_delay, ?_⟩
  case times =>
    intro time day es hday hes
    rw [hes, ← timePhrases_eq hday]
    refine ⟨fun h => ?_, fun h => ?_⟩ <;> simp only [Vol.fieldPhrases, h]
  all_goals
    intros
    simp only [Vol.fieldPhrases, *]

/-! ### The fragments of a list (R102) -/

theorem clipTest_notValid {nv : Nonvolatile} {c : Nat} (h : (nv.clip c).state ≠ .valid) : clipTest nv c = ([], true) := by
  simp only [clipTest, h, if_false]

theorem clipTest_silent {nv : Nonvolatile} {c : Nat} (h : (nv.clip c).state = .valid) (hl : (nv.clip c).length = some 0) :
    clipTest nv c = ([], false) := by
  simp only [clipTest, h, hl, if_true]

theorem clipTest_plays {nv : Nonvolatile} {c n : Nat} (h : (nv.clip c).state = .valid) (hn : 0 < n)
    (hl : (nv.clip c).length = some n) : clipTest nv c = ([.clip c n], false) := by
  obtain ⟨n, rfl⟩ := Nat.exists_eq_add_one_of_ne_zero (Nat.ne_of_gt hn)
  simp only [clipTest, h, hl, if_true]

theorem listExpanded : ListExpanded := by
  refine fun w nv r x => ⟨fun h => ?_, fun k rs h hrs => ?_, fun _ => rfl, fun _ _ => rfl,
    fun c => ⟨clipTest_notValid, clipTest_silent, fun _ => clipTest_plays⟩, fun f es missing rs hf hrs => ?_⟩
  · simp only [Vol.expandTemplate, h]
  · simp only [Vol.expandTemplate, h, hrs]
  · have entries : rs = es.map (phraseTest nv) := hrs.trans (List.map_congr_left fun e _ => by cases e <;> rfl)
    simp only [Vol.expandItem, hf, entries]

/-! ### The group of the target (R86) -/

theorem targetResolved : TargetResolved := by
  refine fun w r => ⟨fun g h => ?_, fun k h hk => ⟨fun g ht => ?_, fun ht => ⟨fun slot t c ho hr hc => ?_, fun v ho hv => ?_,
    fun p ho hp => ?_⟩, fun ht => ⟨fun slot t c ho hr hc => ?_, ?_⟩⟩, fun h hk => ?_⟩
  · simp only [Vol.targetGroup, h]
  · simp only [Vol.targetGroup, h, hk, ht]
  · simp only [Vol.targetGroup, h, hk, ht, ho, hr, Option.bind_some, hc]
  · simp only [Vol.targetGroup, h, hk, ht, ho, hv, Option.bind_some]
  · simp only [Vol.targetGroup, h, hk, ht, ho, hp, Option.bind_some]
  · simp only [Vol.targetGroup, h, hk, ht, ho, hr, Option.bind_some, hc]
  · rintro (ho | ho) <;> simp only [Vol.targetGroup, h, hk, ht, ho]
  · simp only [Vol.targetGroup, h, hk]

end Sys2Proof.Voices
end

section
/-! PROOFS. The playout voices (Chapter 6): what a block mark does to a voice, how a voice begins a request, use counts, the pages it
demands, a frame of playing, its release. -/

namespace Sys2Proof.Voices

open Sys2Proof.Machine Sys2Proof.Laws Sys2Proof.Statements
open Sys2Proof.Live (happens_of_mark placeClaim_emptyGroup)
open Sys2Proof.Zones (nodup_eraseDups)

/-! ### A voice at a block mark (R108, R110, R113, R114) -/

theorem exec_voiceStart (v : Fin 8) (s : State) : exec (.voiceStart v) s
    = .next (takeMark (.voice v) (fun w => w.canStart v) (fun _ w => w.startVoice v) s) := rfl

theorem exec_voiceResume (v : Fin 8) (s : State) : exec (.voiceResume v) s
    = .next (takeMark (.voice v) (fun w => w.canResume v && !w.cancelled v) (fun _ w => w.resumeVoice v) s) := rfl

theorem exec_voiceEnd (v : Fin 8) (s : State) : exec (.voiceEnd v) s
    = .next (takeMark (.voice v) (fun w => w.atEnd v) (fun nv w => w.takeEnd nv v) s) := rfl

theorem exec_voiceCancelStop (v : Fin 8) (s : State) : exec (.voiceCancelStop v) s
    = .next (takeMark (.voice v) (fun w => w.cancelled v) (fun nv w => w.stopCancelled nv v) s) := rfl

section

variable {w : Vol} {v n : Nat}

theorem canStart_of {c : Nat} {k : Claim} (hs : (w.voice v).state = .cueing) (hc : (w.voice v).claim = some c)
    (hk : w.claim c = some k) (ha : k.state = .active) (hp : (w.voice v).hasPage = true) : w.canStart v = true := by
  simp [Vol.canStart, Vol.claimActive, hs, hc, hk, ha, hp]

theorem startVoice_requested (hn : (w.voice v).request = some n) : w.startVoice v =
    (w.setVoice v { w.voice v with state := .playing }).modRequest n fun r => { r with state := .playing v } := by
  simp only [Vol.startVoice, hn]

theorem canResume_of (hs : (w.voice v).state = .stalled) (hp : (w.voice v).hasPage = true) : w.canResume v = true := by
  simp [Vol.canResume, hs, hp]

theorem cancelled_iff (w : Vol) (v : Nat) : w.cancelled v = true ↔
    ((w.voice v).state = .playing ∨ (w.voice v).state = .stalled)
      ∧ ∃ n r, (w.voice v).request = some n ∧ w.request n = some r ∧ r.cancelPending = true := by
  simp only [Vol.cancelled, Bool.and_eq_true, Bool.or_eq_true, decide_eq_true_eq]
  refine and_congr_right fun _ => ?_
  cases (w.voice v).request with
  | none => simp
  | some n =>
    simp only [Option.bind_some, Option.some.injEq, exists_and_left, exists_eq_left']
    cases w.request n <;> simp

theorem atEnd_of (hs : (w.voice v).state = .playing) (ht : (w.voice v).source = some .template)
    (hf : (w.voice v).finished = true) : w.atEnd v = true := by
  simp [Vol.atEnd, hs, ht, hf]

theorem takeEnd_requested (nv : Nonvolatile) (hn : (w.voice v).request = some n) :
    w.takeEnd nv v = ((w.releaseVoice v).settleEnd n).handOut nv := by
  simp only [Vol.takeEnd, hn]

theorem stopCancelled_requested (nv : Nonvolatile) (hn : (w.voice v).request = some n) :
    w.stopCancelled nv v = (w.removeRequest n .cancelled).handOut nv := by
  simp only [Vol.stopCancelled, hn]

end

theorem voicesMarked : VoicesMarked := by
  rintro v x s hm rfl
  refine ⟨fun n c k hs hn hc hk ha hp => ?_, fun hs hp hcancel => ?_, fun n hs ht hf hn => ?_, fun n r hs hn hr hcancel => ?_⟩
  · rw [← startVoice_requested hn]
    exact happens_of_mark (exec_voiceStart v s) hm (canStart_of hs hc hk ha hp)
  · have goesOn : s.vol.cancelled v = false := by
      rw [Bool.eq_false_iff, Ne, cancelled_iff]
      rintro ⟨-, n, r, hn, hr, h⟩
      simp [hcancel n r hn hr] at h
    exact happens_of_mark (exec_voiceResume v s) hm (by rw [canResume_of hs hp, goesOn]; rfl)
  · rw [← takeEnd_requested s.nv hn]
    exact happens_of_mark (exec_voiceEnd v s) hm (atEnd_of hs ht hf)
  · rw [← stopCancelled_requested s.nv hn]
    exact happens_of_mark (exec_voiceCancelStop v s) hm ((cancelled_iff s.vol v).mpr ⟨hs, n, r, hn, hr, hcancel⟩)

/-! ### A voice begins a request (R102 to R104, R115) -/

/-- The fragments that a request plays, and whether a part could not be said. -/
def expansion (w : Vol) (nv : Nonvolatile) (r : Request) : List Fragment × Bool :=
  if r.origin = .evac then expandEvac nv w.listInForce else w.expandTemplate nv r

/-- The incomplete flag of a request that could not be said in full. -/
def flagged (w : Vol) (r : Request) (incomplete : Bool) : Vol :=
  if incomplete = true then w.modRequest r.number fun x => { x with incomplete := true } else w

/-- R115: voice 7's list is never empty (log entry 20). -/
theorem expandEvac_ne_nil (nv : Nonvolatile) (items : List ListItem) : (expandEvac nv items).1 ≠ [] := by
  simp only [expandEvac]
  split
  · simp
  · next h => exact fun hnil => h (.inr hnil)

section

variable {w : Vol} {nv : Nonvolatile} {r : Request} {v : Nat} {fs : List Fragment} {incomplete : Bool}

theorem expansion_of (hev : r.origin = .evac → (fs, incomplete) = expandEvac nv w.listInForce)
    (htp : r.origin ≠ .evac → (fs, incomplete) = w.expandTemplate nv r) : expansion w nv r = (fs, incomplete) := by
  unfold expansion
  split
  · next h => exact (hev h).symm
  · next h => exact (htp h).symm

theorem beginVoice_empty (he : expansion w nv r = ([], incomplete)) :
    w.beginVoice nv r v = (flagged w r incomplete).failBegin r .failed := by
  unfold expansion at he
  simp only [Vol.beginVoice, he, if_true]
  rfl

theorem beginVoice_noTarget (he : expansion w nv r = (fs, incomplete)) (hfs : fs ≠ [])
    (ht : (flagged w r incomplete).targetGroup r = none) :
    w.beginVoice nv r v = (flagged w r incomplete).failBegin r .noTarget := by
  unfold expansion at he
  unfold flagged at ht
  simp only [Vol.beginVoice, he, hfs, if_false, ht]
  rfl

theorem beginVoice_emptyGroup {g : Nat} (he : expansion w nv r = (fs, incomplete)) (hfs : fs ≠ [])
    (ht : (flagged w r incomplete).targetGroup r = some g) (hg : (flagged w r incomplete).group g = []) :
    w.beginVoice nv r v = (flagged w r incomplete).failBegin r .noTarget := by
  have unplaced := placeClaim_emptyGroup (.voice v) r.priority r.mode hg
  unfold expansion at he
  unfold flagged at ht unplaced
  simp only [Vol.beginVoice, he, hfs, if_false, ht, unplaced]
  rfl

theorem beginVoice_placed {g c : Nat} {w2 : Vol} (he : expansion w nv r = (fs, incomplete)) (hfs : fs ≠ [])
    (ht : (flagged w r incomplete).targetGroup r = some g)
    (hc : (flagged w r incomplete).placeClaim (.voice v) g r.priority r.mode = (some c, w2)) :
    w.beginVoice nv r v = ((w2.raiseUses fs).setVoice v
      { state := .cueing, request := some r.number, claim := some c,
        source := some (if r.origin = .evac then .evacuation else .template), frags := fs, cur := 0, pos := 0,
        buffer := [], demand := none, nextRead := 0, finished := false, newList := none, newListWaits := false,
        stalls := (w2.voice v).stalls, damaged := (w2.voice v).damaged }).makeDemand v := by
  unfold expansion at he
  unfold flagged at ht hc
  simp only [Vol.beginVoice, he, hfs, if_false, ht, hc]
  rfl

theorem failBegin_station (w : Vol) (o : ReqOutcome) (h : r.origin ≠ .evac) :
    w.failBegin r o = w.removeRequest r.number o := if_neg h

theorem failBegin_evac (w : Vol) (o : ReqOutcome) (h : r.origin = .evac) :
    w.failBegin r o = (w.removeRequest r.number o).modEvac fun e => { e with request := none, list := none } := if_pos h

end

theorem voiceBegun : VoiceBegun := by
  refine ⟨fun w w1 nv r v fs incomplete hev htp hw1 => ?_, expandEvac_ne_nil⟩
  have he := expansion_of hev htp
  have flag : flagged w r incomplete = w1 := hw1.symm
  subst flag
  refine ⟨fun ho => ⟨fun hfs => ?_, fun hfs ht => ?_⟩, fun ho ht hg => ?_, fun g c w2 hfs ht _ hc => ?_⟩
  · subst hfs
    rw [beginVoice_empty he, failBegin_station _ _ ho]
  · rw [← failBegin_station _ _ ho]
    rcases ht with ht | ⟨g, ht, hg⟩
    · exact beginVoice_noTarget he hfs ht
    · exact beginVoice_emptyGroup he hfs ht hg
  · have hfs : fs ≠ [] := by
      have spoken := expandEvac_ne_nil nv w.listInForce
      rwa [← hev ho] at spoken
    exact ⟨_, rfl, (beginVoice_emptyGroup he hfs ht hg).trans (failBegin_evac _ _ ho)⟩
  · exact beginVoice_placed he hfs ht hc

/-! ### Use counts (R103) -/

theorem mem_clipsOf (fs : List Fragment) (c : Nat) : c ∈ clipsOf fs ↔ ∃ n, Fragment.clip c n ∈ fs := by
  simp only [clipsOf, List.mem_eraseDups, List.mem_filterMap]
  constructor
  · rintro ⟨f, hf, hc⟩
    cases f with
    | clip k n =>
      obtain rfl : k = c := by simpa [Fragment.clip?] using hc
      exact ⟨n, hf⟩
    | pause n => simp [Fragment.clip?] at hc
    | tone t n => simp [Fragment.clip?] at hc
  · rintro ⟨n, hf⟩
    exact ⟨_, hf, rfl⟩

/-- A write of a value that is listed needs no canonical form to be read back. -/
theorem get_set_listed {α : Type} [DecidableEq α] {d v : α} (hv : v ≠ d) (m : Sparse α) (k i : Nat) :
    Sparse.get d (Sparse.set d m k v) i = if i = k then v else Sparse.get d m i := by
  induction m with
  | nil => simp [Sparse.set, Sparse.get, hv, eq_comm]
  | cons e t ih =>
    obtain ⟨j, x⟩ := e
    simp only [Sparse.set, hv, if_false]
    split
    · simp only [Sparse.get, eq_comm (a := k)]
    · split
      · next hj =>
        subst hj
        simp only [Sparse.get, eq_comm (a := i)]
        split <;> rfl
      · next hj =>
        simp only [Sparse.get, ih]
        split
        · next hi => rw [if_neg (hi ▸ hj)]
        · rfl

/-- A pass over distinct keys writes each once, from what is read there. -/
theorem get_foldl_set {f : Nat → Nat} {P : Sparse Nat → Prop} (keeps : ∀ m k, P m → P (Sparse.set 0 m k (f (Sparse.get 0 m k))))
    (reads : ∀ m k i, P m → Sparse.get 0 (Sparse.set 0 m k (f (Sparse.get 0 m k))) i =
      if i = k then f (Sparse.get 0 m k) else Sparse.get 0 m i) {ks : List Nat} (hn : ks.Nodup) (m : Sparse Nat) (hm : P m)
    (i : Nat) : Sparse.get 0 (ks.foldl (fun m k => Sparse.set 0 m k (f (Sparse.get 0 m k))) m) i =
      if i ∈ ks then f (Sparse.get 0 m i) else Sparse.get 0 m i := by
  induction ks generalizing m with
  | nil => simp
  | cons k t ih =>
    obtain ⟨hk, ht⟩ := List.nodup_cons.mp hn
    rw [List.foldl_cons, ih ht _ (keeps m k hm), reads m k i hm]
    by_cases hi : i = k
    · subst hi
      simp [hk]
    · simp [hi]

theorem uses_raiseUses (w : Vol) (fs : List Fragment) (c : Nat) : Sparse.get 0 (w.raiseUses fs).store.uses c =
    if c ∈ clipsOf fs then Sparse.get 0 w.store.uses c + 1 else Sparse.get 0 w.store.uses c :=
  get_foldl_set (f := (· + 1)) (P := fun _ => True) (fun _ _ _ => trivial)
    (fun m k i _ => get_set_listed (Nat.succ_ne_zero _) m k i) (nodup_eraseDups _) _ trivial c

theorem uses_lowerUses {w : Vol} (fs : List Fragment) (c : Nat) (h : Sparse.wf 0 w.store.uses = true) :
    Sparse.get 0 (w.lowerUses fs).store.uses c =
      if c ∈ clipsOf fs then Sparse.get 0 w.store.uses c - 1 else Sparse.get 0 w.store.uses c :=
  get_foldl_set (f := (· - 1)) (P := fun m => Sparse.wf 0 m = true) (fun m k => Sparse.wf_set 0 m k _)
    (fun m k i hm => Sparse.get_set 0 m k _ hm i) (nodup_eraseDups _) _ h c

theorem usesCounted : UsesCounted := by
  refine fun w fs c => ⟨fun hc => ⟨?_, fun hw => ?_⟩, fun hc => ⟨?_, fun hw => ?_⟩, rfl, rfl⟩
  · rw [uses_raiseUses, if_pos ((mem_clipsOf fs c).mpr hc)]
  · rw [uses_lowerUses fs c hw, if_pos ((mem_clipsOf fs c).mpr hc)]
  · rw [uses_raiseUses, if_neg (mt (mem_clipsOf fs c).mp (not_exists.mpr hc))]
  · rw [uses_lowerUses fs c hw, if_neg (mt (mem_clipsOf fs c).mp (not_exists.mpr hc))]

/-! ### The release of a voice (R101, R107, R122) -/

/-- A voice as a release leaves it, its claim apart (R101). -/
def vacated (w : Vol) (v : Nat) (x : Voice) : Vol :=
  ((w.lowerUses x.frags).withdrawDemand v).setVoice v { Voice.initial with stalls := x.stalls, damaged := x.damaged }

theorem releaseVoice_claimed {w : Vol} {v c : Nat} (h : (w.voice v).claim = some c) :
    w.releaseVoice v = vacated (w.releaseClaim c) v (w.voice v) := by
  simp only [Vol.releaseVoice, h, vacated]

theorem releaseVoice_unclaimed {w : Vol} {v : Nat} (h : (w.voice v).claim = none) :
    w.releaseVoice v = vacated w v (w.voice v) := by
  simp only [Vol.releaseVoice, h, vacated]

/-- A read that was in progress for voice `v` is read for nobody (R122). -/
theorem withdrawDemand_store (w : Vol) (v : Nat) : (w.withdrawDemand v).store =
    { w.store with read := w.store.read.map fun r => if r.user = .voice v then { r with user := .discarded } else r } := by
  unfold Vol.withdrawDemand Vol.modStore Vol.modVoice Vol.setVoice
  dsimp only
  split
  · next r hr =>
    rw [hr, Option.map_some]
    split
    · rfl
    · rw [← hr]
  · next hr => rw [hr, Option.map_none, ← hr]

theorem withdrawDemand_voice (w : Vol) {v : Nat} (hv : v < 8) :
    (w.withdrawDemand v).voice v = { w.voice v with demand := none } :=
  Vol.voice_modVoice w (fun x => { x with demand := none }) hv

theorem voiceReleased : VoiceReleased := by
  refine fun w v hv => ⟨fun w1 hclaim hnone => ?_, withdrawDemand_voice w hv, fun r hr hu => ?_, fun hr => ?_⟩
  · cases h : (w.voice v).claim with
    | none =>
      rw [hnone h, releaseVoice_unclaimed h]
      rfl
    | some c =>
      rw [hclaim c h, releaseVoice_claimed h]
      rfl
  · rw [withdrawDemand_store, hr, Option.map_some, if_pos hu]
  · rw [withdrawDemand_store]
    cases h : w.store.read with
    | none => rw [Option.map_none, ← h]
    | some r => rw [Option.map_some, if_neg (hr r h), ← h]

/-! ### The pages that a voice demands (R106) -/

theorem lt_pagesFor_iff (p n : Nat) : p < pagesFor n ↔ p * 2048 < n := by
  simp only [pagesFor, Config.pageSamples]
  omega

/-- The pages of the fragment at a place in a list. -/
def fragmentPages (e : Fragment × Nat) : List PageRef :=
  match e.1 with
  | .clip c n => (List.range (pagesFor n)).map fun p => { frag := e.2, clip := c, page := p }
  | .pause _ => []
  | .tone _ _ => []

theorem readOrder_eq (fs : List Fragment) : readOrder fs = fs.zipIdx.flatMap fragmentPages :=
  congrArg fs.zipIdx.flatMap (funext fun ⟨f, _⟩ => by cases f <;> rfl)

theorem mem_fragmentPages (e : Fragment × Nat) (r : PageRef) :
    r ∈ fragmentPages e ↔ r.frag = e.2 ∧ ∃ n, e.1 = .clip r.clip n ∧ r.page * 2048 < n := by
  obtain ⟨f, i⟩ := e
  obtain ⟨frag, clip, page⟩ := r
  cases f with
  | clip c n =>
    simp only [fragmentPages, List.mem_map, List.mem_range, lt_pagesFor_iff, PageRef.mk.injEq, Fragment.clip.injEq]
    constructor
    · rintro ⟨p, hp, rfl, rfl, rfl⟩
      exact ⟨rfl, n, ⟨rfl, rfl⟩, hp⟩
    · rintro ⟨rfl, m, ⟨rfl, rfl⟩, hp⟩
      exact ⟨page, hp, rfl, rfl, rfl⟩
  | pause n => simp [fragmentPages]
  | tone t n => simp [fragmentPages]

theorem mem_readOrder (fs : List Fragment) (r : PageRef) :
    r ∈ readOrder fs ↔ ∃ n, fs[r.frag]? = some (.clip r.clip n) ∧ r.page * 2048 < n := by
  simp only [readOrder_eq, List.mem_flatMap, List.mem_zipIdx_iff_getElem?, mem_fragmentPages]
  constructor
  · rintro ⟨⟨f, i⟩, hf, rfl, n, rfl, hp⟩
    exact ⟨n, hf, hp⟩
  · rintro ⟨n, hf, hp⟩
    exact ⟨(_, r.frag), hf, rfl, n, rfl, hp⟩

theorem fragmentPages_pairwise (e : Fragment × Nat) : (fragmentPages e).Pairwise fun a b => a.frag = b.frag ∧ a.page < b.page := by
  obtain ⟨f, i⟩ := e
  cases f with
  | clip c n => exact List.pairwise_map.mpr (List.pairwise_lt_range.imp fun h => ⟨rfl, h⟩)
  | pause n => exact List.Pairwise.nil
  | tone t n => exact List.Pairwise.nil

theorem zipIdx_pairwise {α : Type} (l : List α) : l.zipIdx.Pairwise fun a b => a.2 < b.2 := by
  have places : (l.zipIdx.map Prod.snd).Pairwise (· < ·) := by
    rw [List.zipIdx_map_snd]
    exact List.pairwise_lt_range'
  exact List.pairwise_map.mp places

theorem readOrder_pairwise (fs : List Fragment) :
    (readOrder fs).Pairwise fun a b => a.frag < b.frag ∨ (a.frag = b.frag ∧ a.page < b.page) := by
  rw [readOrder_eq, List.pairwise_flatMap]
  refine ⟨fun e _ => (fragmentPages_pairwise e).imp .inr, (zipIdx_pairwise fs).imp fun hlt a ha b hb => .inl ?_⟩
  obtain ⟨hfrag, -⟩ := (mem_fragmentPages _ a).mp ha
  obtain ⟨hfrag', -⟩ := (mem_fragmentPages _ b).mp hb
  rwa [hfrag, hfrag']

theorem pagesDemanded : PagesDemanded := by
  refine ⟨mem_readOrder, readOrder_pairwise, ?_⟩
  rintro w v x rfl
  refine ⟨fun none => ?_, fun r hs hd hb hr => ?_⟩
  · unfold Vol.makeDemand
    dsimp only
    split
    · rfl
    · next can =>
      rw [← Option.isSome_iff_ne_none] at none
      have last : (w.voice v).nextPage = .none := by unfold Voice.nextPage; tauto
      rw [last]
  · have can : ¬ ((w.voice v).state = .idle ∨ (w.voice v).demand.isSome = true ∨ 4 ≤ (w.voice v).buffer.length) := by
      simp [hs, hd, hb]
    have next : (w.voice v).nextPage = some r := hr
    simp only [Vol.makeDemand, can, if_false, next]

/-! ### A frame of playing (R106, R109, R110) -/

theorem hasPage_iff (x : Voice) : x.hasPage = true ↔ PageAtHand x := by
  unfold Voice.hasPage Voice.neededPage PageAtHand
  cases x.frags[x.cur]? with
  | none => simp
  | some f =>
    cases f with
    | clip c n =>
      cases x.buffer with
      | nil => simp
      | cons q rest =>
        simp only [decide_eq_true_eq, Option.some.injEq, Fragment.clip.injEq, and_imp, List.cons.injEq]
        constructor
        · intro h c' n' hc _
          exact ⟨q, rest, ⟨rfl, rfl⟩, hc ▸ h⟩
        · intro h
          obtain ⟨_, _, ⟨rfl, -⟩, hq⟩ := h c n rfl rfl
          exact hq
    | pause n => simp
    | tone t n => simp

theorem clip?_isSome_iff (k : Fragment) : k.clip?.isSome = true ↔ ∃ c n, k = .clip c n := by
  cases k <;> simp [Fragment.clip?]

/-- The place of a voice after a frame of its fragment `k`. -/
def onward (x : Voice) (k : Fragment) : Voice :=
  if x.pos + 1 < k.frames then { x with pos := x.pos + 1 }
  else { x with cur := x.cur + 1, pos := 0, finished := decide (x.frags.length ≤ x.cur + 1) }

theorem advance_eq {x : Voice} {k : Fragment} {done : Bool} (hf : x.finished = false) (hk : x.frags[x.cur]? = some k)
    (hd : done = true ↔ (∃ c n, k = .clip c n) ∧ (k.frames ≤ x.pos + 1 ∨ (x.pos + 1) / 3 / 2048 ≠ x.pos / 3 / 2048)) :
    x.advance = (onward x k, done) := by
  rw [← clip?_isSome_iff] at hd
  unfold Voice.advance onward
  rw [hk]
  dsimp only
  split
  · next hp =>
    have : (k.clip?.isSome && decide ((x.pos + 1) / 3 / Config.pageSamples ≠ x.pos / 3 / Config.pageSamples)) = done := by
      rw [Bool.eq_iff_iff, hd, Bool.and_eq_true, decide_eq_true_eq, or_iff_right (Nat.not_le.mpr hp)]
      rfl
    rw [this]
  · next hp =>
    have : k.clip?.isSome = done := by
      rw [Bool.eq_iff_iff, hd, and_iff_left (.inl (Nat.not_lt.mp hp))]
    split
    · next hl => rw [decide_eq_false (Nat.not_le.mpr hl), this, ← hf]
    · next hl => rw [decide_eq_true (Nat.not_lt.mp hl), this]

section

variable {w : Vol} {nv : Nonvolatile} {v : Nat}

theorem voiceFrame_stands (h : (w.voice v).state ≠ .playing ∨ ((w.voice v).finished = true ∧ (w.voice v).source ≠ some .evacuation)) :
    w.voiceFrame nv v = (0, w) := by
  unfold Vol.voiceFrame
  dsimp only
  split
  · rfl
  · next hs =>
    obtain ⟨hf, hsource⟩ := h.resolve_left hs
    simp only [hf, hsource, Bool.not_true, Bool.false_eq_true, if_false]

theorem voiceFrame_playing (hs : (w.voice v).state = .playing) (hf : (w.voice v).finished = false) :
    w.voiceFrame nv v = w.playFrame nv v := by
  simp [Vol.voiceFrame, hs, hf]

theorem playFrame_stalls (h : (w.voice v).hasPage = false) :
    w.playFrame nv v = (0, w.setVoice v { w.voice v with state := .stalled, stalls := min 255 ((w.voice v).stalls + 1) }) := by
  simp only [Vol.playFrame, h, Bool.not_false, if_true, satInc]

theorem playFrame_plays {y : Voice} {done : Bool} (h : (w.voice v).hasPage = true) (ha : (w.voice v).advance = (y, done)) :
    w.playFrame nv v = ((w.voice v).sample nv,
      if done = true then (w.setVoice v { y with buffer := y.buffer.drop 1 }).makeDemand v else w.setVoice v y) := by
  simp only [Vol.playFrame, h, ha, Bool.not_true, Bool.false_eq_true, if_false]
  cases done <;> rfl

end

theorem voicePlays : VoicePlays := by
  rintro w nv v x rfl
  refine ⟨voiceFrame_stands, fun hs hf hp => ?_, fun k y done hs hf hp hk hy hd => ?_, fun n hk => ?_, fun k n hk => ?_,
    fun c n q rest run hk hb hrun => ?_, fun n k => ⟨rfl, Nat.mul_comm _ _, Nat.mul_comm _ _⟩⟩
  · rw [voiceFrame_playing hs hf, playFrame_stalls (Bool.eq_false_iff.mpr (mt (hasPage_iff _).mp hp))]
  · have moved : y = onward (w.voice v) k := hy
    rw [voiceFrame_playing hs hf, moved, playFrame_plays ((hasPage_iff _).mpr hp) (advance_eq hf hk hd)]
  · simp only [Voice.sample, hk]
  · simp only [Voice.sample, hk]
  · simp only [Voice.sample, hk, hb, hrun]

/-- Settles O56: the four commands of a block mark, the expansion of a request part by part, the beginning of a voice by what its
expansion and its target give, the use counts by induction on the clips of a list, the read order, a frame, the release. -/
theorem voiceMarks : Obligations.VoiceMarks :=
  ⟨voicesMarked, sourceSpeaks, fieldsRendered, listExpanded, targetResolved, voiceBegun, usesCounted, voiceReleased, pagesDemanded,
    voicePlays⟩

end Sys2Proof.Voices
end

section
/-! PROOFS. The requests of the clip store (Chapter 7): the checks that they share (R120, R121), and the own rule of each (R125 to
R133, R136). -/

namespace Sys2Proof.Store

open Sys2Proof.Machine Sys2Proof.Laws Sys2Proof.Statements
open Sys2Proof.Calls (answers_of_answer)
open Sys2Proof.Live (declines_of_act)

/-! ### The checks before the own rule (R120, R121) -/

/-- The part with the two arms clear, as a store request leaves it that passes its range check. -/
def disarmed (s : State) : State := { s with vol := s.vol.clearArms }

@[simp] theorem disarmed_fields (s : State) : (disarmed s).power = s.power ∧ (disarmed s).nv = s.nv
    ∧ (disarmed s).pending = s.pending ∧ (disarmed s).vol = s.vol.clearArms := ⟨rfl, rfl, rfl, rfl⟩

@[simp] theorem bankOpen_disarmed (s : State) (bank : ClipBank) : (disarmed s).bankOpen bank = s.bankOpen bank := rfl

@[simp] theorem clipOpen_disarmed (s : State) (c : Nat) : (disarmed s).clipOpen c = s.clipOpen c := rfl

@[simp] theorem unguarded_disarmed (s : State) : (disarmed s).unguarded = s.unguarded := rfl

@[simp] theorem fill_clearArms (w : Vol) (bank : ClipBank) : w.clearArms.fill bank = w.fill bank := by cases bank <;> rfl

section

variable {evacTest exclusive : Bool} {retires : Option Nat} {own : StoreCtl → Act} {s : State}

/-- A request that passes its range check comes to the shared checks. -/
theorem storeRequest_of_inRange {inRange : Bool} (h : inRange = true) :
    storeRequest inRange evacTest exclusive retires own s = storeRequest true evacTest exclusive retires own s := by
  rw [h]

theorem storeRequest_evacActive (h : s.vol.evac.state ≠ .normal) :
    storeRequest true true exclusive retires own s = refuse .evacActive (disarmed s) := by
  simp only [storeRequest, Bool.not_true, Bool.false_eq_true, if_false]
  exact if_pos ⟨trivial, h⟩

/-- A request that passes the test of the evacuation, or does not ask for it, comes to the tests of the store's state. -/
theorem storeRequest_noEvac (h : evacTest = true → s.vol.evac.state = .normal) :
    storeRequest true evacTest exclusive retires own s =
      if s.vol.storeStarting = true then refuse .busy (disarmed s)
      else if exclusive = true ∧ s.vol.storeInFlight = true then refuse .busy (disarmed s)
      else if retires.isSome = true ∧ s.vol.storeClip = retires then refuse .busy (disarmed s)
      else own s.vol.store (disarmed s) := by
  simp only [storeRequest, Bool.not_true, Bool.false_eq_true, if_false]
  exact if_neg fun ⟨he, hne⟩ => hne (h he)

theorem storeRequest_starting (h : evacTest = true → s.vol.evac.state = .normal) (hs : s.vol.storeStarting = true) :
    storeRequest true evacTest exclusive retires own s = refuse .busy (disarmed s) := by
  rw [storeRequest_noEvac h, if_pos hs]

theorem storeRequest_inFlight (h : s.vol.evac.state = .normal) (hs : s.vol.storeInFlight = true) :
    storeRequest true true true retires own s = refuse .busy (disarmed s) := by
  rw [storeRequest_noEvac fun _ => h]
  split
  · rfl
  · exact if_pos ⟨rfl, hs⟩

theorem storeRequest_ready {inRange : Bool} (hr : inRange = true) (hs : s.StoreFree) :
    storeRequest inRange evacTest exclusive retires own s = own s.vol.store (disarmed s) := storeRequest_free hr hs

/-- R121: a request that asks neither for a store at rest nor for a clip at rest comes to its own rule once the scan is over. -/
theorem storeRequest_own (h : evacTest = true → s.vol.evac.state = .normal) (hs : s.vol.storeStarting = false) :
    storeRequest true evacTest false none own s = own s.vol.store (disarmed s) := by
  rw [storeRequest_noEvac h]
  simp [hs]

end

section

variable {i : Instr} {h : RequestHeader} {s : State} {place kind : Nat} {act : Act}

/-- A store request that is refused behind its range check has cleared the two arms and nothing else. -/
theorem storeDeclines_of_act {code : ResultCode} (he : exec i s = .next (takeRequest h kind i.wf act s)) (hs : s.Reaches i h place)
    (hk : within 1 32 kind = true) (ha : act s = refuse code (disarmed s)) : StoreDeclines i s h kind place code :=
  answers_of_answer he hs hk ha

/-- R120, R121: the two refusals of a request that needs a store at rest outside an evacuation. -/
theorem exclusive_refused {own : StoreCtl → Act} (he : exec i s = .next (takeRequest h kind i.wf act s)) (hs : s.Reaches i h place)
    (hk : within 1 32 kind = true) (ha : act s = storeRequest true true true none own s) :
    (s.vol.evac.state ≠ .normal → StoreDeclines i s h kind place .evacActive)
      ∧ (s.vol.evac.state = .normal → s.vol.storeStarting = true ∨ s.vol.storeInFlight = true →
        StoreDeclines i s h kind place .busy) := by
  refine ⟨fun hev => storeDeclines_of_act he hs hk (ha.trans (storeRequest_evacActive hev)), fun hev hbusy => ?_⟩
  refine storeDeclines_of_act he hs hk (ha.trans ?_)
  rcases hbusy with hst | hop
  · exact storeRequest_starting (fun _ => hev) hst
  · exact storeRequest_inFlight hev hop

/-- R120, R121: the two refusals of a request that needs no operation at rest, outside an evacuation and behind the scan. -/
theorem shared_refused {exclusive : Bool} {retires : Option Nat} {own : StoreCtl → Act}
    (he : exec i s = .next (takeRequest h kind i.wf act s)) (hs : s.Reaches i h place) (hk : within 1 32 kind = true)
    (ha : act s = storeRequest true true exclusive retires own s) :
    (s.vol.evac.state ≠ .normal → StoreDeclines i s h kind place .evacActive)
      ∧ (s.vol.evac.state = .normal → s.vol.storeStarting = true → StoreDeclines i s h kind place .busy) :=
  ⟨fun hev => storeDeclines_of_act he hs hk (ha.trans (storeRequest_evacActive hev)),
    fun hev hst => storeDeclines_of_act he hs hk (ha.trans (storeRequest_starting (fun _ => hev) hst))⟩

end

/-! ### The commands -/

theorem exec_clipOpen (h : RequestHeader) (c : Nat) (bank : ClipBank) (n : Nat) (s : State) : exec (.clipOpen h c bank n) s
    = .next (takeRequest h 23 (Instr.wf (.clipOpen h c bank n)) (actClipOpen c bank n) s) := rfl

theorem exec_pageWrite (h : RequestHeader) (c i : Nat) (data : List Byte) (s : State) : exec (.pageWrite h c i data) s
    = .next (takeRequest h 24 (Instr.wf (.pageWrite h c i data)) (actPageWrite c i data) s) := rfl

theorem exec_clipSeal (h : RequestHeader) (c length : Nat) (check : BitVec 32) (s : State) : exec (.clipSeal h c length check) s
    = .next (takeRequest h 25 (Instr.wf (.clipSeal h c length check)) (actClipSeal c length check) s) := rfl

theorem exec_clipRetire (h : RequestHeader) (c : Nat) (s : State) : exec (.clipRetire h c) s
    = .next (takeRequest h 26 (Instr.wf (.clipRetire h c)) (actClipRetire c) s) := rfl

theorem exec_sectorEraseArm (h : RequestHeader) (bank : ClipBank) (k : Nat) (s : State) : exec (.sectorEraseArm h bank k) s
    = .next (takeRequest h 27 (Instr.wf (.sectorEraseArm h bank k)) (actEraseArm bank k) s) := rfl

theorem exec_sectorEraseGo (h : RequestHeader) (bank : ClipBank) (k : Nat) (s : State) : exec (.sectorEraseGo h bank k) s
    = .next (takeRequest h 28 (Instr.wf (.sectorEraseGo h bank k)) (actEraseGo bank k) s) := rfl

theorem exec_storeAbort (h : RequestHeader) (s : State) : exec (.storeAbort h) s
    = .next (takeRequest h 29 (Instr.wf (.storeAbort h)) actStoreAbort s) := rfl

theorem exec_guardSet (h : RequestHeader) (m : GuardMark) (s : State) : exec (.guardSet h m) s
    = .next (takeRequest h 30 (Instr.wf (.guardSet h m)) (actGuardSet m) s) := rfl

theorem exec_guardClear (h : RequestHeader) (m : GuardMark) (s : State) : exec (.guardClear h m) s
    = .next (takeRequest h 31 (Instr.wf (.guardClear h m)) (actGuardClear m) s) := rfl

theorem exec_programWrite (h : RequestHeader) (p : ProgramFields) (s : State) : exec (.programWrite h p) s
    = .next (takeRequest h 32 (Instr.wf (.programWrite h p)) (actProgramWrite p) s) := rfl

/-! ### The guard (R133, R134) -/

theorem unguarded_eq_false {s : State} (h : s.vol.mode = .normal ∨ s.nv.g1 = true ∨ s.nv.g2 = true) : s.unguarded = false := by
  rcases h with h | h | h <;> simp [State.unguarded, h]

theorem unguarded_eq_true {s : State} (hm : s.vol.mode = .maintenance) (h1 : s.nv.g1 = false) (h2 : s.nv.g2 = false) :
    s.unguarded = true := by
  simp [State.unguarded, hm, h1, h2]

/-- R133: bank R is guarded in NORMAL mode and while a guard mark is set. -/
theorem bankOpen_eq_false {s : State} {bank : ClipBank} (hr : bank = .r)
    (h : s.vol.mode = .normal ∨ s.nv.g1 = true ∨ s.nv.g2 = true) : s.bankOpen bank = false := by
  simp [State.bankOpen, hr, unguarded_eq_false h]

/-- A clip with a run is open to writing as its bank is. -/
theorem clipOpen_eq {s : State} {c : Nat} {bank : ClipBank} {x : Nat × Nat} (h : (s.nv.clip c).run = some (bank, x)) :
    s.clipOpen c = s.bankOpen bank := by
  simp only [State.clipOpen, h]

/-! ### CLIP OPEN (R125, R126) -/

section

variable {c n : Nat} {bank : ClipBank} {s : State}

theorem actClipOpen_badArg (s : State) (h : 1024 ≤ c ∨ n < 1 ∨ 256 < n) : actClipOpen c bank n s = refuse .badArg s := by
  have out : (decide (c < 1024) && within 1 256 n) = false := by
    rw [Bool.eq_false_iff, ne_eq, Bool.and_eq_true, decide_eq_true_eq, within_iff]
    omega
  rw [actClipOpen, out]
  rfl

theorem clipOpen_inRange (hc : c < 1024) (h1 : 1 ≤ n) (hn : n ≤ 256) : (decide (c < 1024) && within 1 256 n) = true := by
  simp [within_iff, hc, h1, hn]

theorem actClipOpen_wrongState (hr : (decide (c < 1024) && within 1 256 n) = true) (hs : s.StoreFree)
    (h : (s.nv.clip c).state ≠ .absent) : actClipOpen c bank n s = refuse .wrongState (disarmed s) := by
  rw [actClipOpen, storeRequest_ready hr hs]
  exact if_pos h

theorem actClipOpen_guarded (hr : (decide (c < 1024) && within 1 256 n) = true) (hs : s.StoreFree)
    (h : (s.nv.clip c).state = .absent) (hb : s.bankOpen bank = false) :
    actClipOpen c bank n s = refuse .guarded (disarmed s) := by
  rw [actClipOpen, storeRequest_ready hr hs]
  exact (if_neg (not_not.mpr h)).trans (if_pos (congrArg not hb))

/-- The part after a CLIP OPEN that finds its run from page `p` on. -/
def opened (s : State) (c : Nat) (bank : ClipBank) (p n : Nat) : State :=
  { s with
    nv := s.nv.setClip c { state := .writing, run := some (bank, p, n), written := 0, length := none }
    vol := s.vol.clearArms.setFill bank (if p + n < bankPages bank then p + n else 0) }

theorem actClipOpen_noRoom (hr : (decide (c < 1024) && within 1 256 n) = true) (hs : s.StoreFree)
    (h : (s.nv.clip c).state = .absent) (hb : s.bankOpen bank = true)
    (ha : s.nv.allocate bank (s.vol.fill bank) n = none) : actClipOpen c bank n s = refuse .noRoom (disarmed s) := by
  rw [actClipOpen, storeRequest_ready hr hs]
  simp [h, hb, ha]

theorem actClipOpen_opens (hr : (decide (c < 1024) && within 1 256 n) = true) (hs : s.StoreFree)
    (h : (s.nv.clip c).state = .absent) (hb : s.bankOpen bank = true) {p : Nat}
    (ha : s.nv.allocate bank (s.vol.fill bank) n = some p) :
    actClipOpen c bank n s = ({ code := .ok, body := .firstPage p }, opened s c bank p n) := by
  rw [actClipOpen, storeRequest_ready hr hs]
  have next : (if bankPages bank ≤ p + n then 0 else p + n) = if p + n < bankPages bank then p + n else 0 := by
    rw [← ite_not]
    simp only [Nat.not_le]
  simp [h, hb, ha, opened, next]

end

/-! ### PAGE WRITE (R127) -/

section

variable {c i : Nat} {data : List Byte} {s : State}

theorem actPageWrite_badArg (s : State) (h : 1024 ≤ c) : actPageWrite c i data s = refuse .badArg s := by
  have out : (decide (c < 1024) && decide (i < 256) && decide (data.length = 4096)) = false := by simp [Nat.not_lt.mpr h]
  rw [actPageWrite, out]
  rfl

/-- A PAGE WRITE as it can be sent, for a clip in range, passes its range check (R174). -/
theorem pageWrite_inRange {h : RequestHeader} (hw : Instr.wf (.pageWrite h c i data) = true) (hc : c < 1024) :
    (decide (c < 1024) && decide (i < 256) && decide (data.length = 4096)) = true := by
  simp only [Instr.wf, Bool.and_eq_true, isByte] at hw
  obtain ⟨⟨-, hi⟩, hd⟩ := hw
  simp only [hc, hi, hd, decide_true, Bool.and_self]

variable (hr : (decide (c < 1024) && decide (i < 256) && decide (data.length = 4096)) = true)
include hr

theorem actPageWrite_wrongState (hs : s.StoreFree) (h : (s.nv.clip c).state ≠ .writing) :
    actPageWrite c i data s = refuse .wrongState (disarmed s) := by
  rw [actPageWrite, storeRequest_ready hr hs]
  exact if_pos h

variable {bank : ClipBank} {first n : Nat} (hs : s.StoreFree) (h : (s.nv.clip c).state = .writing)
  (hrun : (s.nv.clip c).run = some (bank, first, n))
include hs h hrun

theorem actPageWrite_guarded (hb : s.bankOpen bank = false) : actPageWrite c i data s = refuse .guarded (disarmed s) := by
  rw [actPageWrite, storeRequest_ready hr hs]
  simp [h, clipOpen_eq hrun, hb]

variable (hb : s.bankOpen bank = true)
include hb

theorem actPageWrite_otherPage (hi : i ≠ (s.nv.clip c).written) : actPageWrite c i data s = refuse .badArg (disarmed s) := by
  rw [actPageWrite, storeRequest_ready hr hs]
  simp [h, clipOpen_eq hrun, hb, hi]

theorem actPageWrite_notErased (hi : i = (s.nv.clip c).written) (hp : n ≤ i ∨ s.nv.page bank (first + i) ≠ .erased) :
    actPageWrite c i data s = refuse .wrongState (disarmed s) := by
  rw [actPageWrite, storeRequest_ready hr hs]
  simp [h, clipOpen_eq hrun, hb, ← hi, hrun, hp]

theorem actPageWrite_starts (hi : i = (s.nv.clip c).written) (hn : i < n) (hp : s.nv.page bank (first + i) = .erased) :
    actPageWrite c i data s = (.of .accepted,
      { s with
        nv := { s.nv with opMark := .page bank (first + i) }
        vol := s.vol.clearArms.setOp (.programming c bank (first + i) data 0) }) := by
  rw [actPageWrite, storeRequest_ready hr hs]
  simp [h, clipOpen_eq hrun, hb, ← hi, hrun, hp, Nat.not_le.mpr hn]

end

/-! ### CLIP SEAL (R128) -/

section

variable {c length : Nat} {check : BitVec 32} {s : State}

theorem actClipSeal_badArg (s : State) (h : 1024 ≤ c) : actClipSeal c length check s = refuse .badArg s := by
  rw [actClipSeal, decide_eq_false (Nat.not_lt.mpr h)]
  rfl

variable {bank : ClipBank} {first n : Nat} (hc : c < 1024) (hs : s.StoreFree)
  (hrun : (s.nv.clip c).run = some (bank, first, n))
include hc hs hrun

theorem actClipSeal_wrongState (h : (s.nv.clip c).state ≠ .writing ∨ (s.nv.clip c).written ≠ n) :
    actClipSeal c length check s = refuse .wrongState (disarmed s) := by
  rw [actClipSeal, storeRequest_ready (decide_eq_true hc) hs]
  simp [hrun, h]

variable (h : (s.nv.clip c).state = .writing) (hw : (s.nv.clip c).written = n)
include h hw

theorem actClipSeal_tooLong (hl : n * 2048 < length) : actClipSeal c length check s = refuse .badArg (disarmed s) := by
  rw [actClipSeal, storeRequest_ready (decide_eq_true hc) hs]
  simp [hrun, h, hw, Config.pageSamples, hl]

variable (hl : length ≤ n * 2048)
include hl

theorem actClipSeal_guarded (hb : s.bankOpen bank = false) : actClipSeal c length check s = refuse .guarded (disarmed s) := by
  rw [actClipSeal, storeRequest_ready (decide_eq_true hc) hs]
  simp [hrun, h, hw, Config.pageSamples, Nat.not_lt.mpr hl, clipOpen_eq hrun, hb]

theorem actClipSeal_starts (hb : s.bankOpen bank = true) : actClipSeal c length check s = (.of .accepted,
    { s with vol := s.vol.clearArms.setOp (.verifying c length check 0 false) }) := by
  rw [actClipSeal, storeRequest_ready (decide_eq_true hc) hs]
  simp [hrun, h, hw, Config.pageSamples, Nat.not_lt.mpr hl, clipOpen_eq hrun, hb]

end

/-! ### CLIP RETIRE (R129) -/

section

variable {c : Nat} {s : State}

theorem actClipRetire_badArg (s : State) (h : 1024 ≤ c) : actClipRetire c s = refuse .badArg s := by
  rw [actClipRetire, decide_eq_false (Nat.not_lt.mpr h)]
  rfl

variable (hc : c < 1024) (he : s.vol.evac.state = .normal) (hst : s.vol.storeStarting = false)
include hc he hst

theorem actClipRetire_busy (h : s.vol.storeClip = some c) : actClipRetire c s = refuse .busy (disarmed s) := by
  rw [actClipRetire, storeRequest_of_inRange (decide_eq_true hc), storeRequest_noEvac fun _ => he]
  simp [hst, h]

variable (h : s.vol.storeClip ≠ some c)
include h

theorem actClipRetire_notFound (ha : (s.nv.clip c).state = .absent) : actClipRetire c s = refuse .notFound (disarmed s) := by
  rw [actClipRetire, storeRequest_of_inRange (decide_eq_true hc), storeRequest_noEvac fun _ => he]
  simp [hst, h, ha]

theorem actClipRetire_wrongState (ha : (s.nv.clip c).state = .retired) : actClipRetire c s = refuse .wrongState (disarmed s) := by
  rw [actClipRetire, storeRequest_of_inRange (decide_eq_true hc), storeRequest_noEvac fun _ => he]
  simp [hst, h, ha]

variable (ha : (s.nv.clip c).state = .writing ∨ (s.nv.clip c).state = .valid)
include ha

theorem actClipRetire_guarded (hb : s.clipOpen c = false) : actClipRetire c s = refuse .guarded (disarmed s) := by
  rw [actClipRetire, storeRequest_of_inRange (decide_eq_true hc), storeRequest_noEvac fun _ => he]
  rcases ha with ha | ha <;> simp [hst, h, ha, hb]

theorem actClipRetire_retires (hb : s.clipOpen c = true) : actClipRetire c s = (.of .ok,
    { s with nv := s.nv.setClip c { s.nv.clip c with state := .retired }, vol := s.vol.clearArms }) := by
  rw [actClipRetire, storeRequest_of_inRange (decide_eq_true hc), storeRequest_noEvac fun _ => he]
  rcases ha with ha | ha <;> simp [hst, h, ha, hb]

end

/-! ### GUARD SET and GUARD CLEAR (R133) -/

theorem actGuardSet_sets (m : GuardMark) {s : State} (hst : s.vol.storeStarting = false) :
    actGuardSet m s = (.of .ok, { s with nv := s.nv.setGuard m true, vol := s.vol.clearArms }) :=
  storeRequest_own (by simp) hst

theorem actGuardClear_guarded (m : GuardMark) {s : State} (he : s.vol.evac.state = .normal) (hst : s.vol.storeStarting = false)
    (hm : s.vol.mode = .normal) : actGuardClear m s = refuse .guarded (disarmed s) :=
  (storeRequest_own (fun _ => he) hst).trans (if_pos hm)

theorem actGuardClear_clears (m : GuardMark) {s : State} (he : s.vol.evac.state = .normal) (hst : s.vol.storeStarting = false)
    (hm : s.vol.mode = .maintenance) :
    actGuardClear m s = (.of .ok, { s with nv := s.nv.setGuard m false, vol := s.vol.clearArms }) :=
  (storeRequest_own (fun _ => he) hst).trans (if_neg (by simp [Vol.clearArms, Vol.modStore, hm]))

/-! ### SECTOR ERASE ARM and GO (R130) -/

section

variable {bank : ClipBank} {sector : Nat} {s : State}

theorem sectorInRange_eq_false (h : bankSectors bank ≤ sector) : sectorInRange bank sector = false :=
  decide_eq_false (Nat.not_lt.mpr h)

theorem actEraseArm_badArg (s : State) (h : bankSectors bank ≤ sector) : actEraseArm bank sector s = refuse .badArg s := by
  rw [actEraseArm, sectorInRange_eq_false h]
  rfl

theorem actEraseArm_eq (s : State) (h : sector < bankSectors bank) : actEraseArm bank sector s =
    storeRequest true true false none (fun _ s => if !s.bankOpen bank then refuse .guarded s
      else okVol s (s.vol.modStore fun c => { c with eraseArm := some (bank, sector) })) s :=
  storeRequest_of_inRange (decide_eq_true h)

theorem actEraseArm_guarded (h : sector < bankSectors bank) (he : s.vol.evac.state = .normal) (hst : s.vol.storeStarting = false)
    (hb : s.bankOpen bank = false) : actEraseArm bank sector s = refuse .guarded (disarmed s) := by
  rw [actEraseArm_eq s h, storeRequest_own (fun _ => he) hst]
  simp [hb]

theorem actEraseArm_arms (h : sector < bankSectors bank) (he : s.vol.evac.state = .normal) (hst : s.vol.storeStarting = false)
    (hb : s.bankOpen bank = true) : actEraseArm bank sector s = (.of .ok,
      { s with vol := { s.vol with store := { s.vol.store with eraseArm := some (bank, sector), abortArm := false } } }) := by
  rw [actEraseArm_eq s h, storeRequest_own (fun _ => he) hst]
  simp [hb]
  rfl

/-- R130: GO out of range still takes the erase arm. -/
theorem actEraseGo_badArg (s : State) (h : bankSectors bank ≤ sector) : actEraseGo bank sector s = (.of .badArg,
    { s with vol := { s.vol with store := { s.vol.store with eraseArm := none } } }) := by
  simp only [actEraseGo, sectorInRange_eq_false h]
  rfl

/-- The own rule of SECTOR ERASE GO, given the arms as they stood. -/
def eraseGo (bank : ClipBank) (sector : Nat) (old : StoreCtl) : Act := fun s =>
  if old.eraseArm ≠ some (bank, sector) then refuse .wrongState s
  else if !s.bankOpen bank then refuse .guarded s
  else if s.sectorWanted bank sector then refuse .inUse s
  else (.of .accepted, { s with nv := { s.nv with opMark := .sector bank sector }, vol := s.vol.setOp (.erasing bank sector 0) })

theorem actEraseGo_eq (s : State) (h : sector < bankSectors bank) :
    actEraseGo bank sector s = storeRequest true true true none (eraseGo bank sector) s := by
  rw [actEraseGo, sectorInRange, decide_eq_true h]
  rfl

/-- R130: what keeps a sector from its erase, read from the directory. -/
theorem sectorWanted_iff (s : State) (bank : ClipBank) (sector : Nat) :
    (disarmed s).sectorWanted bank sector = true ↔ SectorWanted s bank sector := by
  simp only [State.sectorWanted, SectorWanted, List.any_eq_true, Bool.and_eq_true, Bool.or_eq_true, decide_eq_true_eq, or_assoc]
  rfl

variable (h : sector < bankSectors bank) (hs : s.StoreFree)
include h hs

theorem actEraseGo_ready : actEraseGo bank sector s = eraseGo bank sector s.vol.store (disarmed s) := by
  rw [actEraseGo_eq s h, storeRequest_ready rfl hs]

theorem actEraseGo_unarmed (ha : s.vol.store.eraseArm ≠ some (bank, sector)) :
    actEraseGo bank sector s = refuse .wrongState (disarmed s) := (actEraseGo_ready h hs).trans (if_pos ha)

variable (ha : s.vol.store.eraseArm = some (bank, sector))
include ha

theorem actEraseGo_guarded (hb : s.bankOpen bank = false) : actEraseGo bank sector s = refuse .guarded (disarmed s) := by
  rw [actEraseGo_ready h hs, eraseGo]
  simp [ha, hb]

variable (hb : s.bankOpen bank = true)
include hb

theorem actEraseGo_inUse (hw : SectorWanted s bank sector) : actEraseGo bank sector s = refuse .inUse (disarmed s) := by
  rw [actEraseGo_ready h hs, eraseGo]
  simp [ha, hb, (sectorWanted_iff s bank sector).mpr hw]

theorem actEraseGo_starts (hw : ¬ SectorWanted s bank sector) : actEraseGo bank sector s = (.of .accepted,
    { s with
      nv := { s.nv with opMark := .sector bank sector }
      vol := s.vol.clearArms.setOp (.erasing bank sector 0) }) := by
  rw [actEraseGo_ready h hs, eraseGo]
  simp [ha, hb, Bool.eq_false_iff.mpr (mt (sectorWanted_iff s bank sector).mp hw)]

end

/-! ### STORE ABORT (R132) -/

section

variable {s : State} (hst : s.vol.storeStarting = false)
include hst

theorem actStoreAbort_arms (ha : s.vol.store.abortArm = false) : actStoreAbort s = (.of .ok,
    { s with vol := { s.vol with store := { s.vol.store with eraseArm := none, abortArm := true } } }) := by
  rw [actStoreAbort, storeRequest_own (by simp) hst]
  simp [ha]
  rfl

theorem actStoreAbort_aborts (ha : s.vol.store.abortArm = true) : actStoreAbort s = abortOperation (disarmed s) := by
  rw [actStoreAbort, storeRequest_own (by simp) hst]
  simp [ha]

end

/-! ### PROGRAM WRITE (R136) -/

section

variable {p : ProgramFields} {s : State}

/-- The clips of both lists are VALID in bank R (R136). -/
def ClipsResident (nv : Nonvolatile) (p : ProgramFields) : Prop :=
  ∀ c, .clip c ∈ p.alertList ∨ .clip c ∈ p.evacList → (nv.clip c).state = .valid ∧ ∃ x, (nv.clip c).run = some (.r, x)

theorem residentClip_clip (nv : Nonvolatile) (c : Nat) :
    nv.residentClip (.clip c) = true ↔ (nv.clip c).state = .valid ∧ ∃ x, (nv.clip c).run = some (.r, x) := by
  simp [Nonvolatile.residentClip]

theorem all_residentClip (nv : Nonvolatile) (l : List ListItem) : l.all nv.residentClip = true ↔
    ∀ c, .clip c ∈ l → (nv.clip c).state = .valid ∧ ∃ x, (nv.clip c).run = some (.r, x) := by
  rw [List.all_eq_true]
  refine ⟨fun h c hc => (residentClip_clip nv c).mp (h _ hc), fun h i hi => ?_⟩
  cases i with
  | clip c => exact (residentClip_clip nv c).mpr (h c hi)
  | tone t n => rfl

/-- R136; log entry 39: the range check of PROGRAM WRITE, its clips among it. -/
theorem programWrite_inRange_iff (nv : Nonvolatile) (p : ProgramFields) :
    (p.inRange && p.alertList.all nv.residentClip && p.evacList.all nv.residentClip) = true
      ↔ p.inRange = true ∧ ClipsResident nv p := by
  simp only [Bool.and_eq_true, all_residentClip, ClipsResident, and_assoc, or_imp]
  exact and_congr_right fun _ => forall_and.symm

theorem actProgramWrite_badArg (h : ¬ (p.inRange = true ∧ ClipsResident s.nv p)) :
    actProgramWrite p s = refuse .badArg s := by
  rw [← programWrite_inRange_iff, Bool.not_eq_true] at h
  rw [actProgramWrite, h]
  rfl

/-- The own rule of PROGRAM WRITE. -/
def programWrite (p : ProgramFields) : Act := fun s =>
  if !s.unguarded then refuse .guarded s
  else (.of .accepted,
    { s with
      nv := s.nv.spoilProgramme
      vol := s.vol.modStore fun c => { c with op := .programWrite (s.vol.programmeOf p) 0, programmeValid := false } })

theorem actProgramWrite_eq (hr : p.inRange = true) (hc : ClipsResident s.nv p) :
    actProgramWrite p s = storeRequest true true true none (fun _ => programWrite p) s := by
  rw [actProgramWrite, (programWrite_inRange_iff s.nv p).mpr ⟨hr, hc⟩]
  rfl

variable (hr : p.inRange = true) (hc : ClipsResident s.nv p) (hs : s.StoreFree)
include hr hc hs

theorem actProgramWrite_guarded (h : s.vol.mode = .normal ∨ s.nv.g1 = true ∨ s.nv.g2 = true) :
    actProgramWrite p s = refuse .guarded (disarmed s) := by
  rw [actProgramWrite_eq hr hc, storeRequest_ready rfl hs, programWrite]
  simp [unguarded_eq_false h]

theorem actProgramWrite_starts (hm : s.vol.mode = .maintenance) (h1 : s.nv.g1 = false) (h2 : s.nv.g2 = false) :
    actProgramWrite p s = (.of .accepted,
      { s with
        nv := s.nv.spoilProgramme
        vol := s.vol.clearArms.modStore fun c =>
          { c with op := .programWrite (s.vol.programmeOf p) 0, programmeValid := false } }) := by
  rw [actProgramWrite_eq hr hc, storeRequest_ready rfl hs, programWrite]
  simp [unguarded_eq_true hm h1 h2]
  rfl

end

/-! ### Sparse data read by its entries -/

section

variable {α : Type} {d : α}

/-- What is read at a key is listed there, or is what an unlisted key reads as. -/
theorem mem_of_get_ne {m : Sparse α} {k : Nat} (h : Sparse.get d m k ≠ d) : (k, Sparse.get d m k) ∈ m := by
  induction m with
  | nil => exact absurd rfl h
  | cons e t ih =>
    obtain ⟨j, w⟩ := e
    by_cases hj : j = k
    · simp [Sparse.get, hj]
    · simp only [Sparse.get, hj, if_false] at h ⊢
      exact List.mem_cons_of_mem _ (ih h)

/-- In the canonical form an entry is what its key reads as, and is not what an unlisted key reads as. -/
theorem get_of_mem [DecidableEq α] {m : Sparse α} (hm : Sparse.wf d m = true) {k : Nat} {v : α} (h : (k, v) ∈ m) :
    Sparse.get d m k = v ∧ v ≠ d := by
  induction m with
  | nil => exact absurd h List.not_mem_nil
  | cons e t ih =>
    obtain ⟨j, w⟩ := e
    have hall := Sparse.above_iff j t d
    simp only [Sparse.wf, Bool.and_eq_true, decide_eq_true_eq] at hm
    obtain ⟨⟨hw, habove⟩, ht⟩ := hm
    rcases List.mem_cons.mp h with h | h
    · obtain ⟨rfl, rfl⟩ := Prod.mk.inj h
      exact ⟨by simp [Sparse.get], hw⟩
    · have hlt : j < k := (hall ht).mp habove (k, v) h
      simp only [Sparse.get, Nat.ne_of_lt hlt, if_false]
      exact ih ht h

end

/-! ### The allocation of a run (R126) -/

section

variable (nv : Nonvolatile) (bank : ClipBank) (n : Nat)

theorem free_iff (p : Nat) : nv.free bank p = true ↔ nv.page bank p = .erased
    ∧ ∀ e ∈ nv.dir, e.2.state = .writing → e.2.meets bank p 1 = false := by
  simp only [Nonvolatile.free, Bool.and_eq_true, decide_eq_true_eq, List.all_eq_true, Bool.not_eq_true', Bool.and_eq_false_iff,
    decide_eq_false_iff_not, ← imp_iff_not_or]

theorem fits_iff (p : Nat) : nv.fits bank n p = true ↔ p + n ≤ bankPages bank ∧ ∀ i < n, nv.page bank (p + i) = .erased
    ∧ ∀ e ∈ nv.dir, e.2.state = .writing → e.2.meets bank (p + i) 1 = false := by
  simp only [Nonvolatile.fits, Bool.and_eq_true, decide_eq_true_eq, List.all_eq_true, List.mem_range, free_iff]

/-- The first start page from the fill point upward. -/
def firstFrom (fill : Nat) : Option Nat := ((List.range (bankPages bank - fill)).map (fill + ·)).find? (nv.fits bank n)

/-- The first start page below the fill point. -/
def firstBelow (fill : Nat) : Option Nat := (List.range fill).find? (nv.fits bank n)

theorem allocate_eq (fill : Nat) : nv.allocate bank fill n = (firstFrom nv bank n fill).or (firstBelow nv bank n fill) :=
  List.find?_append

variable {nv bank n}

theorem fits_lt (h1 : 1 ≤ n) {p : Nat} (h : nv.fits bank n p = true) : p < bankPages bank := by
  have := ((fits_iff nv bank n p).mp h).1
  omega

theorem firstBelow_eq_some (fill p : Nat) : firstBelow nv bank n fill = some p ↔
    nv.fits bank n p = true ∧ p < fill ∧ ∀ q < p, nv.fits bank n q = false := by
  simp only [firstBelow, List.find?_range_eq_some, List.mem_range, Bool.not_eq_true']

theorem firstFrom_eq_some (h1 : 1 ≤ n) (fill p : Nat) : firstFrom nv bank n fill = some p ↔
    nv.fits bank n p = true ∧ fill ≤ p ∧ ∀ q, fill ≤ q → q < p → nv.fits bank n q = false := by
  simp only [firstFrom, List.find?_map, Option.map_eq_some_iff, List.find?_range_eq_some, List.mem_range, Function.comp,
    Bool.not_eq_true']
  constructor
  · rintro ⟨i, ⟨hfits, -, hfirst⟩, rfl⟩
    refine ⟨hfits, Nat.le_add_right _ _, fun q hq hlt => ?_⟩
    have := hfirst (q - fill) (by omega)
    rwa [Nat.add_sub_cancel' hq] at this
  · rintro ⟨hfits, hp, hfirst⟩
    have := fits_lt h1 hfits
    refine ⟨p - fill, ⟨?_, by omega, fun j hj => hfirst _ (Nat.le_add_right _ _) (by omega)⟩, Nat.add_sub_cancel' hp⟩
    rwa [Nat.add_sub_cancel' hp]

theorem firstFrom_eq_none (h1 : 1 ≤ n) (fill : Nat) :
    firstFrom nv bank n fill = none ↔ ∀ q, fill ≤ q → nv.fits bank n q = false := by
  simp only [firstFrom, List.find?_eq_none, List.mem_map, List.mem_range, forall_exists_index, and_imp,
    forall_apply_eq_imp_iff₂, Bool.not_eq_true]
  refine ⟨fun h q hq => ?_, fun h i _ => h _ (Nat.le_add_right _ _)⟩
  rw [Bool.eq_false_iff]
  intro hfits
  have hlt := fits_lt h1 hfits
  have := h (q - fill) (by omega)
  rw [Nat.add_sub_cancel' hq, hfits] at this
  cases this

end

theorem allocationOrder : AllocationOrder := by
  refine fun nv bank fill n h1 => ⟨fits_iff nv bank n, fun p => ?_⟩
  rw [allocate_eq, Option.or_eq_some_iff, firstFrom_eq_some h1, firstFrom_eq_none h1, firstBelow_eq_some]
  tauto

theorem allocationFails : AllocationFails := by
  intro nv bank fill n h1
  have none_iff : nv.allocate bank fill n = none ↔ ∀ p, nv.fits bank n p = false := by
    rw [allocate_eq, Option.or_eq_none_iff, firstFrom_eq_none h1, firstBelow, List.find?_eq_none]
    refine ⟨fun ⟨from_, below⟩ p => ?_, fun h => ⟨fun q _ => h q, fun q _ => by simp [h q]⟩⟩
    by_cases hp : fill ≤ p
    · exact from_ p hp
    · exact Bool.eq_false_iff.mpr (below p (List.mem_range.mpr (Nat.not_le.mp hp)))
  rw [none_iff]
  refine forall_congr' fun p => ?_
  rw [Bool.eq_false_iff, ne_eq, fits_iff, not_and]
  refine forall_congr' fun _ => ?_
  push Not
  simp only [ne_eq, Bool.not_eq_false, Decidable.imp_iff_not_or]

/-! ### The statements of the requests -/

/-- What a run found by the allocation is: within the bank, at the fill point when one fits there, its pages ERASED and in the
run of no WRITING clip. -/
theorem allocated {nv : Nonvolatile} {bank : ClipBank} {fill n p : Nat} (h1 : 1 ≤ n) (h : nv.allocate bank fill n = some p) :
    p + n ≤ bankPages bank ∧ (nv.fits bank n fill = true → p = fill)
      ∧ ∀ i < n, nv.page bank (p + i) = .erased
          ∧ ∀ x, (nv.clip x).state = .writing → (nv.clip x).meets bank (p + i) 1 = false := by
  obtain ⟨hfits, horder⟩ := ((allocationOrder nv bank fill n h1).2 p).mp h
  obtain ⟨hend, hpages⟩ := (fits_iff nv bank n p).mp hfits
  refine ⟨hend, fun hfill => ?_, fun i hi => ⟨(hpages i hi).1, fun x hx => ?_⟩⟩
  · rcases horder with ⟨hle, hfirst⟩ | ⟨-, hnone, -⟩
    · refine (Nat.le_antisymm hle (Nat.not_lt.mp fun hlt => ?_)).symm
      exact Bool.false_ne_true ((hfirst fill (Nat.le_refl _) hlt).symm.trans hfill)
    · exact absurd hfill (Bool.eq_false_iff.mp (hnone fill (Nat.le_refl _)))
  · have listed : (x, nv.clip x) ∈ nv.dir := mem_of_get_ne fun habsent => by
      rw [show nv.clip x = .absent from habsent] at hx
      cases hx
    exact (hpages i hi).2 _ listed hx

theorem clipOpened : ClipOpened := by
  intro h c n bank s place hs
  have he := exec_clipOpen h c bank n s
  refine ⟨fun hbad => declines_of_act he hs rfl (actClipOpen_badArg s hbad), fun hc h1 hn hfree => ?_⟩
  have hr := clipOpen_inRange hc h1 hn
  refine ⟨fun hst => storeDeclines_of_act he hs rfl (actClipOpen_wrongState hr hfree hst),
    fun hst hbank hguard => storeDeclines_of_act he hs rfl (actClipOpen_guarded hr hfree hst (bankOpen_eq_false hbank hguard)),
    fun hst hopen => ⟨fun ha => storeDeclines_of_act he hs rfl (actClipOpen_noRoom hr hfree hst hopen ha), fun p ha => ?_⟩⟩
  obtain ⟨hend, hfill, hpages⟩ := allocated h1 ha
  exact ⟨answers_of_answer he hs rfl (actClipOpen_opens hr hfree hst hopen ha), hend, fun _ => hfill, hpages⟩

theorem pageWritten : PageWritten := by
  intro h c i data s place hs hc hfree
  have he := exec_pageWrite h c i data s
  have hr := pageWrite_inRange hs.shaped hc
  refine ⟨fun hst => storeDeclines_of_act he hs rfl (actPageWrite_wrongState hr hfree hst), fun bank first n hst hrun =>
    ⟨fun hbank hguard => ?_, fun hopen hi => ?_, fun hopen hi hp => ?_, fun hopen hi hn hp => ?_⟩⟩
  · exact storeDeclines_of_act he hs rfl (actPageWrite_guarded hr hfree hst hrun (bankOpen_eq_false hbank hguard))
  · exact storeDeclines_of_act he hs rfl (actPageWrite_otherPage hr hfree hst hrun hopen hi)
  · exact storeDeclines_of_act he hs rfl (actPageWrite_notErased hr hfree hst hrun hopen hi hp)
  · exact answers_of_answer he hs rfl (actPageWrite_starts hr hfree hst hrun hopen hi hn hp)

theorem clipSealed : ClipSealed := by
  intro h c length check bank first n s place hs hc hfree hrun
  have he := exec_clipSeal h c length check s
  refine ⟨fun hst => ?_, fun hst hw hl => ?_, fun hst hw hl hb => ?_, fun hst hw hl hb => ?_⟩
  · exact storeDeclines_of_act he hs rfl (actClipSeal_wrongState hc hfree hrun hst)
  · exact storeDeclines_of_act he hs rfl (actClipSeal_tooLong hc hfree hrun hst hw hl)
  · exact storeDeclines_of_act he hs rfl (actClipSeal_guarded hc hfree hrun hst hw hl hb)
  · exact answers_of_answer he hs rfl (actClipSeal_starts hc hfree hrun hst hw hl hb)

/-- Settles O46: each request by its checks in their order, the allocation by the first fit of its two passes. -/
theorem clipWriting : Obligations.ClipWriting := ⟨clipOpened, allocationOrder, allocationFails, pageWritten, clipSealed⟩

theorem retireAndGuards : RetireAndGuards := by
  refine ⟨fun h c n bank s place hs hc h1 hn => ?_, fun h c s place hs => ?_, fun h m s place hs hst => ?_,
    fun h m s place hs => ?_⟩
  · exact exclusive_refused (exec_clipOpen h c bank n s) hs rfl (storeRequest_of_inRange (clipOpen_inRange hc h1 hn))
  · have he := exec_clipRetire h c s
    refine ⟨fun hc => declines_of_act he hs rfl (actClipRetire_badArg s hc), fun hc hev hst =>
      ⟨fun hclip => ?_, fun hclip => ⟨fun ha => ?_, fun ha => ?_, fun ha => ⟨fun hb => ?_, fun hb => ?_⟩⟩⟩⟩
    · exact storeDeclines_of_act he hs rfl (actClipRetire_busy hc hev hst hclip)
    · exact storeDeclines_of_act he hs rfl (actClipRetire_notFound hc hev hst hclip ha)
    · exact storeDeclines_of_act he hs rfl (actClipRetire_wrongState hc hev hst hclip ha)
    · exact storeDeclines_of_act he hs rfl (actClipRetire_guarded hc hev hst hclip ha hb)
    · exact answers_of_answer he hs rfl (actClipRetire_retires hc hev hst hclip ha hb)
  · exact answers_of_answer (exec_guardSet h m s) hs rfl (actGuardSet_sets m hst)
  · have he := exec_guardClear h m s
    obtain ⟨evacActive, -⟩ := shared_refused he hs rfl rfl
    refine ⟨evacActive, fun hev hst => ⟨fun hm => ?_, fun hm => ?_⟩⟩
    · exact storeDeclines_of_act he hs rfl (actGuardClear_guarded m hev hst hm)
    · exact answers_of_answer he hs rfl (actGuardClear_clears m hev hst hm)

theorem storeChecks : StoreChecks := by
  refine ⟨fun h c i data s place hs => ?_, fun h c length check s place hs => ?_, fun h c s place hs hc => ?_,
    fun h bank sector s place hs hr => ?_, fun h bank sector s place hs => ?_, fun h s place hs hst => ?_,
    fun h m s place hs hst => ?_, fun h m s place hs hev hst => ?_⟩
  · have he := exec_pageWrite h c i data s
    have refused (hc : c < 1024) := exclusive_refused he hs rfl (storeRequest_of_inRange (pageWrite_inRange hs.shaped hc))
    exact ⟨fun hc => declines_of_act he hs rfl (actPageWrite_badArg s hc), fun hc => (refused hc).1, fun hc => (refused hc).2⟩
  · have he := exec_clipSeal h c length check s
    have refused (hc : c < 1024) := exclusive_refused he hs rfl (storeRequest_of_inRange (decide_eq_true hc))
    exact ⟨fun hc => declines_of_act he hs rfl (actClipSeal_badArg s hc), fun hc => (refused hc).1, fun hc => (refused hc).2⟩
  · exact shared_refused (exec_clipRetire h c s) hs rfl (storeRequest_of_inRange (decide_eq_true hc))
  · exact shared_refused (exec_sectorEraseArm h bank sector s) hs rfl (actEraseArm_eq s hr)
  · have he := exec_sectorEraseGo h bank sector s
    have refused (hr : sector < bankSectors bank) := exclusive_refused he hs rfl (actEraseGo_eq s hr)
    exact ⟨fun hr => answers_of_answer he hs rfl (actEraseGo_badArg s hr), fun hr => (refused hr).1, fun hr => (refused hr).2⟩
  · exact storeDeclines_of_act (exec_storeAbort h s) hs rfl (storeRequest_starting (by simp) hst)
  · exact storeDeclines_of_act (exec_guardSet h m s) hs rfl (storeRequest_starting (by simp) hst)
  · exact (shared_refused (exec_guardClear h m s) hs rfl rfl).2 hev hst

/-- Settles O47: the shared checks are stated once for the requests that need the store at rest and once for those that do not. -/
theorem clipRetiredAndGuards : Obligations.ClipRetiredAndGuards := ⟨retireAndGuards, storeChecks⟩

theorem sectorErase : SectorErase := by
  refine ⟨fun h bank sector s place hs => ?_, fun h bank sector s place hs hr hfree => ?_⟩
  · have he := exec_sectorEraseArm h bank sector s
    refine ⟨fun hr => declines_of_act he hs rfl (actEraseArm_badArg s hr), fun hr hev hst => ⟨fun hb => ?_, fun hb => ?_⟩⟩
    · exact storeDeclines_of_act he hs rfl (actEraseArm_guarded hr hev hst hb)
    · exact answers_of_answer he hs rfl (actEraseArm_arms hr hev hst hb)
  · have he := exec_sectorEraseGo h bank sector s
    refine ⟨fun ha => ?_, fun ha hb => ?_, fun ha hb hw => ?_, fun ha hb hw => ?_⟩
    · exact storeDeclines_of_act he hs rfl (actEraseGo_unarmed hr hfree ha)
    · exact storeDeclines_of_act he hs rfl (actEraseGo_guarded hr hfree ha hb)
    · exact storeDeclines_of_act he hs rfl (actEraseGo_inUse hr hfree ha hb hw)
    · exact answers_of_answer he hs rfl (actEraseGo_starts hr hfree ha hb hw)

theorem storeAborted : StoreAborted := by
  intro h s place hs hst
  have he := exec_storeAbort h s
  refine ⟨fun ha => answers_of_answer he hs rfl (actStoreAbort_arms hst ha), fun ha => ?_⟩
  have aborts := actStoreAbort_aborts hst ha
  have hop : (disarmed s).vol.store.op = s.vol.store.op := rfl
  rw [abortOperation, hop] at aborts
  refine ⟨fun ho => ?_, fun p n ho => ?_, fun c bank p data n ho => ?_, fun bank sector n ho => ?_, fun c length check next x ho => ?_⟩
  all_goals rw [ho] at aborts
  · exact answers_of_answer he hs rfl aborts
  · exact storeDeclines_of_act he hs rfl aborts
  all_goals exact answers_of_answer he hs rfl aborts

theorem verifyReadDropped : VerifyReadDropped := by
  refine fun w => ⟨fun r hr hu => ?_, fun hu => ?_⟩
  · simp only [Vol.dropVerifyRead, Vol.modStore, hr, hu, if_true]
  · unfold Vol.dropVerifyRead Vol.modStore
    dsimp only
    split
    next r hr => rw [if_neg (hu r hr)]
    next => rfl

/-- Settles O48: the erase by its two requests, the abort by the operation in flight. -/
theorem eraseAndAbort : Obligations.EraseAndAbort := ⟨sectorErase, storeAborted, verifyReadDropped⟩

/-! ### The fields of PROGRAM WRITE (R136) -/

theorem fragment_inRange_iff (i : ListItem) : i.inRange = true ↔ FragmentRange i := by
  cases i with
  | clip c => simp [ListItem.inRange, FragmentRange]; omega
  | tone t n => simp [ListItem.inRange, FragmentRange, within]; omega

theorem programRanges : ProgramRanges := by
  intro p
  rw [ProgramFields.inRange, Bool.and_eq_true, toList_all_iff none]
  refine (and_congr_right fun _ => forall₂_congr fun k _ =>
    (?line : _ ↔ ∀ e, tget none p.lines k = some e → e.debounce ≤ 255)).trans ?_
  case line => cases tget none p.lines k <;> simp
  simp only [Bool.and_eq_true, optBelow_iff, decide_eq_true_eq, List.all_eq_true, fragment_inRange_iff, Nat.lt_succ_iff, or_imp,
    forall_and, and_assoc]

theorem programmeOf_rest (w : Vol) (p : ProgramFields) : ∀ z < 64,
    tget none (w.programmeOf p).placements z = (w.zone z).placement
      ∧ tget 0 (w.programmeOf p).evacBases z = (w.zone z).evacBase :=
  fun z _ => ⟨tget_map (·.placement) .initial w.zones z, tget_map (·.evacBase) .initial w.zones z⟩

theorem programWritten : ProgramWritten := by
  intro h p s place hs
  have he := exec_programWrite h p s
  refine ⟨fun hbad => declines_of_act he hs rfl (actProgramWrite_badArg ?_), fun hr hc => ?_⟩
  · rintro ⟨hr, hc⟩
    rcases hbad with hbad | ⟨c, hmem, hbad⟩
    · exact Bool.false_ne_true (hbad.symm.trans hr)
    · exact hbad (hc c hmem)
  · obtain ⟨evacActive, busy⟩ := exclusive_refused he hs rfl (actProgramWrite_eq hr hc)
    refine ⟨evacActive, busy, fun hfree hguard => ?_, fun hfree hm h1 h2 => ?_⟩
    · exact storeDeclines_of_act he hs rfl (actProgramWrite_guarded hr hc hfree hguard)
    · refine ⟨s.vol.programmeOf p, s.nv.spoilProgramme.programmeCheck,
        answers_of_answer he hs rfl (actProgramWrite_starts hr hc hfree hm h1 h2), fun heq => ?_, rfl, rfl, rfl, rfl, rfl, rfl,
        rfl, programmeOf_rest s.vol p⟩
      exact of_decide_eq_false s.nv.spoilProgramme_mismatch heq.symm

end Sys2Proof.Store
end

section
/-! PROOFS. The ends of the store's operations (R127, R131, R136, R137), the release of reset (R134, R135, R145) and the start-up
scan. -/

namespace Sys2Proof.Store

open Sys2Proof.Machine Sys2Proof.Laws Sys2Proof.Statements
open Sys2Proof.Requests (happens_of_event)
open Sys2Proof.Reads (storeStarting_iff)

/-! ### The commands -/

theorem exec_programmingComplete (s : State) : exec .programmingComplete s
    = .next (takeEvent (fun s => s.vol.store.op.programmed) endProgramming s) := rfl

theorem exec_eraseComplete (s : State) : exec .eraseComplete s
    = .next (takeEvent (fun s => s.vol.store.op.erased) endErase s) := rfl

theorem exec_programWriteComplete (b : Bool) (s : State) : exec (.programWriteComplete b) s = .next (programWriteDone s b) := rfl

theorem exec_scanComplete (s : State) : exec .scanComplete s
    = .next (takeEvent (fun s => s.vol.storeStarting) endScan s) := rfl

theorem exec_resetRelease (b : Bool) (s : State) : exec (.resetRelease b) s = .next (lineReleased s b) := rfl

/-! ### Entries taken out and changed -/

section

variable {α : Type} {d : α}

/-- A read of a table some of whose entries were taken out, by key and value. -/
theorem get_filter [DecidableEq α] {m : Sparse α} (hm : Sparse.wf d m = true) (p : Nat × α → Bool) (k : Nat) :
    Sparse.get d (m.filter p) k = if p (k, Sparse.get d m k) = true then Sparse.get d m k else d := by
  have hw := Sparse.wf_filter d m p hm
  by_cases hin : (k, Sparse.get d m k) ∈ m.filter p
  · rw [(get_of_mem hw hin).1, if_pos (List.mem_filter.mp hin).2]
  · have out : Sparse.get d (m.filter p) k = d := by
      by_contra hne
      have hmem := mem_of_get_ne hne
      rw [(get_of_mem hm (List.mem_filter.mp hmem).1).1] at hin
      exact hin hmem
    rw [out]
    split
    next hp =>
      by_contra hne
      exact hin (List.mem_filter.mpr ⟨mem_of_get_ne (Ne.symm hne), hp⟩)
    next => rfl

/-- A read of a table whose entries were each changed in place, the unlisted value not among the changed ones. -/
theorem get_map (m : Sparse α) {f : Nat × α → Nat × α} (hk : ∀ e, (f e).1 = e.1) (hd : ∀ k, (f (k, d)).2 = d) (k : Nat) :
    Sparse.get d (m.map f) k = (f (k, Sparse.get d m k)).2 := by
  induction m with
  | nil => exact (hd k).symm
  | cons e t ih =>
    have hfe : f e = (e.1, (f e).2) := Prod.ext (hk e) rfl
    by_cases he : e.1 = k
    · subst he
      rw [List.map_cons, hfe]
      simp [Sparse.get]
    · rw [List.map_cons, hfe]
      simp only [Sparse.get, he, if_false]
      exact ih

end

/-! ### The completion of a programming (R127) -/

/-- The nonvolatile store after a page programming: the page written, its clip one page further, the operation mark none. -/
def programmed (nv : Nonvolatile) (c : Nat) (bank : ClipBank) (p : Nat) (data : List Byte) : Nonvolatile :=
  ({ nv.setPage bank p .written with mem := Memory.writePage nv.mem bank p data, opMark := .none } : Nonvolatile).setClip c
    { nv.clip c with written := (nv.clip c).written + 1 }

section

variable {s : State} {c p n : Nat} {bank : ClipBank} {data : List Byte}

theorem programmed_of_overdue {op : StoreOp} (ho : op = .programming c bank p data n) (hn : 96 ≤ n) : op.programmed = true := by
  subst ho
  exact decide_eq_true hn

theorem endProgramming_eq (ho : s.vol.store.op = .programming c bank p data n) : endProgramming s = { s with
    nv := programmed s.nv c bank p data
    vol := (s.vol.setOp .ready).notify (.storeDone (.page c false ((s.nv.clip c).written + 1))) } := by
  simp only [endProgramming, ho]
  rfl

theorem clip_programmed {nv : Nonvolatile} (hw : nv.wf = true) (x : Nat) : (programmed nv c bank p data).clip x =
    if x = c then { nv.clip c with written := (nv.clip c).written + 1 } else nv.clip x :=
  Sparse.get_set _ _ _ _ (nv.wf_iff.mp hw).2.2 _

theorem page_programmed {nv : Nonvolatile} (hw : nv.wf = true) (k : ClipBank) (q : Nat) :
    (programmed nv c bank p data).page k q = if pageIndex k q = pageIndex bank p then .written else nv.page k q :=
  nv.page_setPage bank p .written hw k q

theorem read_programmed {nv : Nonvolatile} (hw : nv.wf = true) (hd : data.length = 4096) (a : Nat) :
    Memory.read (programmed nv c bank p data).mem a =
      if pageIndex bank p * 4096 ≤ a ∧ a < pageIndex bank p * 4096 + 4096 then data.getD (a - pageIndex bank p * 4096) 0
      else Memory.read nv.mem a := by
  have written := Memory.read_writePage nv.mem bank p data (nv.wf_iff.mp hw).1 a
  rw [hd] at written
  refine written.trans ?_
  split
  next hin =>
    have hlt : a - pageIndex bank p * 4096 < data.length := by omega
    rw [List.getD_eq_getElem _ _ hlt, List.getD_eq_getElem _ _ hlt]
  next => rfl

theorem programmingCompletes (hr : s.running = true) (ho : s.vol.store.op = .programming c bank p data n) (hn : 96 ≤ n) :
    Happens .programmingComplete s { s with
      nv := programmed s.nv c bank p data
      vol := (s.vol.setOp .ready).notify (.storeDone (.page c false ((s.nv.clip c).written + 1))) } := by
  have happens := happens_of_event (exec_programmingComplete s) hr (programmed_of_overdue ho hn)
  rwa [endProgramming_eq ho] at happens

end

/-! ### The completion of an erase (R131) -/

/-- Giving one state to the pages of a sector changes the page states alone. -/
theorem setSector_eq (nv : Nonvolatile) (bank : ClipBank) (k : Nat) (x : PageState) :
    nv.setSector bank k x = { nv with pages := (nv.setSector bank k x).pages } := by
  have rest := nv.setSector_rest bank k x
  generalize nv.setSector bank k x = nv' at rest
  rw [← rest]

/-- The nonvolatile store after the erasure of a sector: its pages ERASED, its RETIRED clips ABSENT, the operation mark none. -/
def sectorErased (nv : Nonvolatile) (bank : ClipBank) (k : Nat) : Nonvolatile :=
  { nv with
    mem := Memory.eraseSector nv.mem bank k
    pages := (nv.setSector bank k .erased).pages
    dir := nv.dir.filter fun e => !(decide (e.2.state = .retired) && e.2.meets bank (64 * k) 64)
    opMark := .none }

section

variable {s : State} {k n : Nat} {bank : ClipBank}

theorem erased_of_overdue {op : StoreOp} (ho : op = .erasing bank k n) (hn : 48000 ≤ n) : op.erased = true := by
  subst ho
  exact decide_eq_true hn

theorem endErase_eq (ho : s.vol.store.op = .erasing bank k n) : endErase s = { s with
    nv := sectorErased s.nv bank k
    vol := (s.vol.setOp .ready).notify (.storeDone (.erase bank k false)) } := by
  have shape := setSector_eq s.nv bank k .erased
  simp only [endErase, ho, sectorErased]
  generalize s.nv.setSector bank k .erased = nv at shape
  rw [shape]
  rfl

theorem clip_sectorErased {nv : Nonvolatile} (hw : nv.wf = true) (x : Nat) : (sectorErased nv bank k).clip x =
    if (nv.clip x).state = .retired ∧ (nv.clip x).meets bank (64 * k) 64 = true then .absent else nv.clip x := by
  rw [Nonvolatile.clip, sectorErased, get_filter (nv.wf_iff.mp hw).2.2, ← ite_not]
  refine if_congr ?_ rfl rfl
  simp only [Bool.not_eq_true', Bool.not_eq_false, Bool.and_eq_true, decide_eq_true_eq]
  rfl

theorem page_sectorErased {nv : Nonvolatile} (hw : nv.wf = true) (j : ClipBank) (q : Nat) : (sectorErased nv bank k).page j q =
    if pageIndex bank (64 * k) ≤ pageIndex j q ∧ pageIndex j q < pageIndex bank (64 * k) + 64 then .erased else nv.page j q := by
  rw [← nv.page_setSector bank k .erased hw j q]
  simp only [Nonvolatile.page, sectorErased]

theorem eraseCompletes (hr : s.running = true) (ho : s.vol.store.op = .erasing bank k n) (hn : 48000 ≤ n) :
    Happens .eraseComplete s { s with
      nv := sectorErased s.nv bank k
      vol := (s.vol.setOp .ready).notify (.storeDone (.erase bank k false)) } := by
  have happens := happens_of_event (exec_eraseComplete s) hr (erased_of_overdue ho hn)
  rwa [endErase_eq ho] at happens

end

/-- Settles O50: the store after a programming and after an erase, read by clip, by page and by byte. -/
theorem storeCompletions : Obligations.StoreCompletions := by
  refine ⟨fun s c bank p n data hr hw ho hn hd => ?_, fun s bank k n hr hw ho hn => ?_⟩
  · refine ⟨programmed s.nv c bank p data, programmingCompletes hr ho hn, rfl, rfl, rfl, rfl, rfl, ?_, fun x hx => ?_,
      page_programmed hw, read_programmed hw hd⟩
    · rw [clip_programmed hw, if_pos rfl]
    · rw [clip_programmed hw, if_neg hx]
  · exact ⟨sectorErased s.nv bank k, eraseCompletes hr ho hn, rfl, rfl, rfl, rfl, rfl, clip_sectorErased hw,
      page_sectorErased hw, Memory.read_eraseSector s.nv.mem bank k (s.nv.wf_iff.mp hw).1⟩

/-! ### The release of reset (R134, R135, R145) -/

theorem lineReleased_writing {s : State} (b : Bool) (h : s.power = .held) (hw : s.vol.store.op.isProgramWrite = true) :
    lineReleased s b = { s with power := .releasing } := by
  simp only [lineReleased, h, hw, if_true]

theorem lineReleased_releases {s : State} (b : Bool) (h : s.power = .held) (hw : s.vol.store.op.isProgramWrite = false) :
    lineReleased s b = releaseReset s b := by
  simp only [lineReleased, h, hw, if_true, Bool.false_eq_true, if_false]

/-- R135: the programme that the blocks load. -/
theorem loaded_eq (nv : Nonvolatile) :
    nv.loaded nv.programmeMatches = if nv.programme.check = nv.programmeCheck then nv.programme else .empty := by
  simp only [Nonvolatile.loaded, Nonvolatile.programmeMatches, decide_eq_true_eq]

/-- R134: NORMAL mode asks for a high CL0 and a programme whose check matches. -/
theorem releaseReset_mode (s : State) (b : Bool) : (releaseReset s b).vol.mode =
    if b = true ∧ s.nv.programme.check = s.nv.programmeCheck then .normal else .maintenance := by
  simp only [releaseReset, Nonvolatile.programmeMatches, decide_eq_true_eq]

section

variable (w : Vol) (pr : Programme)

theorem loadProgramme_zone {z : Nat} (hz : z < 64) : (w.loadProgramme pr).zone z = { w.zone z with
    placement := tget none pr.placements z, enabled := tget false pr.enabled z, evacBase := tget 0 pr.evacBases z } := by
  simp only [Vol.zone, Vol.loadProgramme, tget_of_lt _ _ hz, Vector.getElem_mapIdx, Vol.loadZone]

theorem loadProgramme_group (g : Nat) : (w.loadProgramme pr).group g = if g = 31 then pr.group else w.group g := by
  simp only [Vol.group, Vol.loadProgramme, tget_tset]
  by_cases hg : g = 31
  · simp [hg]
  · simp [hg, Ne.symm hg]

theorem loadProgramme_line {l : Nat} (hl : l < 16) :
    (w.loadProgramme pr).line l = residentLineFrom (tget none pr.lines l) (w.line l).raw := by
  have loaded : (w.loadProgramme pr).line l = { residentLine (tget none pr.lines l) with raw := (w.line l).raw } := by
    simp only [Vol.line, Vol.loadProgramme, tget_of_lt _ _ hl, Vector.getElem_mapIdx]
  rw [loaded]
  cases tget none pr.lines l <;> rfl

end

/-- Settles O6: the programme check gives the mode and the programme that is loaded, and the load is read block by block. -/
theorem releaseOfReset : Obligations.ReleaseOfReset := by
  refine fun b s hp => ⟨fun hw => ?_, fun hw => ?_⟩
  · rw [exec_resetRelease, lineReleased_writing b hp hw]
  · refine ⟨releaseReset s b, by rw [exec_resetRelease, lineReleased_releases b hp hw], rfl, rfl, rfl, releaseReset_mode s b,
      rfl, rfl, rfl, ?_⟩
    intro pr hpr
    rw [← loaded_eq] at hpr
    subst hpr
    refine ⟨fun z hz => loadProgramme_zone _ _ hz, loadProgramme_group _ _ 31, fun g hg => ?_, rfl, fun l hl => ?_⟩
    · exact (loadProgramme_group _ _ g).trans (if_neg (by omega))
    · exact loadProgramme_line _ _ hl

/-! ### The completion of a programme write (R136) -/

section

variable {s : State} {pr : Programme} {n : Nat}

/-- The part with the record stored, the programme VALID and the write told (R136). -/
def programmeStored (s : State) (pr : Programme) : State := { s with
  nv := { s.nv with programme := pr, programmeCheck := pr.check, opMark := .none }
  vol := (s.vol.modStore fun c => { c with op := .ready, programmeValid := true }).notify (.storeDone .programme) }

theorem endProgramWrite_eq (ho : s.vol.store.op = .programWrite pr n) : endProgramWrite s = programmeStored s pr := by
  simp only [endProgramWrite, storeProgramme, ho]
  rfl

theorem programWriteDone_running (b : Bool) (ho : s.vol.store.op = .programWrite pr n) (hp : s.power = .running)
    (hn : 400 * 48 ≤ n) : programWriteDone s b = (programmeStored s pr).finish := by
  simp only [programWriteDone, ho, hp, endProgramWrite_eq ho, Config.framesPerMs, hn, if_true]

theorem programWriteDone_held (b : Bool) (ho : s.vol.store.op = .programWrite pr n) (hp : s.power = .held) :
    programWriteDone s b = programmeStored s pr := by
  simp only [programWriteDone, ho, hp, endProgramWrite_eq ho]

theorem programWriteDone_releasing (b : Bool) (ho : s.vol.store.op = .programWrite pr n) (hp : s.power = .releasing) :
    programWriteDone s b = releaseReset (programmeStored s pr) b := by
  simp only [programWriteDone, ho, hp, endProgramWrite_eq ho]

end

/-- R178: a notice enters a queue that has room behind those that wait. -/
theorem notify_notices {w : Vol} (n : Notice) (h : w.engine.notices.length < 24) :
    (w.notify n).engine.notices = w.engine.notices ++ [(w.engine.address, n)] := by
  rw [Vol.notify, if_pos (show w.engine.notices.length < Config.noticeCapacity from h)]

theorem programWriteCompleted : ProgramWriteCompleted := by
  intro b pr n s ho
  refine ⟨fun hp hn => ?_, fun hp => ?_, fun hp => ?_⟩
  · exact ⟨(programmeStored s pr).finish, by rw [exec_programWriteComplete, programWriteDone_running b ho hp hn], finish_ends _⟩
  · rw [exec_programWriteComplete, programWriteDone_held b ho hp]
    rfl
  · refine ⟨releaseReset (programmeStored s pr) b, by rw [exec_programWriteComplete, programWriteDone_releasing b ho hp], rfl, rfl,
      ?_, rfl, ?_, fun h => notify_notices (w := s.vol.modStore _) _ h⟩
    · rw [releaseReset_mode]
      simp only [programmeStored, and_true]
    · exact (programmeStored s pr).nv.storeProgramme_matches pr

/-- Settles O49. -/
theorem programmeWrite : Obligations.ProgrammeWrite := ⟨programWritten, programRanges, programWriteCompleted⟩

/-! ### The start-up scan (R137) -/

theorem dirtyMarked_count (nv : Nonvolatile) : nv.dirtyMarked.1 = markedPages nv.opMark := by
  unfold Nonvolatile.dirtyMarked
  cases nv.opMark <;> rfl

/-- R137, step 2: the pages that the mark names, and the mark, are all that it changes. -/
theorem dirtyMarked_eq (nv : Nonvolatile) : nv.dirtyMarked.2 = { nv with pages := nv.dirtyMarked.2.pages, opMark := .none } := by
  unfold Nonvolatile.dirtyMarked
  split
  next h => rw [← h]
  next => rfl
  next bank k _ => rw [setSector_eq]
  next => rfl

theorem dirtyMarked_page {nv : Nonvolatile} (hw : nv.wf = true) (bank : ClipBank) (p : Nat) :
    (MarkedPage nv.opMark (pageIndex bank p) → nv.dirtyMarked.2.page bank p = .dirty)
      ∧ (¬ MarkedPage nv.opMark (pageIndex bank p) → nv.dirtyMarked.2.page bank p = nv.page bank p) := by
  cases hm : nv.opMark with
  | none => simp only [MarkedPage, Nonvolatile.dirtyMarked, hm, false_imp_iff, not_false_iff, true_imp_iff, true_and]
  | page k q =>
    have read : nv.dirtyMarked.2.page bank p = (nv.setPage k q .dirty).page bank p := by
      simp only [Nonvolatile.dirtyMarked, hm, Nonvolatile.page]
    rw [read, nv.page_setPage k q .dirty hw]
    exact ⟨fun h => if_pos h, fun h => if_neg h⟩
  | sector k q =>
    have read : nv.dirtyMarked.2.page bank p = (nv.setSector k q .dirty).page bank p := by
      simp only [Nonvolatile.dirtyMarked, hm, Nonvolatile.page]
    rw [read, nv.page_setSector k q .dirty hw]
    exact ⟨fun h => if_pos h, fun h => if_neg h⟩
  | programme =>
    simp only [MarkedPage, Nonvolatile.dirtyMarked, hm, false_imp_iff, not_false_iff, true_imp_iff, true_and]
    rfl

/-- The nonvolatile store after the scan: the marked pages DIRTY, the mark none, every WRITING clip RETIRED. -/
def scanned (nv : Nonvolatile) : Nonvolatile := nv.dirtyMarked.2.retireWriting

theorem scanned_eq (nv : Nonvolatile) : scanned nv = { nv with
    pages := nv.dirtyMarked.2.pages
    dir := nv.dir.map fun e => if e.2.state = .writing then (e.1, { e.2 with state := .retired }) else e
    opMark := .none } := by
  rw [scanned, dirtyMarked_eq]
  rfl

theorem clip_scanned (nv : Nonvolatile) (c : Nat) : (scanned nv).clip c =
    if (nv.clip c).state = .writing then { nv.clip c with state := .retired } else nv.clip c := by
  rw [scanned_eq]
  refine (get_map nv.dir (fun e => ?_) (fun k => ?_) c).trans (apply_ite Prod.snd _ _ _)
  · dsimp only
    split <;> rfl
  · rfl

theorem endScan_eq {s : State} (hs : s.vol.storeStarting = true) : endScan s = { s with
    nv := scanned s.nv
    vol := (({ s.vol with
        store := { s.vol.store with
          op := .ready, fillR := (scanned s.nv).fillAfter .r, fillA := (scanned s.nv).fillAfter .a,
          fillB := (scanned s.nv).fillAfter .b } }).notify
      (.storeDone (.scan s.vol.store.programmeValid s.nv.writingCount (markedPages s.nv.opMark)))).scanDoneEvac } := by
  have hdir : s.nv.dirtyMarked.2.writingCount = s.nv.writingCount := by
    rw [dirtyMarked_eq]
    rfl
  rw [endScan, if_pos hs, ← dirtyMarked_count, ← hdir]
  rfl

theorem scanTaken : ScanTaken := by
  intro s n hr ho hw
  have hs : s.vol.storeStarting = true := (storeStarting_iff s.vol).mpr ⟨n, ho⟩
  have happens := happens_of_event (exec_scanComplete s) hr hs
  rw [endScan_eq hs] at happens
  refine ⟨scanned s.nv, happens, ?_, ?_, ?_, ?_, ?_, ?_, clip_scanned s.nv, fun bank p => ?_⟩
  · rw [scanned_eq]
  · rw [scanned_eq]
  · rw [scanned_eq]
  · rw [scanned_eq]
  · rw [scanned_eq]
  · rw [scanned_eq]
  · exact dirtyMarked_page hw bank p

/-! ### The fill points (R137, step 4) -/

/-- The bank's page with number `k` among all pages, counted from 1; 0 for a page of another bank. -/
def pageOf (bank : ClipBank) (k : Nat) : Nat :=
  if pageIndex bank 0 ≤ k ∧ k < pageIndex bank 0 + bankPages bank then k - pageIndex bank 0 + 1 else 0

theorem pageIndex_eq (bank : ClipBank) (p : Nat) : pageIndex bank p = pageIndex bank 0 + p := by
  simpa using pageIndex_add bank 0 p

theorem pageOf_pageIndex {bank : ClipBank} {p : Nat} (h : p < bankPages bank) : pageOf bank (pageIndex bank p) = p + 1 := by
  have := pageIndex_eq bank p
  rw [pageOf, if_pos (by omega)]
  omega

/-- One past the last page of a bank that is listed, which in the canonical form is the last one that is not ERASED. -/
def lastListed (nv : Nonvolatile) (bank : ClipBank) : Nat := nv.pages.foldl (fun m e => max m (pageOf bank e.1)) 0

theorem fillAfter_eq (nv : Nonvolatile) (bank : ClipBank) :
    nv.fillAfter bank = if bankPages bank ≤ lastListed nv bank then 0 else lastListed nv bank := by
  have step : (fun (m : Nat) (e : Nat × PageState) =>
      if pageIndex bank 0 ≤ e.1 ∧ e.1 < pageIndex bank 0 + bankPages bank then max m (e.1 - pageIndex bank 0 + 1) else m)
      = fun m e => max m (pageOf bank e.1) := by
    funext m e
    unfold pageOf
    split
    · rfl
    · exact (Nat.max_zero m).symm
  rw [Nonvolatile.fillAfter, step]
  rfl

theorem foldl_max_le {α : Type} (f : α → Nat) (l : List α) (m k : Nat) :
    l.foldl (fun m e => max m (f e)) m ≤ k ↔ m ≤ k ∧ ∀ e ∈ l, f e ≤ k := by
  induction l generalizing m with
  | nil => simp
  | cons e t ih => simp only [List.foldl_cons, ih, Nat.max_le, List.mem_cons, forall_eq_or_imp, and_assoc]

theorem lastListed_le {nv : Nonvolatile} {bank : ClipBank} (hw : nv.wf = true) {k : Nat} :
    lastListed nv bank ≤ k ↔ ∀ p < bankPages bank, nv.page bank p ≠ .erased → p < k := by
  have hpages := (nv.wf_iff.mp hw).2.1
  rw [lastListed, foldl_max_le]
  refine ⟨fun ⟨_, h⟩ p hp hne => ?_, fun h => ⟨Nat.zero_le _, fun e he => ?_⟩⟩
  · have listed := h _ (mem_of_get_ne hne)
    rw [pageOf_pageIndex hp] at listed
    exact listed
  · unfold pageOf
    split
    next hin =>
      obtain ⟨hget, hne⟩ := get_of_mem hpages he
      have := h (e.1 - pageIndex bank 0) (by omega)
      rw [Nonvolatile.page, pageIndex_eq, Nat.add_sub_cancel' hin.1, hget] at this
      exact this hne
    next => exact Nat.zero_le _

theorem fillPoints : FillPoints := by
  refine fun nv bank hw => ⟨fun herased => ?_, fun p hp hne hlast => ?_⟩
  · have hzero : lastListed nv bank = 0 := Nat.le_zero.mp ((lastListed_le hw).mpr fun p hp hne => absurd (herased p hp) hne)
    rw [fillAfter_eq, hzero]
    split <;> rfl
  · have hle : lastListed nv bank ≤ p + 1 := (lastListed_le hw).mpr fun q hq hqne =>
      Nat.lt_succ_of_le (Nat.not_lt.mp fun hlt => hqne (hlast q hq hlt))
    have hge : p < lastListed nv bank := (lastListed_le hw).mp (Nat.le_refl _) p hp hne
    have heq : lastListed nv bank = p + 1 := by omega
    rw [fillAfter_eq, heq]
    exact if_congr (by omega) rfl rfl

/-! ### The list of voice 7 after the scan (R116, R156) -/

theorem rowList_starting {w : Vol} (h : ∃ n, w.store.op = .starting n) : w.rowList = .standIn :=
  if_pos ((storeStarting_iff w).mpr h)

theorem rowList_evac {w : Vol} (h : ∀ n, w.store.op ≠ .starting n) :
    (w.evac.state = .alert → w.rowList = .alert) ∧ (w.evac.state = .evacuate → w.rowList = .evacuate) := by
  have hs : ¬ w.storeStarting = true := fun hs => by
    obtain ⟨n, hn⟩ := (storeStarting_iff w).mp hs
    exact h n hn
  refine ⟨fun he => ?_, fun he => ?_⟩
  all_goals simp only [Vol.rowList, hs, he]
  all_goals rfl

/-- A change of list gives voice 7 the list of the row. -/
theorem changeList_gives {w : Vol} (marked : Bool) {l : EvacList} (h : w.rowList = l) :
    w.changeList marked = giveList w l ({ w with evac := { w.evac with list := some l } } : Vol).listInForce marked := by
  rw [Vol.changeList, h]
  rfl

theorem changeList_stage (w : Vol) (marked : Bool) : StageListGiven w marked (w.changeList marked) :=
  ⟨fun hs => changeList_gives marked (rowList_starting hs), fun hs he => changeList_gives marked ((rowList_evac hs).1 he),
    fun hs he => changeList_gives marked ((rowList_evac hs).2 he)⟩

theorem scanTold : ScanTold := by
  refine fun w => ⟨fun h => ?_, fun h => if_neg h⟩
  rw [Vol.scanDoneEvac, if_pos h]
  exact changeList_stage w false

/-- Settles O7: the scan by its steps, the fill points as the largest listed page of a bank, the list by the row of the store's state. -/
theorem scanComplete : Obligations.ScanComplete := ⟨scanTaken, fillPoints, scanTold⟩

end Sys2Proof.Store
end

section
/-! PROOFS. What the commands leave of the nonvolatile store: which acts of the requests leave it as it was, and which of the others
leave its bytes and its guard marks (R127, R131, R133). -/

namespace Sys2Proof.Store

open Sys2Proof.Machine Sys2Proof.Laws Sys2Proof.Statements

/-! ### What an act leaves of the nonvolatile store -/

section

variable {α : Type} {f : Nonvolatile → α}

/-- `f` reads of the nonvolatile store its bytes and its guard marks at most. -/
def Indifferent (f : Nonvolatile → α) : Prop :=
  ∀ nv pages dir programme check mark,
    f { nv with pages := pages, dir := dir, programme := programme, programmeCheck := check, opMark := mark } = f nv

/-- What `f` reads of the nonvolatile store stands in `s'` as in `s`. -/
def Stands (f : Nonvolatile → α) (s s' : State) : Prop := f s'.nv = f s.nv

/-- The act leaves what `f` reads of the nonvolatile store. -/
def Keeps (f : Nonvolatile → α) (act : Act) : Prop := ∀ s, Stands f s (act s).2

theorem indifferent_bytes : Indifferent Nonvolatile.mem := fun _ _ _ _ _ _ => rfl

theorem indifferent_guards : Indifferent fun nv => (nv.g1, nv.g2) := fun _ _ _ _ _ _ => rfl

/-- A choice of two answers that both leave it. -/
theorem Stands.ite {s : State} {c : Prop} [Decidable c] {a b : Answer × State} (ha : Stands f s a.2) (hb : Stands f s b.2) :
    Stands f s (if c then a else b).2 := by
  split
  · exact ha
  · exact hb

/-- A choice of two states that both have it. -/
theorem Stands.choice {s : State} {c : Prop} [Decidable c] {a b : State} (ha : Stands f s a) (hb : Stands f s b) :
    Stands f s (if c then a else b) := by
  split
  · exact ha
  · exact hb

theorem stands_refuse (c : ResultCode) (s : State) : Stands f s (refuse c s).2 := rfl

theorem stands_okVol (s : State) (w : Vol) : Stands f s (okVol s w).2 := rfl

theorem keeps_refuse (c : ResultCode) : Keeps f (refuse c) := fun _ => rfl

/-! ### Link and administration, tables -/

theorem keeps_hello : Keeps f actHello := fun _ => rfl

theorem keeps_address (a : Nat) : Keeps f (actAddress a) := fun _ => .ite rfl (.ite rfl rfl)

theorem keeps_status (clear : Bool) : Keeps f (actStatus clear) := by
  intro s
  cases clear <;> rfl

theorem keeps_resetAudio : Keeps f actResetAudio := fun s => .ite (stands_refuse _ s) (stands_okVol s _)

theorem keeps_resetFull : Keeps f actResetFull := fun s =>
  .ite (stands_refuse _ s) (.ite (stands_refuse _ s) (stands_okVol s _))

theorem keeps_alertMask (cs : List Nat) : Keeps f (actAlertMask cs) := fun _ => .ite rfl rfl

theorem keeps_writeZone (r : ZoneRecord) : Keeps f (actWriteZone r) := fun _ => .ite rfl (.ite rfl (.ite rfl (.ite rfl rfl)))

theorem keeps_writeGroup (g : Nat) (ms : List Nat) : Keeps f (actWriteGroup g ms) := fun _ => .ite rfl (.ite rfl (.ite rfl rfl))

theorem keeps_writePlatform (p : Nat) (g t : Option Nat) : Keeps f (actWritePlatform p g t) := fun _ => .ite rfl rfl

theorem keeps_writeProfile (r : ProfileRecord) : Keeps f (actWriteProfile r) := fun _ => .ite rfl rfl

theorem keeps_writeTemplate (r : TemplateRecord) : Keeps f (actWriteTemplate r) := fun _ => .ite (.ite rfl rfl) (.ite rfl rfl)

theorem keeps_writeHours (first : Nat) (es : List (Option Nat)) : Keeps f (actWriteHours first es) := fun _ => .ite rfl rfl

theorem keeps_writeMinutes (first : Nat) (es : List (Option Nat)) : Keeps f (actWriteMinutes first es) := fun _ => .ite rfl rfl

theorem keeps_writeNumbers (first : Nat) (es : List (Option Nat)) : Keeps f (actWriteNumbers first es) := fun _ => .ite rfl rfl

theorem keeps_writePlatPhrases (first : Nat) (es : List (Option Nat)) : Keeps f (actWritePlatPhrases first es) :=
  fun _ => .ite rfl rfl

theorem keeps_writeDests (first : Nat) (es : List (Option Nat)) : Keeps f (actWriteDests first es) := fun _ => .ite rfl rfl

theorem keeps_writeLine (r : LineRecord) : Keeps f (actWriteLine r) := fun _ => .ite rfl (.ite rfl rfl)

theorem keeps_writeGenerator (g p r k : Nat) : Keeps f (actWriteGenerator g p r k) := fun _ => .ite rfl rfl

theorem keeps_writeLink (d rate : Nat) : Keeps f (actWriteLink d rate) := fun _ => .ite rfl rfl

theorem keeps_tableRead (cls : Nat) (index : ReadIndex) : Keeps f (actTableRead cls index) := by
  intro s
  unfold actTableRead
  split <;> rfl

/-! ### Clock and calls -/

theorem keeps_time (t b : Nat) : Keeps f (actTime t b) := fun _ => .ite rfl rfl

theorem keeps_callLoad (c : CallLoad) : Keeps f (actCallLoad c) := fun _ => .ite rfl (.ite rfl rfl)

theorem keeps_callUpdate (slot : Nat) (expected platform : Carried Nat) : Keeps f (actCallUpdate slot expected platform) := by
  intro s
  refine .ite rfl ?_
  split
  · rfl
  · refine .ite rfl ?_
    split <;> rfl

theorem keeps_markArrived (slot : Nat) : Keeps f (actMarkArrived slot) := by
  intro s
  refine .ite rfl ?_
  split
  · rfl
  · split
    · rfl
    · exact .ite rfl rfl

theorem keeps_markDeparted (slot : Nat) : Keeps f (actMarkDeparted slot) := by
  intro s
  refine .ite rfl ?_
  split
  · rfl
  · exact .ite rfl rfl

theorem keeps_callCancel (slot : Nat) : Keeps f (actCallCancel slot) := by
  intro s
  refine .ite rfl ?_
  split
  · rfl
  · exact .ite rfl rfl

theorem keeps_callRemove (slot : Nat) : Keeps f (actCallRemove slot) := by
  intro s
  refine .ite rfl ?_
  split <;> rfl

/-! ### Announcements, live sources, the mixer, evacuation -/

theorem keeps_announce (a : Announcement) : Keeps f (actAnnounce a) := by
  intro s
  refine .ite rfl ?_
  split
  · rfl
  · refine .ite rfl ?_
    split <;> rfl

theorem keeps_announceCancel (n : Nat) : Keeps f (actAnnounceCancel n) := by
  intro s
  unfold actAnnounceCancel
  split
  · rfl
  · exact .ite rfl (.ite rfl rfl)

theorem keeps_liveStart (l : LiveStart) : Keeps f (actLiveStart l) := by
  intro s
  refine .ite rfl (.ite rfl ?_)
  split <;> rfl

theorem keeps_liveStartEvac (l : LiveStart) : Keeps f (actLiveStartEvac l) := by
  intro s
  refine .ite rfl ?_
  split
  · rfl
  · refine .ite rfl (.ite rfl (.ite rfl ?_))
    split <;> rfl

theorem keeps_liveStop (l : Nat) : Keeps f (actLiveStop l) := fun _ => .ite rfl (.ite rfl rfl)

theorem keeps_gainSet (es : List GainEntry) : Keeps f (actGainSet es) := fun _ => .ite rfl rfl

theorem keeps_monitor (z : Option Nat) : Keeps f (actMonitor z) := fun _ => .ite rfl rfl

theorem keeps_evacStart : Keeps f actEvacStart := fun _ => .ite rfl rfl

theorem keeps_evacEscalate : Keeps f actEvacEscalate := fun _ => .ite rfl rfl

theorem keeps_evacStop : Keeps f actEvacStop := fun _ => .ite rfl rfl

/-! ### The clip store: the acts that leave bytes and guard marks -/

/-- A store request leaves what its own rule leaves. -/
theorem stands_storeRequest {inRange evacTest exclusive : Bool} {retires : Option Nat} {own : StoreCtl → Act}
    (h : ∀ old, Keeps f (own old)) (s : State) : Stands f s (storeRequest inRange evacTest exclusive retires own s).2 :=
  .ite rfl (.ite rfl (.ite rfl (.ite rfl (.ite rfl (h s.vol.store (disarmed s))))))

theorem keeps_clipSeal (c length : Nat) (check : BitVec 32) : Keeps f (actClipSeal c length check) := by
  refine stands_storeRequest fun _ s => ?_
  dsimp only
  split
  · rfl
  · exact .ite rfl (.ite rfl (.ite rfl rfl))

theorem keeps_eraseArm (bank : ClipBank) (k : Nat) : Keeps f (actEraseArm bank k) := stands_storeRequest fun _ _ => .ite rfl rfl

theorem keeps_eraseGoOutOfRange : Keeps f eraseGoOutOfRange := fun _ => rfl

section

variable (hf : Indifferent f)
include hf

theorem indifferent_setClip (nv : Nonvolatile) (c : Nat) (x : ClipEntry) : f (nv.setClip c x) = f nv := hf nv _ _ _ _ _

theorem indifferent_setSector (nv : Nonvolatile) (bank : ClipBank) (k : Nat) (x : PageState) (mark : OpMark) :
    f { nv.setSector bank k x with opMark := mark } = f nv := by
  rw [setSector_eq]
  exact hf nv _ _ _ _ _

theorem keeps_clipOpen (c : Nat) (bank : ClipBank) (n : Nat) : Keeps f (actClipOpen c bank n) := by
  refine stands_storeRequest fun _ s => .ite rfl (.ite rfl ?_)
  split
  · rfl
  · exact indifferent_setClip hf s.nv _ _

theorem keeps_pageWrite (c i : Nat) (data : List Byte) : Keeps f (actPageWrite c i data) := by
  refine stands_storeRequest fun _ s => .ite rfl (.ite rfl (.ite rfl ?_))
  split
  · rfl
  · exact .ite rfl (hf s.nv _ _ _ _ _)

theorem keeps_clipRetire (c : Nat) : Keeps f (actClipRetire c) :=
  stands_storeRequest fun _ s => .ite rfl (.ite rfl (.ite rfl (indifferent_setClip hf s.nv _ _)))

theorem keeps_eraseGo (bank : ClipBank) (k : Nat) : Keeps f (actEraseGo bank k) := fun s =>
  .ite (keeps_eraseGoOutOfRange s) (stands_storeRequest (own := eraseGo bank k)
    (fun _ s => .ite rfl (.ite rfl (.ite rfl (hf s.nv _ _ _ _ _)))) s)

theorem keeps_abortOperation : Keeps f abortOperation := by
  intro s
  unfold abortOperation
  split
  · exact hf s.nv _ _ _ _ _
  · exact indifferent_setSector hf s.nv _ _ _ _
  · rfl
  · rfl
  · rfl
  · rfl

theorem keeps_storeAbort : Keeps f actStoreAbort := stands_storeRequest fun _ s => .ite (keeps_abortOperation hf s) rfl

theorem keeps_programWrite (p : ProgramFields) : Keeps f (actProgramWrite p) := fun s =>
  stands_storeRequest (own := fun _ => programWrite p) (fun _ s => .ite rfl (hf s.nv _ _ _ _ _)) s

end

theorem setGuard_mem (nv : Nonvolatile) (m : GuardMark) (x : Bool) : (nv.setGuard m x).mem = nv.mem := by
  cases m <;> rfl

theorem keeps_guardSet (m : GuardMark) : Keeps Nonvolatile.mem (actGuardSet m) :=
  stands_storeRequest fun _ s => setGuard_mem s.nv m true

theorem keeps_guardClear (m : GuardMark) : Keeps Nonvolatile.mem (actGuardClear m) :=
  stands_storeRequest fun _ s => .ite rfl (setGuard_mem s.nv m false)

/-! ### What the commands do with an act -/

theorem stands_whenRunning {act : State → State} {s : State} (h : Stands f s (act s)) : Stands f s (whenRunning s act) :=
  .choice h rfl

theorem stands_answerRequest {act : Act} (h : Keeps f act) (kind : Nat) (shaped : Bool) : Keeps f (answerRequest kind shaped act) :=
  fun s => .ite rfl (.ite rfl (.ite rfl (h s)))

theorem stands_endRequest {s : State} (h : RequestHeader) (kind place : Nat) {r : Answer × State} (hr : Stands f s r.2) :
    Stands f s (endRequest h kind place r) := hr

theorem stands_takeRequest {act : Act} (h : Keeps f act) (hd : RequestHeader) (kind : Nat) (shaped : Bool) (s : State) :
    Stands f s (takeRequest hd kind shaped act s) := by
  refine stands_whenRunning (.choice rfl ?_)
  split
  · rfl
  · exact stands_endRequest _ _ _ (stands_answerRequest h kind shaped s)

theorem stands_takeMark (m : MarkPart) (due : Vol → Bool) (act : Nonvolatile → Vol → Vol) (s : State) :
    Stands f s (takeMark m due act s) := stands_whenRunning (.choice rfl rfl)

theorem stands_takeEvent {due : State → Bool} {act : State → State} {s : State} (h : Stands f s (act s)) :
    Stands f s (takeEvent due act s) := stands_whenRunning (.choice h rfl)

theorem stands_onVol (g : Nonvolatile → Vol → Vol) (s : State) : Stands f s (s.onVol g) := rfl

theorem Stands.trans {a b c : State} (h : Stands f a b) (k : Stands f b c) : Stands f a c := Eq.trans k h

/-- An event of the volatile part alone. -/
theorem stands_event (s : State) (w : Vol) : Stands f s (State.finish { s with vol := w }) := rfl

theorem stands_takeReport (p : Nat) (r : ReportMessage) (s : State) : Stands f s (takeReport p r s) := by
  unfold takeReport
  split <;> rfl

theorem stands_takeNodeFrame (p : Nat) (x : NodeFrame) (s : State) : Stands f s (takeNodeFrame p x s) := by
  unfold takeNodeFrame
  dsimp only
  split
  · exact (stands_event s _).trans (stands_takeReport p _ _)
  · exact stands_event s _

theorem stands_discardMessage (m : MessageHeader) (s : State) : Stands f s (discardMessage m s) :=
  .choice rfl (.choice rfl (.choice rfl rfl))

theorem stands_dueEntry (s : State) : Stands f s s.takeHeadDue := by
  unfold State.takeHeadDue
  split <;> rfl

/-! ### The bodies of requests, read from their bytes (R174, R179) -/

/-- Every act that a reading gives leaves what `f` reads of the nonvolatile store. -/
def GivesKeeping (f : Nonvolatile → α) (o : Option Act) : Prop := ∀ act, o = some act → Keeps f act

theorem GivesKeeping.some {act : Act} (h : Keeps f act) : GivesKeeping f (some act) := fun _ ha => Option.some.inj ha ▸ h

theorem GivesKeeping.none : GivesKeeping f none := fun _ ha => nomatch ha

theorem GivesKeeping.bind {β : Type} {o : Option β} {g : β → Option Act} (h : ∀ b, GivesKeeping f (g b)) :
    GivesKeeping f (o >>= g) := fun act ha => by
  obtain ⟨b, -, hb⟩ := Option.bind_eq_some_iff.mp ha
  exact h b act hb

theorem GivesKeeping.map {β : Type} {o : Option β} {g : β → Act} (h : ∀ b, Keeps f (g b)) : GivesKeeping f (o.map g) :=
  fun act ha => by
    obtain ⟨b, -, rfl⟩ := Option.map_eq_some_iff.mp ha
    exact h b

theorem GivesKeeping.handed {shape : Bool} {o : Option Act} (h : GivesKeeping f o) : GivesKeeping f (handed shape o) := by
  intro act ha
  cases shape with
  | false => cases ha
  | true =>
    obtain rfl := Option.some.inj ha
    cases o with
    | none => exact keeps_refuse _
    | some act => exact h act rfl

theorem givesKeeping_writeZone (bs : List Byte) : GivesKeeping f (readZone bs) :=
  .handed (.bind fun _ => .bind fun _ => .some (keeps_writeZone _))

theorem givesKeeping_writeTemplate (bs : List Byte) : GivesKeeping f (readTemplate bs) := by
  refine .handed ?_
  split
  · exact .some (keeps_writeTemplate _)
  · exact .bind fun _ => .bind fun _ => .bind fun _ => .bind fun _ => .some (keeps_writeTemplate _)

theorem givesKeeping_phrases {write : Nat → List (Option Nat) → Act} (h : ∀ first es, Keeps f (write first es)) (bs : List Byte) :
    GivesKeeping f (readPhrases write bs) := .handed (.bind fun _ => .some (h _ _))

theorem givesKeeping_writeLine (bs : List Byte) : GivesKeeping f (readLine bs) :=
  .handed (.bind fun _ => .bind fun _ => .bind fun _ => .some (keeps_writeLine _))

theorem givesKeeping_write (cls : Nat) (bs : List Byte) : GivesKeeping f (readWrite cls bs) := by
  unfold readWrite
  split
  · exact givesKeeping_writeZone bs
  · exact .handed (.some (keeps_writeGroup _ _))
  · exact .handed (.some (keeps_writePlatform _ _ _))
  · exact .handed (.some (keeps_writeProfile _))
  · exact givesKeeping_writeTemplate bs
  · exact givesKeeping_phrases keeps_writeHours bs
  · exact givesKeeping_phrases keeps_writeMinutes bs
  · exact givesKeeping_phrases keeps_writeNumbers bs
  · exact givesKeeping_phrases keeps_writePlatPhrases bs
  · exact givesKeeping_phrases keeps_writeDests bs
  · exact givesKeeping_writeLine bs
  · exact .handed (.some (keeps_writeGenerator _ _ _ _))
  · exact .handed (.some (keeps_writeLink _ _))
  · exact .some (keeps_refuse _)
  · exact .some (keeps_refuse _)
  · exact .some (keeps_refuse _)
  · exact .none

theorem givesKeeping_index (cls : Nat) (bs : List Byte) : GivesKeeping f (readIndexFields cls bs) := by
  unfold readIndexFields
  split
  · exact .some (keeps_tableRead _ _)
  · split
    · exact .handed (.some (keeps_tableRead _ _))
    · split
      · exact .handed (.some (keeps_tableRead _ _))
      · exact .handed (.some (keeps_tableRead _ _))

theorem givesKeeping_reset (bs : List Byte) : GivesKeeping f (namedAt bs 0 [actResetAudio, actResetFull]) := by
  intro act ha
  have hmem := List.mem_of_getElem? ha
  simp only [List.mem_cons, List.not_mem_nil, or_false] at hmem
  rcases hmem with rfl | rfl
  · exact keeps_resetAudio
  · exact keeps_resetFull

theorem givesKeeping_callMark (bs : List Byte) : GivesKeeping f (readCallMark bs) := by
  refine .handed ?_
  split
  · exact .some (keeps_markArrived _)
  · exact .some (keeps_markDeparted _)
  · exact .none

theorem givesKeeping_liveStart (bs : List Byte) : GivesKeeping f (readLiveStart bs) := by
  refine .handed (.bind fun evacuation => ?_)
  cases evacuation with
  | false => exact .some (keeps_liveStart _)
  | true => exact .some (keeps_liveStartEvac _)

theorem givesKeeping_eraseGo (hf : Indifferent f) (bs : List Byte) : GivesKeeping f (readEraseGo bs) := by
  refine .handed (.some ?_)
  split
  · exact keeps_eraseGo hf _ _
  · exact keeps_eraseGoOutOfRange

/-- No request, as its bytes spell it, writes a byte of the clip store. -/
theorem givesKeeping_body (kind : Nat) (bs : List Byte) : GivesKeeping Nonvolatile.mem (readBody kind bs) := by
  have hf := indifferent_bytes
  unfold readBody
  split
  · exact .handed (.some keeps_hello)
  · exact .handed (.some (keeps_address _))
  · exact .handed (.map keeps_status)
  · exact .handed (givesKeeping_reset bs)
  · exact .handed (.some (keeps_alertMask _))
  · split
    · exact .none
    · exact givesKeeping_write _ _
  · split
    · exact .none
    · exact givesKeeping_index _ _
  · exact .handed (.some (keeps_time _ _))
  · exact .handed (.bind fun _ => .bind fun _ => .some (keeps_callLoad _))
  · exact .handed (.bind fun _ => .bind fun _ => .some (keeps_callUpdate _ _ _))
  · exact givesKeeping_callMark bs
  · exact .handed (.some (keeps_callCancel _))
  · exact .handed (.some (keeps_callRemove _))
  · exact .handed (.bind fun _ => .bind fun _ => .bind fun _ => .bind fun _ => .bind fun _ => .bind fun _ => .bind fun _ =>
      .bind fun _ => .some (keeps_announce _))
  · exact .handed (.some (keeps_announceCancel _))
  · exact givesKeeping_liveStart bs
  · exact .handed (.some (keeps_liveStop _))
  · exact .handed (.map keeps_gainSet)
  · exact .handed (.some (keeps_monitor _))
  · exact .handed (.some keeps_evacStart)
  · exact .handed (.some keeps_evacEscalate)
  · exact .handed (.some keeps_evacStop)
  · exact .handed (.map fun _ => keeps_clipOpen hf _ _ _)
  · exact .handed (.some (keeps_pageWrite hf _ _ _))
  · exact .handed (.some (keeps_clipSeal _ _ _))
  · exact .handed (.some (keeps_clipRetire hf _))
  · exact .handed (.map fun _ => keeps_eraseArm _ _)
  · exact givesKeeping_eraseGo hf bs
  · exact .handed (.some (keeps_storeAbort hf))
  · exact .handed (.map keeps_guardSet)
  · exact .handed (.map keeps_guardClear)
  · exact .handed (.bind fun _ => .bind fun _ => .bind fun _ => .bind fun _ => .some (keeps_programWrite hf _))
  · exact .none

theorem stands_takeMessage (bs : List Byte) (s : State) : Stands Nonvolatile.mem s (takeMessage bs s) := by
  unfold takeMessage
  split
  · rfl
  · refine stands_takeRequest ?_ _ _ _ s
    cases hact : readBody (oneAt bs 2) (bs.drop 8) with
    | none => exact keeps_refuse _
    | some act => exact givesKeeping_body _ _ act hact

theorem stands_takeUpFrame (x : UpFrame) (s : State) : Stands Nonvolatile.mem s (takeUpFrame x s) := by
  unfold takeUpFrame
  dsimp only
  split
  · exact (stands_event s _).trans (stands_takeMessage _ _)
  · exact stands_event s _

end

end Sys2Proof.Store
end

section
/-! PROOFS. What every command leaves of the nonvolatile store, and what a frame does to it (R127, R131, R133, R136; log entry 8). -/

namespace Sys2Proof.Store

open Sys2Proof.Machine Sys2Proof.Laws Sys2Proof.Statements

/-! ### The operations of the store that write neither bytes nor guard marks -/

section

variable {α : Type} {f : Nonvolatile → α} (hf : Indifferent f)
include hf

theorem stands_completeRead (s : State) (v : ReadVerdict) : Stands f s (completeRead s v) := by
  obtain ⟨-, hnv, -⟩ := completeRead_keeps s v
  have dir := hf (completeRead s v).nv (completeRead s v).nv.pages s.nv.dir (completeRead s v).nv.programme
    (completeRead s v).nv.programmeCheck (completeRead s v).nv.opMark
  exact dir.symm.trans (congrArg f hnv)

theorem stands_endScan (s : State) : Stands f s (endScan s) := by
  by_cases hs : s.vol.storeStarting = true
  · rw [endScan_eq hs, Stands, scanned_eq]
    exact hf s.nv _ _ _ _ _
  · rw [endScan, if_neg hs]
    rfl

theorem stands_endProgramWrite (s : State) : Stands f s (endProgramWrite s) := by
  unfold endProgramWrite
  split
  · simp only [storeProgramme, *]
    exact hf s.nv _ _ _ _ _
  · rfl

theorem stands_programWriteDone (s : State) (b : Bool) : Stands f s (programWriteDone s b) := by
  have ended := stands_endProgramWrite hf s
  unfold programWriteDone
  split
  · split
    · exact .choice ended rfl
    · exact ended
    · exact ended
    · rfl
  · rfl

/-! ### The commands -/

/-- A command that neither completes a programming or an erase nor acts on a guard mark leaves bytes and guard marks. -/
theorem exec_stands (i : Instr) (s : State) (hw : writesBytes i = false) (hg : actsOnGuards i = false) :
    ∃ t, exec i s = .next t ∧ Stands f s t := by
  cases i with
  | frameClockFrame | programmingComplete | eraseComplete => cases hw
  | guardSet | guardClear | upstreamFrame => cases hg
  | powerOn | powerLoss => exact ⟨_, rfl, rfl⟩
  | lineReset => exact ⟨_, rfl, .choice rfl rfl⟩
  | resetRelease => exact ⟨_, rfl, .choice (.choice rfl rfl) rfl⟩
  | scanComplete => exact ⟨_, rfl, stands_takeEvent (stands_endScan hf s)⟩
  | pageReadComplete v => exact ⟨_, rfl, stands_takeEvent (stands_completeRead hf s v)⟩
  | verifyComplete v => exact ⟨_, rfl, stands_takeEvent (stands_completeRead hf s v)⟩
  | programWriteComplete b => exact ⟨_, rfl, stands_programWriteDone hf s b⟩
  | contactEdge l =>
    show ∃ t, execContactEdge l s = .next t ∧ Stands f s t
    unfold execContactEdge
    split
    · exact ⟨_, rfl, stands_takeMark _ _ _ s⟩
    · exact ⟨s, rfl, rfl⟩
  | dueEntryTaken => exact ⟨_, rfl, stands_takeEvent (stands_dueEntry s)⟩
  | generatorPeriodEnd | lineSettle | secondAdvance | voiceStart | voiceResume | voiceEnd | voiceCancelStop | evacListChange
  | zoneSilenceExpiry | talkLimit | laneAbsent | alertTimerExpiry => exact ⟨_, rfl, stands_takeMark _ _ _ s⟩
  | requestReady | requestExpired | portActivity | portActivityLost | syncFound | outboundMessageStart | messageSendComplete =>
    exact ⟨_, rfl, stands_takeEvent (stands_onVol _ s)⟩
  | nodeReturnFrame p x => exact ⟨_, rfl, stands_whenRunning (stands_takeNodeFrame p x s)⟩
  | upMessageDiscarded m => exact ⟨_, rfl, stands_whenRunning (stands_discardMessage m s)⟩
  | zoneReport p r => exact ⟨_, rfl, stands_whenRunning (stands_takeReport p r s)⟩
  | requestUnknownKind => exact ⟨_, rfl, stands_takeRequest (keeps_refuse _) _ _ _ s⟩
  | hello => exact ⟨_, rfl, stands_takeRequest keeps_hello _ _ _ s⟩
  | address => exact ⟨_, rfl, stands_takeRequest (keeps_address _) _ _ _ s⟩
  | status => exact ⟨_, rfl, stands_takeRequest (keeps_status _) _ _ _ s⟩
  | resetAudio => exact ⟨_, rfl, stands_takeRequest keeps_resetAudio _ _ _ s⟩
  | resetFull => exact ⟨_, rfl, stands_takeRequest keeps_resetFull _ _ _ s⟩
  | alertMask => exact ⟨_, rfl, stands_takeRequest (keeps_alertMask _) _ _ _ s⟩
  | tableWriteZone => exact ⟨_, rfl, stands_takeRequest (keeps_writeZone _) _ _ _ s⟩
  | tableWriteGroup => exact ⟨_, rfl, stands_takeRequest (keeps_writeGroup _ _) _ _ _ s⟩
  | tableWritePlatform => exact ⟨_, rfl, stands_takeRequest (keeps_writePlatform _ _ _) _ _ _ s⟩
  | tableWriteProfile => exact ⟨_, rfl, stands_takeRequest (keeps_writeProfile _) _ _ _ s⟩
  | tableWriteTemplate => exact ⟨_, rfl, stands_takeRequest (keeps_writeTemplate _) _ _ _ s⟩
  | tableWriteHours => exact ⟨_, rfl, stands_takeRequest (keeps_writeHours _ _) _ _ _ s⟩
  | tableWriteMinutes => exact ⟨_, rfl, stands_takeRequest (keeps_writeMinutes _ _) _ _ _ s⟩
  | tableWriteNumbers => exact ⟨_, rfl, stands_takeRequest (keeps_writeNumbers _ _) _ _ _ s⟩
  | tableWritePlatformsPhrase => exact ⟨_, rfl, stands_takeRequest (keeps_writePlatPhrases _ _) _ _ _ s⟩
  | tableWriteDestinations => exact ⟨_, rfl, stands_takeRequest (keeps_writeDests _ _) _ _ _ s⟩
  | tableWriteContactLine => exact ⟨_, rfl, stands_takeRequest (keeps_writeLine _) _ _ _ s⟩
  | tableWriteGenerator => exact ⟨_, rfl, stands_takeRequest (keeps_writeGenerator _ _ _ _) _ _ _ s⟩
  | tableWriteLinkConfig => exact ⟨_, rfl, stands_takeRequest (keeps_writeLink _ _) _ _ _ s⟩
  | tableWriteUnassigned => exact ⟨_, rfl, stands_takeRequest (keeps_refuse _) _ _ _ s⟩
  | tableRead => exact ⟨_, rfl, stands_takeRequest (keeps_tableRead _ _) _ _ _ s⟩
  | time => exact ⟨_, rfl, stands_takeRequest (keeps_time _ _) _ _ _ s⟩
  | callLoad => exact ⟨_, rfl, stands_takeRequest (keeps_callLoad _) _ _ _ s⟩
  | callUpdate => exact ⟨_, rfl, stands_takeRequest (keeps_callUpdate _ _ _) _ _ _ s⟩
  | callMarkArrived => exact ⟨_, rfl, stands_takeRequest (keeps_markArrived _) _ _ _ s⟩
  | callMarkDeparted => exact ⟨_, rfl, stands_takeRequest (keeps_markDeparted _) _ _ _ s⟩
  | callCancel => exact ⟨_, rfl, stands_takeRequest (keeps_callCancel _) _ _ _ s⟩
  | callRemove => exact ⟨_, rfl, stands_takeRequest (keeps_callRemove _) _ _ _ s⟩
  | announce => exact ⟨_, rfl, stands_takeRequest (keeps_announce _) _ _ _ s⟩
  | announceCancel => exact ⟨_, rfl, stands_takeRequest (keeps_announceCancel _) _ _ _ s⟩
  | liveStart => exact ⟨_, rfl, stands_takeRequest (keeps_liveStart _) _ _ _ s⟩
  | liveStartEvac => exact ⟨_, rfl, stands_takeRequest (keeps_liveStartEvac _) _ _ _ s⟩
  | liveStop => exact ⟨_, rfl, stands_takeRequest (keeps_liveStop _) _ _ _ s⟩
  | gainSet => exact ⟨_, rfl, stands_takeRequest (keeps_gainSet _) _ _ _ s⟩
  | monitorSelect => exact ⟨_, rfl, stands_takeRequest (keeps_monitor _) _ _ _ s⟩
  | evacStart => exact ⟨_, rfl, stands_takeRequest keeps_evacStart _ _ _ s⟩
  | evacEscalate => exact ⟨_, rfl, stands_takeRequest keeps_evacEscalate _ _ _ s⟩
  | evacStop => exact ⟨_, rfl, stands_takeRequest keeps_evacStop _ _ _ s⟩
  | clipOpen => exact ⟨_, rfl, stands_takeRequest (keeps_clipOpen hf _ _ _) _ _ _ s⟩
  | pageWrite => exact ⟨_, rfl, stands_takeRequest (keeps_pageWrite hf _ _ _) _ _ _ s⟩
  | clipSeal => exact ⟨_, rfl, stands_takeRequest (keeps_clipSeal _ _ _) _ _ _ s⟩
  | clipRetire => exact ⟨_, rfl, stands_takeRequest (keeps_clipRetire hf _) _ _ _ s⟩
  | sectorEraseArm => exact ⟨_, rfl, stands_takeRequest (keeps_eraseArm _ _) _ _ _ s⟩
  | sectorEraseGo => exact ⟨_, rfl, stands_takeRequest (keeps_eraseGo hf _ _) _ _ _ s⟩
  | storeAbort => exact ⟨_, rfl, stands_takeRequest (keeps_storeAbort hf) _ _ _ s⟩
  | programWrite => exact ⟨_, rfl, stands_takeRequest (keeps_programWrite hf _) _ _ _ s⟩

end

theorem onlyCompletionsWriteBytes : OnlyCompletionsWriteBytes := by
  have reads {s t : State} (h : Stands Nonvolatile.mem s t) (a : Nat) : Memory.read t.nv.mem a = Memory.read s.nv.mem a :=
    congrArg (Memory.read · a) h
  intro i s hw
  by_cases hg : actsOnGuards i = false
  · obtain ⟨t, ht, stands⟩ := exec_stands indifferent_bytes i s hw hg
    exact ⟨t, ht, reads stands⟩
  · cases i with
    | guardSet h m => exact ⟨_, exec_guardSet h m s, reads (stands_takeRequest (keeps_guardSet m) _ _ _ s)⟩
    | guardClear h m => exact ⟨_, exec_guardClear h m s, reads (stands_takeRequest (keeps_guardClear m) _ _ _ s)⟩
    | upstreamFrame x => exact ⟨_, rfl, reads (stands_whenRunning (stands_takeUpFrame x s))⟩
    | _ => exact absurd rfl hg

/-! ### The guard marks over the completions of a programming and of an erase (R133) -/

/-- The two guard marks. -/
def guards (nv : Nonvolatile) : Bool × Bool := (nv.g1, nv.g2)

theorem stands_endProgramming (s : State) : Stands guards s (endProgramming s) := by
  unfold endProgramming
  split <;> rfl

theorem stands_endErase (s : State) : Stands guards s (endErase s) := by
  cases ho : s.vol.store.op with
  | erasing bank k n =>
    rw [endErase_eq ho]
    rfl
  | _ =>
    simp only [endErase, ho]
    rfl

theorem stands_endOverdue (s : State) : Stands guards s (endOverdue s) := by
  unfold endOverdue
  refine .choice ?_ rfl
  split
  · exact stands_endScan indifferent_guards s
  · exact stands_endProgramming s
  · exact stands_endErase s
  · exact stands_endProgramWrite indifferent_guards s
  · rfl
  · rfl

/-- What is due before a frame leaves the guard marks: the end of a read, or of an operation that is overdue. -/
theorem stands_beforeFrame (s : State) (v : ReadVerdict) : Stands guards s (beforeFrame s v) := by
  obtain ⟨-, -, -, -, read, -, overdue⟩ := beforeFrame_keeps s v
  cases ho : s.vol.store.op.overdue with
  | false =>
    have kept : guards { (beforeFrame s v).nv with dir := s.nv.dir } = guards s.nv := congrArg guards (read ho)
    exact kept
  | true => exact (congrArg guards (overdue ho)).trans (stands_endOverdue s)

theorem stands_takeFrame (x : FrameInput) (s : State) : Stands guards s (takeFrame x s) := by
  by_cases hr : s.running = true
  · exact (congrArg guards (takeFrame_keeps x s hr).1).trans (stands_beforeFrame s x.verdict)
  · rw [takeFrame, whenRunning, if_neg hr]
    rfl

theorem guardsStandWithoutRequest : GuardsStandWithoutRequest := by
  have marks {s t : State} (h : Stands guards s t) : t.nv.g1 = s.nv.g1 ∧ t.nv.g2 = s.nv.g2 := Prod.mk.inj h
  intro i s hg
  by_cases hw : writesBytes i = false
  · obtain ⟨t, ht, stands⟩ := exec_stands indifferent_guards i s hw hg
    exact ⟨t, ht, marks stands⟩
  · cases i with
    | frameClockFrame x => exact ⟨_, rfl, marks (stands_takeFrame x s)⟩
    | programmingComplete => exact ⟨_, rfl, marks (stands_takeEvent (stands_endProgramming s))⟩
    | eraseComplete => exact ⟨_, rfl, marks (stands_takeEvent (stands_endErase s))⟩
    | _ => exact absurd rfl hw

/-! ### The frame of the frame clock (log entry 8) -/

theorem overdue_iff (op : StoreOp) : op.overdue = true ↔ (∃ c bank p data, ∃ n ≥ 96, op = .programming c bank p data n)
    ∨ (∃ bank k, ∃ n ≥ 48000, op = .erasing bank k n) ∨ (∃ pr, ∃ n ≥ 19200, op = .programWrite pr n)
    ∨ ∃ n ≥ 14400, op = .starting n := by
  cases op with
  | ready | verifying => simp [StoreOp.overdue]
  | starting n | erasing bank k n | programming c bank p data n | programWrite pr n =>
    refine decide_eq_true_iff.trans ?_
    simp [Config.framesPerMs]

theorem readDue_iff (w : Vol) : w.readDue = true ↔ ∃ r, w.store.read = some r ∧ 48 ≤ r.elapsed := by
  unfold Vol.readDue
  cases w.store.read with
  | none => simp
  | some r =>
    refine decide_eq_true_iff.trans ?_
    simp [Config.framesPerMs]

/-- The nonvolatile store after a frame with an overdue operation is as the command for its completion leaves it. -/
theorem overdue_completes {s : State} (hr : s.running = true) (ho : s.vol.store.op.overdue = true) :
    (∀ c bank p data n, s.vol.store.op = .programming c bank p data n →
        ∃ u, exec .programmingComplete s = .next u ∧ (endOverdue s).nv = u.nv)
      ∧ (∀ bank k n, s.vol.store.op = .erasing bank k n → ∃ u, exec .eraseComplete s = .next u ∧ (endOverdue s).nv = u.nv)
      ∧ (∀ pr n b, s.vol.store.op = .programWrite pr n →
        ∃ u, exec (.programWriteComplete b) s = .next u ∧ (endOverdue s).nv = u.nv)
      ∧ ∀ n, s.vol.store.op = .starting n → ∃ u, exec .scanComplete s = .next u ∧ (endOverdue s).nv = u.nv := by
  refine ⟨fun c bank p data n hop => ?_, fun bank k n hop => ?_, fun pr n b hop => ?_, fun n hop => ?_⟩
  all_goals rw [endOverdue, if_pos ho, hop]
  all_goals rw [hop] at ho
  · have due : s.vol.store.op.programmed = true := by
      rw [hop]
      exact ho
    exact ⟨_, (exec_programmingComplete s).trans (congrArg _ (takeEvent_due hr due)), rfl⟩
  · have due : s.vol.store.op.erased = true := by
      rw [hop]
      exact ho
    exact ⟨_, (exec_eraseComplete s).trans (congrArg _ (takeEvent_due hr due)), rfl⟩
  · have late : 400 * 48 ≤ n := of_decide_eq_true ho
    refine ⟨_, (exec_programWriteComplete b s).trans (congrArg _ (programWriteDone_running b hop (of_decide_eq_true hr) late)), ?_⟩
    rw [← endProgramWrite_eq hop]
    rfl
  · have due : s.vol.storeStarting = true := (Reads.storeStarting_iff s.vol).mpr ⟨n, hop⟩
    exact ⟨_, (exec_scanComplete s).trans (congrArg _ (takeEvent_due hr due)), rfl⟩

theorem frameKeepsStore : FrameKeepsStore := by
  intro x s hr
  have frame := (takeFrame_keeps x s hr).1
  obtain ⟨-, -, -, -, read, nothing, overdue⟩ := beforeFrame_keeps s x.verdict
  refine ⟨takeFrame x s, rfl, fun hd ho => frame.trans (nothing hd ho).1, fun ho => ?_, fun ho => ?_⟩
  all_goals rw [frame]
  · have kept : (beforeFrame s x.verdict).nv.mem = s.nv.mem :=
      (rfl : _ = { (beforeFrame s x.verdict).nv with dir := s.nv.dir }.mem).trans (congrArg Nonvolatile.mem (read ho))
    exact ⟨read ho, fun a => congrArg (Memory.read · a) kept⟩
  · rw [overdue ho]
    exact overdue_completes hr ho

/-- Settles O11: what every command but the excepted ones leaves, and the frame by what is due before it. -/
theorem storeStandsAlone : Obligations.StoreStandsAlone :=
  ⟨onlyCompletionsWriteBytes, guardsStandWithoutRequest, ⟨readDue_iff, overdue_iff⟩, frameKeepsStore⟩

end Sys2Proof.Store
end

section
/-! PROOFS. The record of a contact line (8.1): TABLE WRITE of class CONTACT_LINE, its checks (R139), what is a rewrite and what
a rewrite does (R11, R143, R146). -/

namespace Sys2Proof.Lines

open Sys2Proof.Machine Sys2Proof.Laws Sys2Proof.Statements

/-! ### Functions of a line -/

theorem isOutput_iff (fn : LineFn) : fn.isOutput = true ↔ ∃ src g i f, fn = .output src g i f := by
  cases fn <;> simp [LineFn.isOutput]

theorem isEvac_iff (fn : LineFn) : fn.isEvac = true ↔ ∃ f, fn = .evac f := by
  cases fn <;> simp [LineFn.isEvac]

/-- An OUTPUT line is of no platform. -/
theorem trainRead_output (w : Vol) {fn : LineFn} (h : fn.isOutput = true) : trainRead w fn = w := by
  obtain ⟨src, g, i, f, rfl⟩ := (isOutput_iff fn).mp h
  rfl

/-- The train-present levels are no part of a line. -/
theorem lines_trainRead (w : Vol) (fn : LineFn) : (trainRead w fn).lines = w.lines := by
  cases fn <;> rfl

/-! ### The checks of R139 -/

theorem sourceInRange_iff (src : OutSource) : src.inRange = true ↔ SourceRange src := by
  cases src <;> simp [OutSource.inRange, SourceRange, within_iff, Nat.lt_succ_iff]

/-- Check 1 of R139 for each function. -/
theorem lineInRange_iff (r : LineRecord) : r.inRange = true ↔ r.line ≤ 15 ∧ r.debounce ≤ 255
    ∧ (∀ l g p, r.fn = .talk l g p → l ≤ 31 ∧ g ≤ 31 ∧ p ≤ 13)
    ∧ (∀ p, r.fn = .trainPresent p ∨ r.fn = .doorsClosed p ∨ r.fn = .platformWarn p → 1 ≤ p ∧ p ≤ 32)
    ∧ (∀ z, r.fn = .zoneFault z → z ≤ 63)
    ∧ ∀ src g i f, r.fn = .output src g i f → SourceRange src ∧ g ≤ 3 ∧ r.report = .none := by
  obtain ⟨line, fn, polarity, debounce, report⟩ := r
  cases fn with
  | output src g i f =>
    have hout : (∀ src' g' i' f', LineFn.output src g i f = .output src' g' i' f' →
        SourceRange src' ∧ g' ≤ 3 ∧ report = .none) ↔ SourceRange src ∧ g ≤ 3 ∧ report = .none :=
      ⟨fun h => h src g i f rfl, by rintro h _ _ _ _ ⟨⟩; exact h⟩
    dsimp only
    rw [hout]
    simp [LineRecord.inRange, LineFn.inRange, LineFn.isOutput, sourceInRange_iff, Nat.lt_succ_iff, and_assoc]
  | _ => simp [LineRecord.inRange, LineFn.inRange, LineFn.isOutput, within_iff, Nat.lt_succ_iff, and_assoc]

theorem lineRanges : LineRanges := ⟨lineInRange_iff, isEvac_iff⟩

/-! ### What is a rewrite (R139) -/

theorem rewritesTold : RewritesTold := by
  intro x r
  simp only [Line.rewritten, Bool.or_eq_true, Bool.and_eq_true, decide_eq_true_eq, Bool.not_eq_true', ← Bool.not_eq_true,
    isOutput_iff, or_assoc]

/-- A line that becomes OUTPUT is rewritten. -/
theorem rewritten_of_new_output {x : Line} {r : LineRecord} (hx : x.fn.isOutput = false) (hr : r.fn.isOutput = true) :
    x.rewritten r = true := by
  have hne : x.fn ≠ r.fn := fun h => by simp [h, hr] at hx
  simp [Line.rewritten, hne, hx]

/-! ### A rewrite (R11, R143, R146) -/

/-- The part after the release that a rewrite of a line gives its old function. -/
def released (w : Vol) (nv : Nonvolatile) (n : Nat) : Vol :=
  if (w.line n).debounced = some true then
    (w.setLine n { w.line n with debounced := some false }).fallAct nv n (w.line n).fn
  else w

/-- The line `x` with the fields of a record, unsettled. -/
def refitted (x : Line) (r : LineRecord) : Line :=
  { x with fn := r.fn, polarity := r.polarity, debounce := r.debounce, report := r.report, debounced := none, stand := 0
           shown := r.fn.restLevel }

/-- A rewrite in its steps: the release, the new fields, the levels of the two platforms. -/
theorem rewriteLine_eq (w : Vol) (nv : Nonvolatile) (r : LineRecord) : w.rewriteLine nv r =
    trainRead (trainRead ((released w nv r.line).setLine r.line (refitted ((released w nv r.line).line r.line) r))
      (w.line r.line).fn) r.fn := by
  have hread : ∀ (v : Vol) (fn : LineFn), trainRead v fn = fn.trainPlatform.elim v v.updateTrain := fun v fn => by
    cases fn <;> rfl
  rw [hread, hread]
  unfold Vol.rewriteLine
  dsimp only
  cases r.fn.trainPlatform <;> cases (w.line r.line).fn.trainPlatform <;> rfl

theorem line_rewriteLine (w : Vol) (nv : Nonvolatile) {r : LineRecord} (hr : r.line < 16) :
    (w.rewriteLine nv r).line r.line = refitted ((released w nv r.line).line r.line) r := by
  rw [rewriteLine_eq, Vol.line, lines_trainRead, lines_trainRead]
  exact Vol.line_setLine _ _ hr

theorem lineRewritten : LineRewritten := by
  rintro w w1 w2 nv r old rfl hactive hother rfl
  have hw1 : w1 = released w nv r.line := by
    unfold released
    split
    · next h => exact hactive h
    · next h => exact hother h
  rw [rewriteLine_eq, hw1]
  obtain ⟨line, fn, polarity, debounce, report⟩ := r
  cases fn <;> rfl

/-! ### TABLE WRITE of class CONTACT_LINE -/

theorem exec_tableWriteContactLine (h : RequestHeader) (r : LineRecord) (s : State) : exec (.tableWriteContactLine h r) s
    = .next (takeRequest h 6 (Instr.wf (.tableWriteContactLine h r)) (actWriteLine r) s) := rfl

theorem actWriteLine_badArg {r : LineRecord} (s : State) (h : r.inRange = false) : actWriteLine r s = refuse .badArg s := by
  simp [actWriteLine, h]

theorem actWriteLine_resident {r : LineRecord} {s : State} (hr : r.inRange = true)
    (h : r.fn.isEvac = true ∨ (s.vol.line r.line).fn.isEvac = true) : actWriteLine r s = refuse .resident s := by
  simp [actWriteLine, hr, h]

theorem actWriteLine_writes {r : LineRecord} {s : State} (hr : r.inRange = true) (hn : r.fn.isEvac = false)
    (ho : (s.vol.line r.line).fn.isEvac = false) : actWriteLine r s = okVol s (s.vol.writeLine s.nv r) := by
  simp [actWriteLine, hr, hn, ho]

theorem writeLine_plain {w : Vol} {r : LineRecord} (nv : Nonvolatile) (h : (w.line r.line).rewritten r = false) :
    w.writeLine nv r = w.setLine r.line { w.line r.line with fn := r.fn, report := r.report } := by
  rw [Vol.writeLine, if_neg (by simp [h])]
  rfl

theorem writeLine_rewrite {w : Vol} {r : LineRecord} (nv : Nonvolatile) (h : (w.line r.line).rewritten r = true) :
    w.writeLine nv r = w.rewriteLine nv r := if_pos h

theorem lineRecordTaken : LineRecordTaken := by
  intro h r s place hs
  have he := exec_tableWriteContactLine h r s
  refine ⟨fun hr => Zones.declines_of_refuse hs he (actWriteLine_badArg s hr),
    fun hr hevac => Zones.declines_of_refuse hs he (actWriteLine_resident hr hevac), fun hr hn ho hplain => ?_,
    fun hr hn ho hrewrite => ?_⟩
  · rw [← writeLine_plain s.nv hplain]
    exact Zones.answers_of_okVol hs he (actWriteLine_writes hr hn ho)
  · have hline : r.line < 16 := by
      have := ((lineInRange_iff r).mp hr).1
      omega
    rw [line_rewriteLine _ _ hline]
    refine ⟨?_, rfl, rfl, rfl, rfl, rfl, rfl⟩
    rw [← writeLine_rewrite s.nv hrewrite]
    exact Zones.answers_of_okVol hs he (actWriteLine_writes hr hn ho)

/-- Settles O26: the request by its checks, and the rewrite in its steps. -/
theorem contactLineWritten : Obligations.ContactLineWritten := ⟨lineRecordTaken, lineRanges, rewritesTold, lineRewritten⟩

end Sys2Proof.Lines
end

section
/-! PROOFS. The pattern generators (8.6): TABLE WRITE and TABLE READ of class GENERATOR, and the end of a period (R148, R179). -/

namespace Sys2Proof.Generators

open Sys2Proof.Machine Sys2Proof.Laws Sys2Proof.Statements

theorem exec_tableWriteGenerator (h : RequestHeader) (g p r f : Nat) (s : State) : exec (.tableWriteGenerator h g p r f) s
    = .next (takeRequest h 6 (Instr.wf (.tableWriteGenerator h g p r f)) (actWriteGenerator g p r f) s) := rfl

theorem exec_generatorPeriodEnd (g : Fin 4) (s : State) : exec (.generatorPeriodEnd g) s
    = .next (takeMark (.gen g) (fun w => (w.gen g).ends) (fun _ w => w.stepGen g) s) := rfl

/-- The checks of R148. -/
theorem generatorInRange_iff (g p r f : Nat) :
    generatorInRange g p r f = true ↔ g ≤ 3 ∧ 2 ≤ p ∧ p ≤ 1000 ∧ r ≤ p ∧ f ≤ p ∧ r ≤ f := by
  simp [generatorInRange, within_iff, Nat.lt_succ_iff, and_assoc]

theorem ends_of_last {x : Generator} (hs : x.started = true) (hp : 10 * x.p ≤ x.phase + 1) : x.ends = true := by
  simp [Generator.ends, hs, hp]

/-- R148: the staged values become active together. -/
theorem step_staged {x : Generator} {p r f : Nat} (he : x.ends = true) (hs : x.started = true)
    (hx : x.staged = some (p, r, f)) :
    x.step = { started := true, p := p, r := r, f := f, phase := 0, staged := none } := by
  simp [Generator.step, hs, he, hx]

theorem step_unstaged {x : Generator} (he : x.ends = true) (hs : x.started = true) (hx : x.staged = none) :
    x.step = { x with phase := 0 } := by
  simp [Generator.step, hs, he, hx]

theorem generatorRead (w : Vol) {g : Nat} (hg : g < 4) : readRecord w 11 (.one g) = some (genBytes w g) :=
  Tables.readOne_in (genBytes w) (Nat.zero_le g) (by omega)

/-- Settles O27: the request by its checks, the end of a period with and without staged values, and the record read. -/
theorem generatorWritten : Obligations.GeneratorWritten := by
  refine ⟨fun h g p r f s place hs => ?_, fun g s hm hstarted hp => ?_, fun h g s place hs hg =>
    Tables.answers_of_record hs (generatorRead s.vol hg)⟩
  · have he := exec_tableWriteGenerator h g p r f s
    rw [← generatorInRange_iff]
    exact ⟨fun hr => Zones.answers_of_okVol hs he (if_pos hr), fun hr => Zones.declines_of_refuse hs he (if_neg hr)⟩
  · have hends := ends_of_last hstarted hp
    have htaken : Happens (.generatorPeriodEnd g) s { s with vol := (s.vol.stepGen g).markTaken (.gen g) } :=
      Live.happens_of_mark (exec_generatorPeriodEnd g s) hm hends
    unfold Vol.stepGen at htaken
    refine ⟨fun p r f hstaged => ?_, fun hstaged => ?_⟩
    · rwa [step_staged hends hstarted hstaged] at htaken
    · rwa [step_unstaged hends hstarted hstaged] at htaken

end Sys2Proof.Generators
end

section
/-! PROOFS. What the action of a line's function leaves of the contact lines: all of them (R144). -/

namespace Sys2Proof.Lines

open Sys2Proof.Machine Sys2Proof.Laws Sys2Proof.Statements

section

variable (w : Vol) (nv : Nonvolatile)

/-! ### The arbiter and the request queue -/

theorem lines_of_within {w w' : Vol} (h : w.Within w') : w'.lines = w.lines :=
  (congrArg Vol.lines h.fixed :)

@[simp] theorem lines_handOut : (w.handOut nv).lines = w.lines := lines_of_within (handOut_within w nv)

@[simp] theorem lines_removeRequest (n : Nat) (o : ReqOutcome) : (w.removeRequest n o).lines = w.lines :=
  lines_of_within (removeRequest_within w n o)

@[simp] theorem lines_supersede (c : Nat) (k : Option Trigger) (m : FinishMark) : (w.supersede nv c k m).lines = w.lines :=
  lines_of_within (supersede_within w nv c k m)

@[simp] theorem lines_createRequest (r : Request) : (w.createRequest nv r).2.lines = w.lines := by
  unfold Vol.createRequest
  dsimp only
  have hfirst := replaceMoment_within w r
  generalize w.replaceMoment r = v at hfirst
  split
  next u hu =>
    exact lines_of_within
      (hfirst.trans ((makeRoom_within hu).trans ((numberRequest_within u r).trans (enterQueue_within _ _ _))))
  next =>
    have hdropped := endNotice_within (v.numberRequest r).2 (v.numberRequest r).1 .dropped
    have hlines := lines_of_within ((hfirst.trans (numberRequest_within v r)).trans hdropped)
    simpa using hlines

@[simp] theorem lines_zoneEvent (z : Nat) (f : Zone → Zone) : (w.zoneEvent nv z f).lines = w.lines :=
  (lines_of_within (zoneEvent_within w nv z f) :)

/-! ### The call table -/

@[simp] theorem lines_remakeDue (slot : Nat) : (w.remakeDue slot).lines = w.lines := by
  unfold Vol.remakeDue
  dsimp only
  split
  · rfl
  · split
    · rfl
    · rfl

@[simp] theorem lines_fireTrigger (slot : Nat) (t : Trigger) (stale : Bool) :
    (w.fireTrigger nv slot t stale).2.lines = w.lines := by
  unfold Vol.fireTrigger
  split
  · rfl
  · split
    · rfl
    · split
      · rfl
      · split
        · simp
        next tn _ _ _ tm _ =>
          have hmade := lines_createRequest w nv { w.requestFrom tm tn .timetable with call := some (slot, t) }
          generalize w.createRequest nv _ = made at hmade
          obtain ⟨n, v⟩ := made
          cases n with
          | none => exact hmade
          | some n => exact hmade

@[simp] theorem lines_callNotice (slot : Nat) (t : Option Trigger) (stale made : Bool) :
    (w.callNotice slot t stale made).lines = w.lines := by
  unfold Vol.callNotice
  split
  · rfl
  · simp

@[simp] theorem lines_endTransition (slot : Nat) (t : Option Trigger) (stale : Bool) :
    (w.endTransition nv slot t stale).lines = w.lines := by
  cases t with
  | none => simp [Vol.endTransition]
  | some t => simp [Vol.endTransition]

@[simp] theorem lines_enterPlatform (slot p : Nat) (h : HeldTransition) (stale : Bool) :
    (w.enterPlatform nv slot p h stale).lines = w.lines := by
  cases h with
  | boarding => simp [Vol.enterPlatform]
  | atPlatform => simp [Vol.enterPlatform]

@[simp] theorem lines_holdCall (slot p o : Nat) (h : HeldTransition) : (w.holdCall slot p o h).lines = w.lines := by
  simp [Vol.holdCall]

@[simp] theorem lines_tryPlatform (slot : Nat) (h : HeldTransition) (stale : Bool) :
    (w.tryPlatform nv slot h stale).lines = w.lines := by
  unfold Vol.tryPlatform
  split
  · simp
  · split
    · simp
    · simp

@[simp] theorem lines_offerPlatform (p : Nat) : (w.offerPlatform nv p).lines = w.lines := by
  unfold Vol.offerPlatform
  split
  · rfl
  · split
    · dsimp only
      split
      · simp
      · simp
    · rfl

@[simp] theorem lines_freePlatform (slot : Nat) : (w.freePlatform slot).2.lines = w.lines := by
  unfold Vol.freePlatform
  split
  · split
    · rfl
    · rfl
  · rfl

@[simp] theorem lines_enterGone (slot : Nat) (stale : Bool) : (w.enterGone nv slot stale).lines = w.lines := by
  unfold Vol.enterGone
  dsimp only
  split
  · simp
  · simp

/-! ### Live sources -/

@[simp] theorem lines_closeSource (lane : Nat) (cause : LiveCause) : (w.closeSource lane cause).lines = w.lines := by
  unfold Vol.closeSource
  split
  · rfl
  next x _ =>
    have hreleased := lines_of_within (releaseClaim_within w x.claim)
    simpa using hreleased

theorem lines_openSource {w v : Vol} {lane g p n : Nat} {o : Opener} (h : w.openSource lane o g p n = some v) :
    v.lines = w.lines := by
  have hplaced := lines_of_within (placeClaim_within w (.live lane) g p .join)
  unfold Vol.openSource at h
  split at h
  · cases h
  next hmade =>
    obtain rfl := Option.some.inj h
    rw [hmade] at hplaced
    exact hplaced

/-- An opening that may find no members leaves the lines, whether it opens a source or not. -/
theorem lines_getD {w : Vol} {o : Option Vol} (h : ∀ v, o = some v → v.lines = w.lines) : (o.getD w).lines = w.lines := by
  cases o with
  | none => rfl
  | some v => exact h v rfl

@[simp] theorem lines_talkPressed (n lane g p : Nat) : (w.talkPressed n lane g p).2.lines = w.lines := by
  unfold Vol.talkPressed
  split
  · rfl
  · split
    · simp
    · split
      · simp
      · exact lines_getD fun v h => lines_openSource h

@[simp] theorem lines_talkReleased (n lane : Nat) : (w.talkReleased n lane).lines = w.lines := by
  unfold Vol.talkReleased
  split
  · split
    · simp
    · rfl
  · rfl

@[simp] theorem lines_evacTalkPressed (n : Nat) : (w.evacTalkPressed n).2.lines = w.lines := by
  unfold Vol.evacTalkPressed
  split
  · rfl
  · split
    · rfl
    · split
      · simp
      · exact lines_getD fun v h => (lines_openSource h).trans (lines_closeSource w _ .stopped)

@[simp] theorem lines_evacTalkReleased (n : Nat) : (w.evacTalkReleased n).lines = w.lines := by
  unfold Vol.evacTalkReleased
  split
  · rfl
  · split
    · split
      · simp
      · rfl
    · rfl

/-! ### The evacuation controller -/

@[simp] theorem lines_changeList (marked : Bool) : (w.changeList marked).lines = w.lines := rfl

@[simp] theorem lines_makeEvacRequest : (w.makeEvacRequest nv).lines = w.lines := by
  unfold Vol.makeEvacRequest
  dsimp only
  split
  · split
    · simp
    · simp
  · simp

@[simp] theorem lines_setEvac (next : EvacState) (cause : EvacCause) : (w.setEvac next cause).lines = w.lines := by
  simp [Vol.setEvac]

@[simp] theorem lines_suppressLow : (w.suppressLow nv).lines = w.lines := by
  unfold Vol.suppressLow
  rw [lines_handOut]
  exact lines_of_within (.foldl _ _ _ fun v r => removeRequest_within v r.number .suppressed)

@[simp] theorem lines_enterEvacuate (cause : EvacCause) : (w.enterEvacuate nv cause).lines = w.lines := by
  unfold Vol.enterEvacuate
  dsimp only
  split
  · simp
  · split
    · simp
    · simp

@[simp] theorem lines_enterAlert (cause : EvacCause) : (w.enterAlert nv cause).lines = w.lines := by
  unfold Vol.enterAlert
  split
  · simp
  · simp

@[simp] theorem lines_returnNormal (cause : EvacCause) : (w.returnNormal nv cause).lines = w.lines := by
  have hremove : ∀ (v : Vol) (r : Option Nat), (match r with
      | some n => v.removeRequest n .cancelled
      | none => v).lines = v.lines := fun v r => by
    cases r with
    | none => rfl
    | some n => exact lines_removeRequest v n .cancelled
  have hclose : ∀ v : Vol, (match v.evac.lane with
      | some lane => if v.evacSourceOpen then v.closeSource lane .stopped else v
      | none => v).lines = v.lines := fun v => by
    split
    · split
      · simp
      · rfl
    · rfl
  unfold Vol.returnNormal
  dsimp only
  exact ((lines_handOut _ nv).trans (hclose _)).trans ((hremove _ _).trans (lines_setEvac w .normal cause))

@[simp] theorem lines_evacRise (n : Nat) (f : EvacFn) : (w.evacRise nv n f).2.lines = w.lines := by
  unfold Vol.evacRise
  split
  · split
    · simp
    · rfl
  · split
    · rfl
    · simp
  · split
    · rfl
    · simp
  · simp

/-! ### The functions of a line -/

@[simp] theorem lines_warnPlatform (p : Nat) : (w.warnPlatform nv p).2.lines = w.lines := by
  unfold Vol.warnPlatform
  split
  · rfl
  · split
    · rfl
    · simp

@[simp] theorem lines_markTrain (p : Nat) : (w.markTrain nv p).2.lines = w.lines := by
  unfold Vol.markTrain
  split
  · simp
  · rfl

@[simp] theorem lines_closeDoors (p : Nat) : (w.closeDoors nv p).lines = w.lines := by
  unfold Vol.closeDoors
  split
  · simp
  · rfl

/-- R144: no function of a line acts on a line. -/
theorem lines_riseAct (n : Nat) (fn : LineFn) : (w.riseAct nv n fn).2.lines = w.lines := by
  cases fn with
  | plain => rfl
  | talk lane g p => exact lines_talkPressed w n lane g p
  | trainPresent p => exact lines_markTrain (w.updateTrain p) nv p
  | doorsClosed p => exact lines_closeDoors w nv p
  | platformWarn p => exact lines_warnPlatform w nv p
  | zoneFault z => exact lines_zoneEvent w nv z _
  | output _ _ _ _ => rfl
  | evac f => exact lines_evacRise w nv n f

theorem lines_fallAct (n : Nat) (fn : LineFn) : (w.fallAct nv n fn).lines = w.lines := by
  cases fn with
  | talk lane g p => exact lines_talkReleased w n lane
  | trainPresent p => rfl
  | zoneFault z => exact lines_zoneEvent w nv z _
  | evac f =>
    cases f with
    | talk => exact lines_evacTalkReleased w n
    | _ => rfl
  | _ => rfl

theorem lines_settleAct (n : Nat) (active : Bool) (fn : LineFn) : (w.settleAct nv n active fn).lines = w.lines := by
  cases active with
  | false => cases fn <;> rfl
  | true =>
    cases fn with
    | zoneFault z => exact lines_zoneEvent w nv z _
    | evac f =>
      cases f with
      | alert => exact lines_evacRise w nv n .alert
      | full => exact lines_evacRise w nv n .full
      | _ => rfl
    | _ => rfl

end

end Sys2Proof.Lines
end

section
/-! PROOFS. The edges and the settlings of a contact line (8.2, R141 to R143), and the action of each function (8.3, R144, R152). -/

namespace Sys2Proof.Lines

open Sys2Proof.Machine Sys2Proof.Laws Sys2Proof.Statements

/-! ### An edge and a settling in their steps (R142, R143) -/

/-- The part with the debounced level of line `n` set, its stand count 0. -/
def levelled (w : Vol) (n : Nat) (active : Bool) : Vol :=
  w.setLine n { w.line n with debounced := some active, stand := 0 }

/-- What the function of a line does at an edge, with the result that CONTACT EDGE carries. -/
def edgeAct (w : Vol) (nv : Nonvolatile) (n : Nat) (up : Bool) (fn : LineFn) : EdgeResult × Vol :=
  if up then w.riseAct nv n fn else (.none, w.fallAct nv n fn)

theorem lines_edgeAct (w : Vol) (nv : Nonvolatile) (n : Nat) (up : Bool) (fn : LineFn) :
    (edgeAct w nv n up fn).2.lines = w.lines := by
  cases up with
  | true => exact lines_riseAct w nv n fn
  | false => exact lines_fallAct w nv n fn

/-- R142: the level, the action, then the report. -/
theorem takeEdge_eq {w w1 : Vol} {nv : Nonvolatile} {n : Nat} {up : Bool} {r : EdgeResult}
    (h : edgeAct (levelled w n up) nv n up (w.line n).fn = (r, w1)) : w.takeEdge nv n up =
      if (w.line n).report.names up = true then
        (w1.modLine n fun y => { y with latch := true }).notify (.contactEdge n up (w.line n).fn r)
      else if r ≠ .none then w1.notify (.contactEdge n up (w.line n).fn r)
      else w1 := by
  unfold edgeAct levelled at h
  unfold Vol.takeEdge
  dsimp only
  rw [h]

theorem takeSettling_eq (w : Vol) (nv : Nonvolatile) (n : Nat) (active : Bool) :
    w.takeSettling nv n active = (levelled w n active).settleAct nv n active (w.line n).fn := rfl

theorem line_congr {w w' : Vol} (h : w'.lines = w.lines) (n : Nat) : w'.line n = w.line n := by
  rw [Vol.line, h, Vol.line]

theorem line_notify (w : Vol) (x : Notice) (n : Nat) : (w.notify x).line n = w.line n := line_congr (by simp) n

theorem line_levelled (w : Vol) {n : Nat} (active : Bool) (hn : n < 16) :
    (levelled w n active).line n = { w.line n with debounced := some active, stand := 0 } := Vol.line_setLine w _ hn

theorem takeEdge_level (w : Vol) (nv : Nonvolatile) {n : Nat} (up : Bool) (hn : n < 16) :
    ((w.takeEdge nv n up).line n).debounced = some up ∧ ((w.takeEdge nv n up).line n).stand = 0 := by
  have hlines := lines_edgeAct (levelled w n up) nv n up (w.line n).fn
  obtain ⟨⟨r, w1⟩, hact⟩ : ∃ a, edgeAct (levelled w n up) nv n up (w.line n).fn = a := ⟨_, rfl⟩
  rw [hact] at hlines
  have hline : w1.line n = _ := (line_congr hlines n).trans (line_levelled w up hn)
  rw [takeEdge_eq hact]
  split
  · rw [line_notify, Vol.modLine, Vol.line_setLine _ _ hn, hline]
    exact ⟨rfl, rfl⟩
  · split
    · rw [line_notify, hline]
      exact ⟨rfl, rfl⟩
    · rw [hline]
      exact ⟨rfl, rfl⟩

theorem takeSettling_level (w : Vol) (nv : Nonvolatile) {n : Nat} (active : Bool) (hn : n < 16) :
    ((w.takeSettling nv n active).line n).debounced = some active ∧ ((w.takeSettling nv n active).line n).stand = 0 := by
  rw [takeSettling_eq, line_congr (lines_settleAct _ nv n active _) n, line_levelled w active hn]
  exact ⟨rfl, rfl⟩

/-! ### What a block mark reads (R141 to R143) -/

theorem exec_contactEdge {l : Fin 16} {s : State} {raw : Bool} (h : Vol.edgeLevel (s.vol.line l) = some raw) :
    exec (.contactEdge l) s
      = .next (takeMark (.line l) (fun w => w.edgeDue l raw) (fun nv w => w.sampleLine nv l raw) s) := by
  have hexec : exec (.contactEdge l) s = execContactEdge l s := rfl
  rw [hexec, execContactEdge, h]

theorem exec_lineSettle (l : Fin 16) (high : Bool) (s : State) : exec (.lineSettle l high) s
    = .next (takeMark (.line l) (fun w => w.settleDue l high) (fun nv w => w.sampleLine nv l high) s) := rfl

/-- R142: some level gives the other reading of a settled line. -/
theorem edgeLevel_reads {x : Line} {d : Bool} (h : x.debounced = some d) :
    ∃ raw, Vol.edgeLevel x = some raw ∧ x.polarity.reading raw = !d := by
  refine ⟨x.reading true != d, by simp [Vol.edgeLevel, h], ?_⟩
  unfold Line.reading
  cases x.polarity <;> cases d <;> rfl

theorem nextStand_settled {x : Line} {d raw : Bool} (h : x.debounced = some d) (hr : x.polarity.reading raw = !d) :
    x.nextStand raw = x.stand + 1 := by
  simp [Line.nextStand, Line.reading, h, hr]

theorem nextStand_unsettled {x : Line} (raw : Bool) (h : x.debounced = none) : x.nextStand raw =
    if x.polarity.reading raw = x.polarity.reading x.raw then x.stand + 1 else 1 := by
  simp only [Line.nextStand, h]
  rfl

theorem changes_iff (x : Line) (raw : Bool) : x.changes raw = true ↔ x.debounce < x.nextStand raw := by
  simp [Line.changes]

/-- The line `x` after a block mark that reads `raw`. -/
def sampled (x : Line) (raw : Bool) : Line := { x with raw := raw, stand := x.nextStand raw }

theorem sampleLine_edge {w : Vol} {n : Nat} {d raw : Bool} (nv : Nonvolatile) (ho : (w.line n).fn.isOutput = false)
    (hd : (w.line n).debounced = some d) (hc : (w.line n).changes raw = true) : w.sampleLine nv n raw =
      (w.setLine n (sampled (w.line n) raw)).takeEdge nv n ((w.line n).polarity.reading raw) := by
  unfold Vol.sampleLine
  dsimp only
  rw [if_neg (by simp [ho]), if_pos hc]
  split
  next => rfl
  next hnone => cases hd.symm.trans hnone

theorem sampleLine_settling {w : Vol} {n : Nat} {raw : Bool} (nv : Nonvolatile) (ho : (w.line n).fn.isOutput = false)
    (hd : (w.line n).debounced = none) (hc : (w.line n).changes raw = true) : w.sampleLine nv n raw =
      (w.setLine n (sampled (w.line n) raw)).takeSettling nv n ((w.line n).polarity.reading raw) := by
  unfold Vol.sampleLine
  dsimp only
  rw [if_neg (by simp [ho]), if_pos hc]
  split
  next hsome => cases hd.symm.trans hsome
  next => rfl

theorem linesRead : LinesRead := by
  refine ⟨?_, ?_, fun w nv n up hn => ?_⟩
  · rintro l x d s hm rfl ho hd hstand
    obtain ⟨raw, hraw, hreads⟩ := edgeLevel_reads hd
    have hnext := nextStand_settled hd hreads
    have hc : (s.vol.line l).changes raw = true := by
      rw [changes_iff, hnext]
      omega
    refine ⟨raw, hreads, ?_⟩
    have htaken := Live.happens_of_mark (exec_contactEdge hraw) hm (by simp [Vol.edgeDue, ho, hd, hc])
    rwa [sampleLine_edge _ ho hd hc, sampled, hnext, hreads] at htaken
  · rintro l x high n s hm rfl ho hd hn hpassed
    rw [← nextStand_unsettled high hd] at hn
    have hc : (s.vol.line l).changes high = true := by rwa [changes_iff, ← hn]
    have htaken := Live.happens_of_mark (exec_lineSettle l high s) hm (by simp [Vol.settleDue, ho, hd, hc])
    rwa [sampleLine_settling _ ho hd hc, sampled, ← hn] at htaken
  · obtain ⟨hlevel, hstand⟩ := takeEdge_level w nv up hn
    exact ⟨hlevel, hstand, takeSettling_level w nv up hn⟩

/-! ### The report of an edge (R142) -/

theorem names_iff (x : EdgeReport) (up : Bool) :
    x.names up = true ↔ x = .both ∨ x = if up then .rising else .falling := by
  cases x <;> cases up <;> decide

theorem names_eq_false_iff (x : EdgeReport) (up : Bool) :
    x.names up = false ↔ x = .none ∨ x = if up then .falling else .rising := by
  cases x <;> cases up <;> decide

theorem edgesReported : EdgesReported := by
  rintro w w0 w1 nv n up r rfl hrise hfall
  have hact : edgeAct (levelled w n up) nv n up (w.line n).fn = (r, w1) := by
    cases up with
    | true => exact (hrise rfl).symm
    | false =>
      obtain ⟨rfl, rfl⟩ := hfall rfl
      rfl
  rw [← names_iff, ← names_eq_false_iff, takeEdge_eq hact]
  exact ⟨fun hn => if_pos hn, fun hn => ⟨fun hr => by simp [hn, hr], fun hr => by simp [hn, hr]⟩⟩

/-! ### PLAIN and TALK (R37, R144) -/

theorem upLocked_iff (w : Vol) : w.upLocked = true ↔ (w.port 0).state = .locked := by simp [Vol.upLocked]

theorem openSource_of_placed {w w1 : Vol} {lane g p c : Nat} (o : Opener)
    (h : w.placeClaim (.live lane) g p .join = (some c, w1)) : w.openSource lane o g p 0 =
      some (w1.setSource lane (some { opener := o, group := g, priority := p, limit := 0, talkTime := 0, absence := 0,
                                      absenceReported := false, claim := c })) := by
  rw [Vol.openSource, h]

theorem talkPressed_busy {w : Vol} {lane : Nat} (n g p : Nat) (h : w.source lane ≠ none) :
    w.talkPressed n lane g p = (.laneBusy, w) := if_pos (Option.isSome_iff_ne_none.mpr h)

theorem talkPressed_emptyGroup {w : Vol} {lane g : Nat} (n p : Nat) (h : w.source lane = none) (hg : w.group g = []) :
    w.talkPressed n lane g p = (.none, w.notify (.liveEnd lane (.line n) .released)) := by
  simp [Vol.talkPressed, h, hg]

theorem talkPressed_unlocked {w : Vol} {lane g : Nat} (n p : Nat) (h : w.source lane = none) (hg : w.group g ≠ [])
    (hu : (w.port 0).state ≠ .locked) :
    w.talkPressed n lane g p = (.none, w.notify (.liveEnd lane (.line n) .linkLost)) := by
  simp [Vol.talkPressed, h, hg, mt (upLocked_iff w).mp hu]

theorem talkPressed_opens {w v : Vol} {n lane g p : Nat} (h : w.source lane = none) (hg : w.group g ≠ [])
    (hu : (w.port 0).state = .locked) (hv : w.openSource lane (.line n) g p 0 = some v) :
    w.talkPressed n lane g p = (.none, v) := by
  simp [Vol.talkPressed, h, hg, (upLocked_iff w).mpr hu, hv]

theorem talkReleased_own {w : Vol} {n lane : Nat} {x : LiveSource} (h : w.source lane = some x) (ho : x.opener = .line n) :
    w.talkReleased n lane =
      ((w.releaseClaim x.claim).setSource lane none).notify (.liveEnd lane (.line n) .released) := by
  simp only [Vol.talkReleased, h, ho, if_true, Live.closeSource_open _ h]

theorem talkReleased_other {w : Vol} {n lane : Nat} (h : ∀ x, w.source lane = some x → x.opener ≠ .line n) :
    w.talkReleased n lane = w := by
  unfold Vol.talkReleased
  split
  next x hx => exact if_neg (h x hx)
  next => rfl

theorem talkLines : TalkLines := fun _ _ n _ g p =>
  ⟨rfl, rfl, talkPressed_busy n g p, talkPressed_emptyGroup n p, talkPressed_unlocked n p,
    fun _ _ h hg hu hc => talkPressed_opens h hg hu (openSource_of_placed _ hc), fun _ => talkReleased_own, talkReleased_other⟩

/-! ### TRAIN_PRESENT (R11, R76, R144) -/

theorem lines_eq_map_range (w : Vol) : w.lines.toList = (List.range 16).map w.line :=
  Tables.toList_eq_map_range .initial w.lines

theorem trainLevel_active_iff (w : Vol) (p : Nat) : w.trainLevel p = some true ↔
    ∃ l < 16, (w.line l).fn = .trainPresent p ∧ (w.line l).debounced = some true := by
  unfold Vol.trainLevel
  rw [lines_eq_map_range]
  dsimp only
  split
  next h =>
    simp only [List.filter_eq_nil_iff, List.forall_mem_map, List.mem_range, decide_eq_true_eq] at h
    simp only [reduceCtorEq, false_iff, not_exists, not_and]
    exact fun l hl hfn => absurd hfn (h l hl)
  next => simp

theorem trainLevel_none_iff (w : Vol) (p : Nat) : w.trainLevel p = none ↔ ∀ l < 16, (w.line l).fn ≠ .trainPresent p := by
  unfold Vol.trainLevel
  rw [lines_eq_map_range]
  dsimp only
  split
  next h => simpa [List.filter_eq_nil_iff] using h
  next h => simpa [List.filter_eq_nil_iff] using h

theorem updateTrain_level (w : Vol) {p : Nat} (h1 : 1 ≤ p) (h32 : p ≤ 32) :
    ((w.updateTrain p).platform p).trainPresent = w.trainLevel p := by
  rw [Vol.updateTrain, Vol.modPlatform, Calls.platform_setPlatform _ _ h1 h32]

/-- The expected time of the call in a slot. -/
def expectedAt (w : Vol) (slot : Nat) : Nat := (w.call slot).elim 0 Call.expectedTime

/-- A call's slot is among those from which a train at the platform takes the first. -/
def arrives (w : Vol) (p slot : Nat) : Bool :=
  match w.call slot with
  | some c =>
    decide (c.kind = .arrive) && decide (c.state = .approaching) && decide (c.platform = some p) && c.held.isNone
  | none => false

/-- The order in which a train takes the calls of its platform: the earliest expected, then the lowest slot. -/
def arrivesBefore (w : Vol) (a b : Nat) : Bool :=
  decide (expectedAt w a < expectedAt w b) || (decide (expectedAt w a = expectedAt w b) && decide (a < b))

theorem arrivingCall_eq (w : Vol) (p : Nat) :
    w.arrivingCall p = (sortBy (arrivesBefore w) ((List.range 256).filter (arrives w p))).head? := rfl

theorem arrives_iff (w : Vol) (p slot : Nat) : arrives w p slot = true ↔ ∃ c, w.call slot = some c ∧ ArrivesAt p c := by
  unfold arrives
  cases w.call slot with
  | none => simp
  | some c => simp [ArrivesAt, and_assoc]

theorem arrivingCall_none {w : Vol} {p : Nat} (h : ∀ k c, w.call k = some c → ¬ ArrivesAt p c) : w.arrivingCall p = none := by
  have hnil : (List.range 256).filter (arrives w p) = [] := by
    rw [List.filter_eq_nil_iff]
    intro k _ hk
    obtain ⟨c, hc, ha⟩ := (arrives_iff w p k).mp hk
    exact h k c hc ha
  rw [arrivingCall_eq, hnil]
  rfl

theorem arrivingCall_first {w : Vol} {p k : Nat} {c : Call} (hc : w.call k = some c) (ha : ArrivesAt p c)
    (least : ∀ m d, w.call m = some d → ArrivesAt p d →
      c.expectedTime < d.expectedTime ∨ (c.expectedTime = d.expectedTime ∧ k ≤ m)) : w.arrivingCall p = some k := by
  rw [arrivingCall_eq]
  refine Requests.head?_sortBy ?_ fun m hm hne => ?_
  · exact List.mem_filter.mpr ⟨List.mem_range.mpr (Calls.lt_of_call hc), (arrives_iff w p k).mpr ⟨c, hc, ha⟩⟩
  · obtain ⟨d, hd, hda⟩ := (arrives_iff w p m).mp (List.mem_filter.mp hm).2
    have hfirst := least m d hd hda
    simp only [arrivesBefore, expectedAt, hc, hd, Option.elim_some, Bool.or_eq_true, Bool.and_eq_true, decide_eq_true_eq,
      Bool.or_eq_false_iff, Bool.and_eq_false_iff, decide_eq_false_iff_not]
    omega

theorem riseAct_trainPresent_none {w : Vol} {p : Nat} (nv : Nonvolatile) (n : Nat)
    (h : ∀ k c, w.call k = some c → ¬ ArrivesAt p c) :
    w.riseAct nv n (.trainPresent p) = (.noCall, w.updateTrain p) := by
  have hnone : (w.updateTrain p).arrivingCall p = none := arrivingCall_none h
  rw [Vol.riseAct, Vol.markTrain, hnone]

theorem riseAct_trainPresent_first {w : Vol} {p k : Nat} {c : Call} (nv : Nonvolatile) (n : Nat) (hc : w.call k = some c)
    (ha : ArrivesAt p c) (least : ∀ m d, w.call m = some d → ArrivesAt p d →
      c.expectedTime < d.expectedTime ∨ (c.expectedTime = d.expectedTime ∧ k ≤ m)) :
    w.riseAct nv n (.trainPresent p) = (.none, (w.updateTrain p).tryPlatform nv k .atPlatform false) := by
  have hfirst : (w.updateTrain p).arrivingCall p = some k := arrivingCall_first hc ha least
  rw [Vol.riseAct, Vol.markTrain, hfirst]

/-! ### DOORS_CLOSED and PLATFORM_WARN (R76, R97) -/

theorem closeDoors_closes {w : Vol} {p k : Nat} {c : Call} (nv : Nonvolatile) (ho : (w.platform p).occupant = some k)
    (hc : w.call k = some c) (hkind : c.kind = .depart) (hstate : c.state = .final) :
    w.closeDoors nv p = w.enterGone nv k false := by
  simp [Vol.closeDoors, Vol.closingCall, ho, hc, hkind, hstate]

theorem closeDoors_other {w : Vol} {p : Nat} (nv : Nonvolatile) (h : ∀ k c, (w.platform p).occupant = some k →
    w.call k = some c → c.kind ≠ .depart ∨ c.state ≠ .final) : w.closeDoors nv p = w := by
  have hnone : w.closingCall p = none := by
    unfold Vol.closingCall
    split
    · rfl
    next k ho =>
      split
      next c hc => exact if_neg (not_and_or.mpr (h k c ho hc))
      next => rfl
  rw [Vol.closeDoors, hnone]

theorem warnPlatform_unset {w : Vol} {p : Nat} (nv : Nonvolatile) (h : (w.platform p).warning = none) :
    w.warnPlatform nv p = (.noTemplate, w) := by
  rw [Vol.warnPlatform, h]

theorem warnPlatform_empty {w : Vol} {p k : Nat} (nv : Nonvolatile) (h : (w.platform p).warning = some k)
    (ht : w.template k = none) : w.warnPlatform nv p = (.noTemplate, w) := by
  simp only [Vol.warnPlatform, h, ht]

theorem warnPlatform_requests {w : Vol} {p k : Nat} {t : Template} (nv : Nonvolatile)
    (h : (w.platform p).warning = some k) (ht : w.template k = some t) : w.warnPlatform nv p =
      (.none, (w.createRequest nv { w.requestFrom t k .contact with platform := some p, priority := 12 }).2) := by
  simp only [Vol.warnPlatform, h, ht]

theorem platformLines : PlatformLines := by
  intro w nv n p h1 h32
  rw [updateTrain_level w h1 h32]
  exact ⟨trainLevel_active_iff w p, trainLevel_none_iff w p, rfl, riseAct_trainPresent_none nv n,
    fun _ _ => riseAct_trainPresent_first nv n,
    fun _ _ ho hc hkind hstate => congrArg (Prod.mk EdgeResult.none) (closeDoors_closes nv ho hc hkind hstate),
    fun h => congrArg (Prod.mk EdgeResult.none) (closeDoors_other nv h), warnPlatform_unset nv,
    fun _ => warnPlatform_empty nv, fun _ _ => warnPlatform_requests nv, rfl, rfl⟩

/-! ### ZONE_FAULT (R15, R144) -/

theorem zoneFaultLines : ZoneFaultLines := fun _ _ _ _ => ⟨rfl, rfl⟩

/-! ### The evacuation lines (R37, R152, R158) -/

theorem evacSourceOpen_iff (w : Vol) : w.evacSourceOpen = true ↔
    ∃ l x k, w.evac.lane = some l ∧ w.source l = some x ∧ x.opener = .evacuation k := by
  have hopener : ∀ o : Opener, o.isEvac = true ↔ ∃ k, o = .evacuation k := fun o => by
    cases o <;> simp [Opener.isEvac]
  unfold Vol.evacSourceOpen
  cases hl : w.evac.lane with
  | none => simp
  | some l =>
    cases hx : w.source l with
    | none => simp [hx]
    | some x => simp [hx, hopener]

theorem evacRise_alert {w : Vol} (nv : Nonvolatile) (n : Nat) (h : w.evac.state = .normal) :
    w.evacRise nv n .alert = (.none, w.enterAlert nv (.alertLine n)) := if_pos h

theorem evacRise_alert_notTaken {w : Vol} (nv : Nonvolatile) (n : Nat) (h : w.evac.state ≠ .normal) :
    w.evacRise nv n .alert = (.notTaken, w) := if_neg h

theorem evacRise_full {w : Vol} (nv : Nonvolatile) (n : Nat) (h : w.evac.state ≠ .evacuate) :
    w.evacRise nv n .full = (.none, w.enterEvacuate nv (.fullLine n)) := if_neg h

theorem evacRise_full_notTaken {w : Vol} (nv : Nonvolatile) (n : Nat) (h : w.evac.state = .evacuate) :
    w.evacRise nv n .full = (.notTaken, w) := if_pos h

theorem evacRise_reset {w : Vol} (nv : Nonvolatile) (n : Nat) (h : w.evac.state ≠ .normal) (hh : w.lineHolds = false) :
    w.evacRise nv n .reset = (.none, w.returnNormal nv (.resetLine n)) := by
  simp [Vol.evacRise, h, hh]

theorem evacRise_reset_notTaken {w : Vol} (nv : Nonvolatile) (n : Nat) (h : w.evac.state = .normal ∨ w.lineHolds = true) :
    w.evacRise nv n .reset = (.notTaken, w) := if_pos h

theorem evacTalkPressed_notTaken {w : Vol} (n : Nat) (h : w.evac.lane = none ∨ w.evac.state = .normal ∨ w.group 31 = []
    ∨ ∃ l x k, w.evac.lane = some l ∧ w.source l = some x ∧ x.opener = .evacuation k) :
    w.evacTalkPressed n = (.notTaken, w) := by
  rw [← evacSourceOpen_iff] at h
  unfold Vol.evacTalkPressed
  split
  · rfl
  next l hl =>
    refine if_pos ?_
    rcases h with h | h | h | h
    · rw [hl] at h
      cases h
    · exact .inl h
    · exact .inr (.inr h)
    · exact .inr (.inl h)

section

variable {w : Vol} {l : Nat} (n : Nat) (hl : w.evac.lane = some l) (hstate : w.evac.state ≠ .normal)
  (hgroup : w.group 31 ≠ []) (hother : ∀ x k, w.source l = some x → x.opener ≠ .evacuation k)

include hl hother in
theorem evacSourceOpen_closed : w.evacSourceOpen = false := by
  rw [← Bool.not_eq_true, evacSourceOpen_iff]
  rintro ⟨l', x, k, hl', hx, hk⟩
  obtain rfl := Option.some.inj (hl.symm.trans hl')
  exact hother x k hx hk

include hl hstate hgroup hother

theorem evacTalkPressed_unlocked (hu : (w.port 0).state ≠ .locked) :
    w.evacTalkPressed n = (.none, w.notify (.liveEnd l (.evacuation (some n)) .linkLost)) := by
  simp [Vol.evacTalkPressed, hl, hstate, hgroup, evacSourceOpen_closed hl hother, mt (upLocked_iff w).mp hu]

theorem evacTalkPressed_opens {c : Nat} {w1 : Vol} (hu : (w.port 0).state = .locked)
    (hc : (w.closeSource l .stopped).placeClaim (.live l) 31 15 .join = (some c, w1)) : w.evacTalkPressed n =
      (.none, w1.setSource l (some { opener := .evacuation (some n), group := 31, priority := 15, limit := 0, talkTime := 0,
                                     absence := 0, absenceReported := false, claim := c })) := by
  simp [Vol.evacTalkPressed, hl, hstate, hgroup, evacSourceOpen_closed hl hother, (upLocked_iff w).mpr hu,
    Vol.openEvacSource, openSource_of_placed _ hc]

end

theorem evacTalkReleased_own {w : Vol} {n l : Nat} {x : LiveSource} (hl : w.evac.lane = some l)
    (hx : w.source l = some x) (ho : x.opener = .evacuation (some n)) : w.evacTalkReleased n =
      ((w.releaseClaim x.claim).setSource l none).notify (.liveEnd l (.evacuation (some n)) .released) := by
  simp only [Vol.evacTalkReleased, hl, hx, ho, if_true, Live.closeSource_open _ hx]

theorem evacTalkReleased_other {w : Vol} {n : Nat} (h : ∀ l x, w.evac.lane = some l → w.source l = some x →
    x.opener ≠ .evacuation (some n)) : w.evacTalkReleased n = w := by
  unfold Vol.evacTalkReleased
  split
  · rfl
  next l hl =>
    split
    next x hx => exact if_neg (h l x hl hx)
    next => rfl

theorem evacFall_unmoved (w : Vol) (n : Nat) {k : EvacFn} (h : k ≠ .talk) : w.evacFall n k = w := by
  cases k with
  | talk => exact absurd rfl h
  | alert => rfl
  | full => rfl
  | reset => rfl

theorem evacLines : EvacLines := fun w nv n =>
  ⟨evacRise_alert nv n, evacRise_alert_notTaken nv n, evacRise_full nv n, evacRise_full_notTaken nv n, evacRise_reset nv n,
    evacRise_reset_notTaken nv n, evacTalkPressed_notTaken n,
    fun _ hl hstate hgroup hother => ⟨evacTalkPressed_unlocked n hl hstate hgroup hother,
      fun _ _ => evacTalkPressed_opens n hl hstate hgroup hother⟩,
    fun _ => evacFall_unmoved w n, fun _ _ => evacTalkReleased_own, evacTalkReleased_other⟩

/-! ### Settlings (R143, R152) -/

theorem settlingsAct : SettlingsAct := by
  rintro w w0 nv n active rfl
  rw [takeSettling_eq]
  refine ⟨fun p hfn => ?_, fun z hfn hactive => ?_, fun z hfn hactive => ?_, fun hfn => ?_, fun hfn => ?_, fun h => ?_⟩
  · rw [hfn]
    rfl
  · rw [hfn, hactive]
    rfl
  · rw [hfn, hactive]
    rfl
  · rw [hfn]
    cases active with
    | false => rfl
    | true =>
      by_cases hs : w.evac.state = .normal
      · rw [if_pos ⟨rfl, hs⟩]
        exact congrArg Prod.snd (evacRise_alert (w := levelled w n true) nv n hs)
      · rw [if_neg fun h => hs h.2]
        exact congrArg Prod.snd (evacRise_alert_notTaken (w := levelled w n true) nv n hs)
  · rw [hfn]
    cases active with
    | false => rfl
    | true =>
      by_cases hs : w.evac.state = .evacuate
      · rw [if_neg fun h => h.2 hs]
        exact congrArg Prod.snd (evacRise_full_notTaken (w := levelled w n true) nv n hs)
      · rw [if_pos ⟨rfl, hs⟩]
        exact congrArg Prod.snd (evacRise_full (w := levelled w n true) nv n hs)
  · rcases h with hfn | hfn | hfn | ⟨l, g, p, hfn⟩ | ⟨p, hfn⟩ | ⟨p, hfn⟩
    all_goals
      rw [hfn]
      cases active <;> rfl

end Sys2Proof.Lines
end

section
/-! PROOFS. The alert through a frame (R182): exact before a frame, it is exact when the block mark computes what the OUTPUT lines
show, and stands from there to the end of the frame. -/

namespace Sys2Proof.Alert

open Sys2Proof.Machine Sys2Proof.Laws Sys2Proof.Statements

/-! ### The conditions (R182) -/

/-- The alert is raised exactly while a condition of the mask holds. -/
def Told (nv : Nonvolatile) (w : Vol) : Prop := w.engine.raised = true ↔ ∃ c ∈ w.engine.mask, w.condHolds nv c = true

/-- A zone that is FAULTED (R1). -/
def faulted (x : Zone) : Bool := decide (x.state = .faulted)

/-- Holder and wait list have no part in a fault (R1). -/
theorem faulted_fixed (x : Zone) : faulted x.fixed = faulted x := by
  simp only [faulted, decide_eq_decide, Zones.state_faulted_iff]
  rfl

/-- All that the conditions of the mask are decided on is as it was, but for the nonvolatile store. -/
structure CondsStand (w w' : Vol) : Prop where
  mask : w'.engine.mask = w.engine.mask
  latch : w'.engine.queueLatch = w.engine.queueLatch
  zones : w'.zones.map faulted = w.zones.map faulted
  ports : w'.ports.map (·.state) = w.ports.map (·.state)
  checkFail : w'.store.checkFail = w.store.checkFail
  evac : w'.evac.state = w.evac.state
  platforms : w'.platforms = w.platforms

theorem CondsStand.trans {a b c : Vol} (h : CondsStand a b) (k : CondsStand b c) : CondsStand a c :=
  ⟨k.mask.trans h.mask, k.latch.trans h.latch, k.zones.trans h.zones, k.ports.trans h.ports, k.checkFail.trans h.checkFail,
    k.evac.trans h.evac, k.platforms.trans h.platforms⟩

/-- A question of every entry of a table depends on what it asks of each. -/
theorem any_of_map_eq {α β : Type} {n : Nat} {f : α → β} (p : β → Bool) {t u : Vector α n} (h : u.map f = t.map f) :
    u.toList.any (fun x => p (f x)) = t.toList.any fun x => p (f x) := by
  have hlists := congrArg (fun v : Vector β n => v.toList.any p) h
  simpa [Vector.toList_map, List.any_map, Function.comp_def] using hlists

theorem condHolds_of_stand {w w' : Vol} (nv : Nonvolatile) (h : CondsStand w w') (c : AlertCond) :
    w'.condHolds nv c = w.condHolds nv c := by
  cases c with
  | zoneFault => exact any_of_map_eq (f := faulted) id h.zones
  | link => exact any_of_map_eq (f := Port.state) (fun x => decide (x ≠ .locked)) h.ports
  | store => simp only [Vol.condHolds, h.checkFail]
  | queue => simp only [Vol.condHolds, h.latch]
  | evac => simp only [Vol.condHolds, h.evac]
  | conflict => simp only [Vol.condHolds, h.platforms]

/-- The end of an event changes no condition. -/
theorem condsStand_of_within {w w' : Vol} (h : w.Within w') : CondsStand w w' := by
  have hzones := congrArg (fun v : Vol => v.zones.map faulted) h.fixed
  have hfaulted : faulted ∘ Zone.fixed = faulted := funext faulted_fixed
  simp only [Vol.fixed, Vector.map_map, hfaulted] at hzones
  exact ⟨(congrArg (fun v : Vol => v.engine.mask) h.fixed :), (congrArg (fun v : Vol => v.engine.queueLatch) h.fixed :),
    hzones, (congrArg (fun v : Vol => v.ports.map (·.state)) h.fixed :),
    (congrArg (fun v : Vol => v.store.checkFail) h.fixed :), (congrArg (fun v : Vol => v.evac.state) h.fixed :),
    (congrArg Vol.platforms h.fixed :)⟩

/-! ### The end of an event (R182) -/

theorem mem_heldConds (w : Vol) (nv : Nonvolatile) (c : AlertCond) :
    c ∈ w.heldConds nv ↔ c ∈ w.engine.mask ∧ w.condHolds nv c = true := by
  have hall : c ∈ [AlertCond.zoneFault, .link, .store, .queue, .evac, .conflict] := by cases c <;> decide
  simp [Vol.heldConds, List.mem_filter, hall]

@[simp] theorem raised_notify (w : Vol) (n : Notice) : (w.notify n).engine.raised = w.engine.raised := by
  unfold Vol.notify
  split
  · rfl
  · rfl

theorem raised_evalAlert_iff (w : Vol) (nv : Nonvolatile) :
    (w.evalAlert nv).engine.raised = true ↔ w.heldConds nv ≠ [] := by
  unfold Vol.evalAlert
  dsimp only
  split
  next hnone =>
    split
    next => simp [hnone, Vol.modEngine]
    next hlow => simp [hnone, hlow]
  next hsome =>
    split
    next hhigh => simp [hsome, hhigh]
    next => simp [hsome, Vol.modEngine]

theorem told_evalAlert (w : Vol) (nv : Nonvolatile) : Told nv (w.evalAlert nv) := by
  have hstand := condsStand_of_within (evalAlert_engine w nv).1
  unfold Told
  rw [raised_evalAlert_iff, hstand.mask]
  simp only [condHolds_of_stand nv hstand, ← mem_heldConds]
  simp [List.eq_nil_iff_forall_not_mem]

theorem told_finish (w : Vol) (nv : Nonvolatile) : Told nv (w.finish nv) := told_evalAlert _ nv

/-- Where the alert is exact, the end of an event leaves it raised or cleared as it is. -/
theorem raised_finish {w : Vol} {nv : Nonvolatile} (h : Told nv w) : (w.finish nv).engine.raised = w.engine.raised := by
  have hstand := condsStand_of_within (finish_within w nv)
  have hends := told_finish w nv
  unfold Told at h hends
  rw [hstand.mask] at hends
  simp only [condHolds_of_stand nv hstand] at hends
  exact Bool.eq_iff_iff.mpr (hends.trans h.symm)

/-! ### What changes neither the conditions nor the alert -/

/-- The conditions and the raised state are as they were. -/
structure Stands (w w' : Vol) : Prop extends CondsStand w w' where
  raised : w'.engine.raised = w.engine.raised

theorem Stands.refl (w : Vol) : Stands w w := ⟨⟨rfl, rfl, rfl, rfl, rfl, rfl, rfl⟩, rfl⟩

theorem Stands.trans {a b c : Vol} (h : Stands a b) (k : Stands b c) : Stands a c :=
  ⟨h.toCondsStand.trans k.toCondsStand, k.raised.trans h.raised⟩

theorem Stands.foldl {β : Type} {f : Vol → β → Vol} {l : List β} {w : Vol} (h : ∀ v b, Stands v (f v b)) :
    Stands w (l.foldl f w) := foldl_keeps (Stands w) f l w (.refl w) fun _ b hv => hv.trans (h _ b)

theorem Told.stands {nv : Nonvolatile} {w w' : Vol} (h : Told nv w) (k : Stands w w') : Told nv w' := by
  unfold Told at h ⊢
  rw [k.raised, k.mask]
  simpa only [condHolds_of_stand nv k.toCondsStand] using h

theorem notify_stands (w : Vol) (n : Notice) : Stands w (w.notify n) :=
  ⟨condsStand_of_within (notify_within w n), raised_notify w n⟩

theorem setZone_stands (w : Vol) (z : Nat) {x : Zone} (h : x.state = (w.zone z).state) : Stands w (w.setZone z x) := by
  have hfaulted : faulted x = faulted (w.zone z) := by simp only [faulted, h]
  exact ⟨⟨rfl, rfl, map_tset faulted .initial w.zones z x hfaulted, rfl, rfl, rfl, rfl⟩, rfl⟩

theorem setSource_stands (w : Vol) (l : Nat) (x : Option LiveSource) : Stands w (w.setSource l x) :=
  ⟨⟨rfl, rfl, rfl, rfl, rfl, rfl, rfl⟩, rfl⟩

theorem setLine_stands (w : Vol) (l : Nat) (x : Line) : Stands w (w.setLine l x) :=
  ⟨⟨rfl, rfl, rfl, rfl, rfl, rfl, rfl⟩, rfl⟩

theorem modCounts_stands (w : Vol) (p : Nat) (f : PortCounts → PortCounts) : Stands w (w.modCounts p f) :=
  ⟨⟨rfl, rfl, rfl, map_tset Port.state .initial w.ports p _ rfl, rfl, rfl, rfl⟩, rfl⟩

/-! ### What is due before a frame, and the frame given out -/

theorem endSending_stands (w : Vol) : Stands w w.endSending := by
  unfold Vol.endSending
  split
  · split
    · exact ⟨⟨rfl, rfl, rfl, rfl, rfl, rfl, rfl⟩, rfl⟩
    · exact .refl w
  · exact .refl w

theorem startSending_stands (w : Vol) : Stands w w.startSending := by
  unfold Vol.startSending
  split
  · split
    · split
      · exact ⟨⟨rfl, rfl, rfl, rfl, rfl, rfl, rfl⟩, rfl⟩
      · exact .refl w
    · exact ⟨⟨rfl, rfl, rfl, rfl, rfl, rfl, rfl⟩, rfl⟩
    · exact .refl w
  · exact .refl w

theorem storeTick_stands (w : Vol) (nv : Nonvolatile) : Stands w (w.storeTick nv) :=
  ⟨⟨rfl, rfl, rfl, rfl, rfl, rfl, rfl⟩, rfl⟩

theorem giveLanes_stands (w : Vol) : Stands w w.giveLanes := by
  have hread : Stands w { w with align := w.align.give.2 } := ⟨⟨rfl, rfl, rfl, rfl, rfl, rfl, rfl⟩, rfl⟩
  unfold Vol.giveLanes
  dsimp only
  split
  · exact hread.trans (modCounts_stands _ 0 _)
  · exact hread

theorem told_beforeFrame {s : State} (v : ReadVerdict) (h : Told s.nv s.vol) :
    Told (beforeFrame s v).nv (beforeFrame s v).vol := by
  have hended : ∀ (a b : State) (c : Bool), Told a.nv a.vol →
      Told (if c then b.finish else a).nv (if c then b.finish else a).vol := by
    intro a b c ha
    cases c
    · exact ha
    · exact told_finish b.vol b.nv
  have hread := hended s (completeRead s v) s.vol.readDue h
  unfold beforeFrame
  generalize (if s.vol.readDue then (completeRead s v).finish else s) = a at hread
  have hover := hended a (endOverdue a) a.vol.store.op.overdue hread
  dsimp only
  generalize (if a.vol.store.op.overdue then (endOverdue a).finish else a) = b at hover
  exact hover.stands (((endSending_stands b.vol).trans (startSending_stands _)).trans (storeTick_stands _ b.nv))

/-! ### The parts of a block mark (R169) -/

section

variable {nv : Nonvolatile} {w : Vol}

/-- A part that is due ends an event; one that is not leaves the alert and its conditions. -/
theorem Told.part {v u : Vol} {b : Bool} (h : Told nv w) (hu : b = false → Stands w u) :
    Told nv (if b = true then v.finish nv else u) := by
  cases b
  · exact h.stands (hu rfl)
  · exact told_finish v nv

/-- A part that a command has taken ahead is passed over. -/
theorem Told.left {v : Vol} (b : Bool) (h : Told nv w) (hv : Told nv v) : Told nv (if b = true then v else w) := by
  cases b
  · exact h
  · exact hv

theorem Told.foldl {β : Type} {f : Vol → β → Vol} {l : List β} (h : Told nv w)
    (hf : ∀ v b, Told nv v → Told nv (f v b)) : Told nv (l.foldl f w) := foldl_keeps (Told nv) f l w h hf

theorem Told.listEvent (h : Told nv w) : Told nv (w.listEvent nv) := h.part fun _ => .refl w

theorem Told.clockMark (h : Told nv w) : Told nv (w.clockMark nv) := by
  unfold Vol.clockMark
  split
  · exact told_finish _ nv
  · split
    · exact told_finish _ nv
    · split
      · exact h.stands ⟨⟨rfl, rfl, rfl, rfl, rfl, rfl, rfl⟩, rfl⟩
      · exact h

theorem Told.silenceMark (z : Nat) (h : Told nv w) : Told nv (w.silenceMark nv z) := by
  refine h.part fun _ => ?_
  split
  · exact setZone_stands w z rfl
  · exact .refl w

/-- R154: an alert timer that does not end its stage only counts. -/
theorem Told.alertEvent (h : Told nv w) : Told nv (w.alertEvent nv) := by
  refine h.part fun hdue => ?_
  unfold Vol.alertMark
  split
  next hstate =>
    have hcounted : Stands w (w.modEvac fun e => { e with timer := e.timer + 1 }) :=
      ⟨⟨rfl, rfl, rfl, rfl, rfl, rfl, rfl⟩, rfl⟩
    have htime : ¬ w.evac.duration * 1000 ≤ w.evac.timer + 1 := by simpa [Vol.alertDue, hstate] using hdue
    exact (if_neg htime).symm ▸ hcounted
  next => exact .refl w

/-- R38: a talk time below its limit only counts. -/
theorem Told.talkEvent (l : Nat) (h : Told nv w) : Told nv (w.talkEvent nv l) := by
  refine h.part fun hdue => ?_
  unfold Vol.talkMark
  split
  next => exact .refl w
  next x hx =>
    rw [Vol.talkDue, hx] at hdue
    dsimp only
    rw [if_neg (by simpa using hdue)]
    exact setSource_stands w l _

theorem absenceMark_stands (w : Vol) (present : Bool) (l : Nat) : Stands w (w.absenceMark present l) := by
  unfold Vol.absenceMark
  split
  · exact .refl w
  · split
    · exact setSource_stands w l _
    · dsimp only
      split
      · exact (setSource_stands w l _).trans (notify_stands _ _)
      · exact setSource_stands w l _

/-- R141: a reading that makes neither an edge nor a settling only counts. -/
theorem Told.lineMark (l : Nat) (raw : Bool) (h : Told nv w) : Told nv (w.lineMark nv l raw) := by
  refine h.part fun hdue => ?_
  unfold Vol.sampleLine
  dsimp only
  split
  · exact .refl w
  next ho =>
    have hstill : (w.line l).changes raw = false := by
      rw [Vol.edgeDue, Vol.settleDue] at hdue
      cases hd : (w.line l).debounced <;> simpa [ho, hd] using hdue
    rw [if_neg (by simp [hstill])]
    exact setLine_stands w l _

theorem Told.markParts (levels : BitVec 16) (h : Told nv w) : Told nv (w.markParts nv levels) := by
  unfold Vol.markParts
  dsimp only
  refine .foldl ?_ fun v k hv => hv.left _ (told_finish _ nv)
  refine .foldl ?_ fun v l hv => hv.left _ (hv.lineMark l _)
  refine .foldl ?_ fun v l hv => hv.left _ (hv.stands (absenceMark_stands v _ l))
  refine .foldl ?_ fun v l hv => hv.left _ (hv.talkEvent l)
  have hsilence : Told nv ((List.range 64).foldl (fun v z => if !w.taken (.silence z) then v.silenceMark nv z else v)
      ((if !w.taken .list then w.listEvent nv else w).clockMark nv)) :=
    .foldl (h.left _ h.listEvent).clockMark fun v z hv => hv.left _ (hv.silenceMark z)
  exact hsilence.left _ hsilence.alertEvent

theorem mixerMark_stands (w : Vol) : Stands w w.mixerMark := by
  unfold Vol.mixerMark
  refine Stands.trans (.foldl fun v z => ?_) (.foldl fun v z => ⟨⟨rfl, rfl, rfl, rfl, rfl, rfl, rfl⟩, rfl⟩)
  rw [Mixer.applyStaged_eq]
  exact (setZone_stands v z (x := Mixer.withBases (v.gain z) (v.zone z)) rfl).trans
    ⟨⟨rfl, rfl, rfl, rfl, rfl, rfl, rfl⟩, rfl⟩

/-- The alert is exact when the block mark computes what the OUTPUT lines show. -/
theorem Told.atOutputs (levels : BitVec 16) (h : Told nv w) : Told nv (w.atOutputs nv levels) := by
  refine ((h.markParts levels).stands (mixerMark_stands _)).stands (.foldl fun v g => ?_)
  split
  · exact ⟨⟨rfl, rfl, rfl, rfl, rfl, rfl, rfl⟩, rfl⟩
  · exact .refl v

end

/-! ### The production of a frame (R109, R163) -/

theorem popByte_stands (w : Vol) : Stands w w.popByte.2.2 := by
  unfold Vol.popByte
  split
  · split
    · exact ⟨⟨rfl, rfl, rfl, rfl, rfl, rfl, rfl⟩, rfl⟩
    · exact .refl w
  · exact .refl w

theorem sendFrames_stands (w : Vol) (mixed : List Int) : Stands w (w.sendFrames mixed) := by
  have hpopped := popByte_stands w
  unfold Vol.sendFrames
  generalize w.popByte = popped at hpopped
  obtain ⟨valid, byte, v⟩ := popped
  exact hpopped.trans ⟨⟨rfl, rfl, rfl, rfl, rfl, rfl, rfl⟩, rfl⟩

theorem produce_stands (w : Vol) (nv : Nonvolatile) : Stands w (w.produce nv) := by
  have hvoices : Stands w (w.voiceFrames nv).2 := by
    have halone := Mixer.voiceFrames_alone w nv
    rw [halone]
    exact ⟨⟨rfl, rfl, rfl, rfl, rfl, rfl, rfl⟩, rfl⟩
  unfold Vol.produce
  generalize w.voiceFrames nv = made at hvoices
  obtain ⟨samples, v⟩ := made
  exact hvoices.trans (sendFrames_stands v _)

end Sys2Proof.Alert
end

section
/-! PROOFS. OUTPUT lines (8.5, R146): what a frame at a block mark shows on them, what a rewrite shows, and the terminals; then the
contact lines as a whole. -/

namespace Sys2Proof.Lines

open Sys2Proof.Machine Sys2Proof.Laws Sys2Proof.Statements

/-! ### The level that a source gives (R146, R147) -/

theorem sourceTrue_iff (w : Vol) (src : OutSource) : w.sourceTrue src = true ↔ SourceHolds w src := by
  cases src with
  | zoneHeld z => exact decide_eq_true_iff
  | zoneFaulted z => exact decide_eq_true_iff
  | platformOccupied p => exact Option.isSome_iff_exists
  | platformFinal p =>
    simp only [Vol.sourceTrue, SourceHolds]
    cases (w.platform p).occupant with
    | none => simp
    | some k => cases hc : w.call k <;> simp [hc]
  | evacNotNormal =>
    simp only [Vol.sourceTrue, SourceHolds]
    cases w.evac.state <;> simp
  | alertRaised => rfl

theorem high_iff (x : Generator) : x.high = true ↔ 10 * x.r ≤ x.phase ∧ x.phase < 10 * x.f := by simp [Generator.high]

section

variable {w : Vol} {src : OutSource} {g : Nat} (invert : Bool)

theorem outputLevel_on : w.outputLevel src g invert .on = !invert := Bool.true_bne invert

theorem outputLevel_off : w.outputLevel src g invert .off = invert := Bool.false_bne invert

theorem outputLevel_high (hs : SourceHolds w src) (hr : 10 * (w.gen g).r ≤ (w.gen g).phase)
    (hf : (w.gen g).phase < 10 * (w.gen g).f) : w.outputLevel src g invert .none = !invert := by
  simp [Vol.outputLevel, (sourceTrue_iff w src).mpr hs, (high_iff _).mpr ⟨hr, hf⟩]

theorem outputLevel_low
    (h : ¬ SourceHolds w src ∨ (w.gen g).phase < 10 * (w.gen g).r ∨ 10 * (w.gen g).f ≤ (w.gen g).phase) :
    w.outputLevel src g invert .none = invert := by
  have hlow : (w.sourceTrue src && (w.gen g).high) = false := by
    rw [← Bool.not_eq_true, Bool.and_eq_true, sourceTrue_iff, high_iff]
    rintro ⟨hs, hr, hf⟩
    rcases h with h | h
    · exact h hs
    · omega
  simp [Vol.outputLevel, hlow]

end

/-! ### The pass over the lines (R146) -/

/-- The line `l` after a block mark has computed what it shows. -/
def shownLine (w : Vol) (l : Nat) : Line :=
  { w.line l with
    shown := match (w.line l).fn with
      | .output src g invert force => w.outputLevel src g invert force
      | _ => (w.line l).shown }

theorem shownLine_output {w : Vol} {l g : Nat} {src : OutSource} {invert : Bool} {force : Force}
    (h : (w.line l).fn = .output src g invert force) : (shownLine w l).shown = w.outputLevel src g invert force := by
  simp only [shownLine, h]

theorem line_showLine (w : Vol) {l : Nat} (hl : l < 16) : (w.showLine l).line l = shownLine w l := by
  unfold Vol.showLine
  split
  next src g invert force hfn =>
    rw [Vol.modLine, Vol.line_setLine _ _ hl, ← shownLine_output hfn]
    rfl
  next hfn =>
    unfold shownLine
    split
    next src g invert force h => exact absurd h (hfn src g invert force)
    next => rfl

theorem showLine_eq (w : Vol) (n : Nat) : w.showLine n = w ∨ ∃ x, w.showLine n = w.setLine n x := by
  unfold Vol.showLine
  split
  · exact .inr ⟨_, rfl⟩
  · exact .inl rfl

/-- What one line shows is no part of what another will show. -/
theorem showLine_other (w : Vol) {n l : Nat} (h : n ≠ l) :
    (w.showLine n).line l = w.line l ∧ shownLine (w.showLine n) l = shownLine w l := by
  obtain heq | ⟨x, heq⟩ := showLine_eq w n
  · rw [heq]
    exact ⟨rfl, rfl⟩
  · have hline : (w.setLine n x).line l = w.line l := tget_tset_ne _ _ _ h
    have hlevel : (w.setLine n x).outputLevel = w.outputLevel := rfl
    rw [heq]
    refine ⟨hline, ?_⟩
    unfold shownLine
    rw [hline, hlevel]

/-- Every line is computed once. -/
theorem line_showLines (w : Vol) {l : Nat} (hl : l < 16) : w.showLines.line l = shownLine w l := by
  obtain ⟨u, hu, hfold⟩ := Mixer.foldl_reads_once (fun v => (shownLine v l, v.line l)) (step := Vol.showLine)
    (fun v n h => Prod.ext (showLine_other v h).2 (showLine_other v h).1) List.nodup_range (List.mem_range.mpr hl) w
  obtain ⟨hshown, _⟩ := Prod.mk.inj hu
  obtain ⟨_, hline⟩ := Prod.mk.inj hfold
  exact hline.trans ((line_showLine u hl).trans hshown)

/-! ### The rest of a frame -/

/-- What the rest of a frame leaves of what the OUTPUT lines show. -/
structure OutputsStand (w w' : Vol) : Prop extends Mixer.MixStands w w' where
  platforms : w'.platforms = w.platforms
  calls : w'.calls = w.calls
  gens : w'.gens = w.gens
  alert : Alert.Stands w w'

theorem OutputsStand.refl (w : Vol) : OutputsStand w w := ⟨.refl w, rfl, rfl, rfl, .refl w⟩

theorem OutputsStand.trans {a b c : Vol} (h : OutputsStand a b) (k : OutputsStand b c) : OutputsStand a c :=
  ⟨h.toMixStands.trans k.toMixStands, k.platforms.trans h.platforms, k.calls.trans h.calls, k.gens.trans h.gens,
    h.alert.trans k.alert⟩

theorem showLine_stands (w : Vol) (n : Nat) : OutputsStand w (w.showLine n) := by
  have hmix := Mixer.showLine_stands w n
  obtain heq | ⟨x, heq⟩ := showLine_eq w n
  · rw [heq]
    exact .refl w
  · rw [heq] at hmix ⊢
    exact ⟨hmix, rfl, rfl, rfl, Alert.setLine_stands w n x⟩

theorem showLines_stands (w : Vol) : OutputsStand w w.showLines :=
  foldl_keeps (OutputsStand w) _ _ w (.refl w) fun _ n hv => hv.trans (showLine_stands _ n)

theorem fclk_stands (w : Vol) (c : FrameClock) : OutputsStand w { w with fclk := c } :=
  ⟨Mixer.fclk_stands w c, rfl, rfl, rfl, ⟨⟨rfl, rfl, rfl, rfl, rfl, rfl, rfl⟩, rfl⟩⟩

theorem newListHeard_stands (w : Vol) : OutputsStand w (w.modVoice 7 fun x => { x with newListWaits := false }) :=
  ⟨Mixer.modVoice_stands w 7 _ (fun _ => rfl) fun _ => rfl, rfl, rfl, rfl, ⟨⟨rfl, rfl, rfl, rfl, rfl, rfl, rfl⟩, rfl⟩⟩

/-- After the OUTPUT lines are shown a block mark ends. -/
theorem atSamples_shown {w : Vol} (nv : Nonvolatile) (levels : BitVec 16) (h : w.atMark = true) :
    OutputsStand (w.atOutputs nv levels) (w.atSamples nv levels)
      ∧ (w.atSamples nv levels).lines = (w.atOutputs nv levels).showLines.lines := by
  have hshown := showLines_stands (w.atOutputs nv levels)
  unfold Vol.atSamples
  rw [if_pos h]
  unfold Vol.blockMark
  generalize w.atOutputs nv levels = u at hshown
  generalize u.showLines = v at hshown
  exact ⟨((hshown.trans (newListHeard_stands v)).trans (fclk_stands _ _)).trans (fclk_stands _ _), rfl⟩

theorem produce_shown (w : Vol) (nv : Nonvolatile) : OutputsStand w (w.produce nv) ∧ (w.produce nv).lines = w.lines := by
  have hmix := Mixer.produce_stands w nv
  have halert := Alert.produce_stands w nv
  obtain ⟨voices, e, sent, mixed, hmade, _⟩ := Mixer.produce_eq w nv
  rw [hmade] at hmix halert ⊢
  exact ⟨⟨hmix, rfl, rfl, rfl, halert⟩, rfl⟩

/-- A frame at a block mark: the lines shown on the part `w` that the mark hands them, work that leaves them and what they show,
and the end of the event. -/
theorem takeFrame_shown {x : FrameInput} {s b : State} {w : Vol} (hr : s.running = true) (hmark : s.vol.atMark = true)
    (hb : b = beforeFrame s x.verdict) (hw : w = b.vol.giveLanes.atOutputs b.nv x.levels) :
    ∃ p : Vol, OutputsStand w p ∧ p.lines = w.showLines.lines ∧ (takeFrame x s).vol = p.finish b.nv := by
  obtain ⟨hwork, _⟩ := beforeFrame_keeps s x.verdict
  rw [takeFrame_body x s hr]
  rw [← hb] at hwork ⊢
  have hfclk : b.vol.giveLanes.fclk = s.vol.fclk :=
    betweenMarks_fclk ((giveLanes_keeps b.vol).1.trans hwork.between)
  have hmark' : b.vol.giveLanes.atMark = true := by
    rw [← hmark, Vol.atMark, Vol.atMark, hfclk]
  obtain ⟨hshown, hlines⟩ := atSamples_shown b.nv x.levels hmark'
  obtain ⟨hmade, hkept⟩ := produce_shown (b.vol.giveLanes.atSamples b.nv x.levels) b.nv
  rw [← hw] at hshown hlines
  exact ⟨(b.vol.giveLanes.atSamples b.nv x.levels).produce b.nv, hshown.trans hmade, hkept.trans hlines,
    by dsimp only [frameBody]⟩

/-! ### The frame at a block mark (R146) -/

/-- The alert is exact when a frame at a block mark computes what the OUTPUT lines show. -/
theorem told_atOutputs {x : FrameInput} {s b : State} {w : Vol} (hr : s.running = true)
    (hb : b = beforeFrame s x.verdict) (hw : w = b.vol.giveLanes.atOutputs b.nv x.levels) (h : AlertExact s) :
    Alert.Told b.nv w := by
  have htold := Alert.told_beforeFrame x.verdict (h.1 hr)
  rw [← hb] at htold
  rw [hw]
  exact (htold.stands (Alert.giveLanes_stands b.vol)).atOutputs x.levels

theorem shownAtMark (x : FrameInput) (s b : State) (w : Vol) (hr : s.running = true) (hmark : s.vol.atMark = true)
    (hb : b = beforeFrame s x.verdict) (hw : w = b.vol.giveLanes.atOutputs b.nv x.levels) : ∃ t : State,
    exec (.frameClockFrame x) s = .next t ∧ w.platforms = t.vol.platforms ∧ w.calls = t.vol.calls
      ∧ w.evac.state = t.vol.evac.state ∧ w.gens = t.vol.gens ∧ (∀ z < 64, (w.zone z).fixed = (t.vol.zone z).fixed)
      ∧ (w.exhaustedVoice = none → ∀ z < 64, (w.zone z).holder = (t.vol.zone z).holder)
      ∧ (AlertExact s → w.engine.raised = t.vol.engine.raised) ∧ ∀ l < 16, t.vol.line l = shownLine w l := by
  obtain ⟨p, hstands, hlines, ht⟩ := takeFrame_shown hr hmark hb hw
  have htold := told_atOutputs hr hb hw
  have hends := finish_within p b.nv
  have hzone : ∀ z, p.zone z = w.zone z := fun z => by rw [Vol.zone, hstands.zones, Vol.zone]
  refine ⟨_, Mixer.exec_frameClockFrame x s, ?_⟩
  rw [ht]
  refine ⟨?_, ?_, ?_, ?_, fun z _ => ?_, fun hq z _ => ?_, fun hexact => ?_, fun l hl => ?_⟩
  · exact ((congrArg Vol.platforms hends.fixed :).trans hstands.platforms).symm
  · exact ((congrArg Vol.calls hends.fixed :).trans hstands.calls).symm
  · rw [Mixer.evacState_of_within hends, hstands.evac]
  · exact ((congrArg Vol.gens hends.fixed :).trans hstands.gens).symm
  · rw [Mixer.zone_fixed_of_within hends, hzone]
  · obtain ⟨_, hzones, _⟩ := Mixer.finish_mix_quiet b.nv (hstands.exhausted.trans hq)
    rw [← hzone, Vol.zone, Vol.zone, hzones]
  · rw [Alert.raised_finish ((htold hexact).stands hstands.alert), hstands.alert.raised]
  · rw [line_congr ((lines_of_within hends).trans hlines), line_showLines w hl]

theorem outputsShown : OutputsShown := by
  refine ⟨fun x s b w hr hmark hb hw => ?_, fun w nv r src g invert force hl hinput hfn => ?_, fun x =>
    ⟨Line.terminal_input x, fun ho hp => ?_, fun ho hp => ?_⟩⟩
  · obtain ⟨t, hexec, hplatforms, hcalls, hevac, hgens, hzones, hholders, hraised, hline⟩ := shownAtMark x s b w hr hmark hb hw
    refine ⟨t, hexec, hplatforms, hcalls, hevac, hgens, hzones, hholders, hraised, fun l hl src g invert force hfn => ?_⟩
    rw [hline l hl] at hfn ⊢
    rw [shownLine_output hfn]
    refine ⟨?_, ?_, ?_, ?_⟩
    · rintro rfl
      exact outputLevel_on invert
    · rintro rfl
      exact outputLevel_off invert
    · rintro rfl
      exact outputLevel_high invert
    · rintro rfl
      exact outputLevel_low invert
  · have hout : r.fn.isOutput = true := by rw [hfn]; rfl
    have hrest : r.fn.restLevel = invert := by rw [hfn]; rfl
    have hterminal := Line.terminal_output (refitted ((released w nv r.line).line r.line) r) hout
    refine ⟨writeLine_rewrite nv (rewritten_of_new_output hinput hout), ?_⟩
    rw [line_rewriteLine w nv hl, hterminal, refitted, hrest]
    refine ⟨rfl, ?_⟩
    cases r.polarity <;> rfl
  · rw [Line.terminal_output x ho, hp]
    rfl
  · rw [Line.terminal_output x ho, hp]
    rfl

/-- Settles O55: what a block mark reads, the report of an edge, the action of each function at its edges and settlings, and what
the OUTPUT lines show. -/
theorem contactLinesChange : Obligations.ContactLinesChange :=
  ⟨linesRead, edgesReported, talkLines, platformLines, zoneFaultLines, evacLines, settlingsAct, outputsShown⟩

end Sys2Proof.Lines
end

section
/-! PROOFS. What the arbiter, the voices and the hand-out leave of the evacuation controller (R153, R156): all but its request and the
list in force, and of these two all unless the evacuation request could not begin. -/

namespace Sys2Proof.Evacuation

open Sys2Proof.Machine Sys2Proof.Laws Sys2Proof.Statements

/-! ### The arbiter leaves the controller -/

theorem evac_takeZone (w : Vol) (c z : Nat) : (w.takeZone c z).evac = w.evac := by
  have preempted : ∀ h, (w.preempt h z).evac = w.evac := fun h => by
    unfold Vol.preempt
    split
    · split <;> rfl
    · rfl
  unfold Vol.takeZone
  split
  · split
    · rfl
    · exact preempted _
  · rfl

theorem evac_of_takes {c : Nat} {P : Nat → Prop} {w u : Vol} (h : Zones.TakesOf c P w u) : u.evac = w.evac := by
  induction h with
  | refl => rfl
  | take _ _ ih => exact (evac_takeZone _ _ _).trans ih
  | miss _ _ ih => exact ih

theorem evac_modeTake (w : Vol) (c : Nat) : (w.modeTake c).evac = w.evac := by
  cases h : w.claim c with
  | none => rw [Zones.modeTake_none h]
  | some x => exact evac_of_takes (Zones.modeTake_takes h)

theorem evac_foldl {β : Type} {f : Vol → β → Vol} (l : List β) (w : Vol) (h : ∀ v b, (f v b).evac = v.evac) :
    (l.foldl f w).evac = w.evac :=
  foldl_keeps (fun v => v.evac = w.evac) f l w rfl fun v b hv => (h v b).trans hv

theorem evac_releaseClaim (w : Vol) (c : Nat) : (w.releaseClaim c).evac = w.evac := by
  cases h : w.claim c with
  | none => simp only [Vol.releaseClaim, h]
  | some x =>
    have left := evac_foldl (f := fun v z => v.leaveWait c z) x.waitingZones w fun _ _ => rfl
    have freed := evac_foldl (f := fun v z => v.modZone z fun y => { y with holder := none }) x.heldZones
      (x.waitingZones.foldl (fun v z => v.leaveWait c z) w) fun _ _ => rfl
    have unclaimed : (Zones.unclaimed w c x).evac = w.evac := freed.trans left
    rw [Zones.releaseClaim_eq h]
    exact Zones.walk_keeps (Q := fun v => v.evac = w.evac) (fun v d _ _ hv => (evac_modeTake v d).trans hv) unclaimed _

theorem placeClaim_full {w : Vol} (o : Owner) (g p : Nat) (m : ClaimMode) (h : w.freeClaim = none) :
    w.placeClaim o g p m = (none, w) := by
  unfold Vol.placeClaim
  rw [h]
  cases w.group g <;> rfl

theorem evac_placeClaim (w : Vol) (o : Owner) (g p : Nat) (m : ClaimMode) : (w.placeClaim o g p m).2.evac = w.evac := by
  by_cases hg : w.group g = []
  · rw [Live.placeClaim_emptyGroup o p m hg]
  · cases hc : w.freeClaim with
    | none => rw [placeClaim_full o g p m hc]
    | some c =>
      have stamped : (Zones.stamped w).evac = w.evac := (congrArg Vol.evac (Zones.stamped_rest w) :)
      have entered : ∀ u x, (Zones.entered u c x).evac = u.evac := fun u x => evac_foldl x.waitingZones _ fun _ _ => rfl
      rw [Zones.placeClaim_eq hg hc]
      exact (evac_modeTake _ c).trans ((entered _ _).trans stamped)

/-! ### The voices and the queue leave the controller -/

theorem evac_makeDemand (w : Vol) (v : Nat) : (w.makeDemand v).evac = w.evac := by
  unfold Vol.makeDemand
  dsimp only
  split
  · rfl
  · split <;> rfl

theorem evac_vacated (w : Vol) (v : Nat) (x : Voice) : (Voices.vacated w v x).evac = w.evac := by
  have withdrawn : ∀ u : Vol, (u.withdrawDemand v).evac = u.evac := fun _ => rfl
  have lowered : ∀ u : Vol, (u.lowerUses x.frags).evac = u.evac := fun _ => rfl
  simp only [Voices.vacated, Vol.setVoice_fields, withdrawn, lowered]

theorem evac_releaseVoice (w : Vol) (v : Nat) : (w.releaseVoice v).evac = w.evac := by
  cases h : (w.voice v).claim with
  | none =>
    rw [Voices.releaseVoice_unclaimed h, evac_vacated]
  | some c =>
    rw [Voices.releaseVoice_claimed h, evac_vacated, evac_releaseClaim]

theorem evac_removeRequest (w : Vol) (n : Nat) (o : ReqOutcome) : (w.removeRequest n o).evac = w.evac := by
  cases h : w.request n with
  | none => rw [Requests.removeRequest_absent o h]
  | some r =>
    have dequeued : (Requests.dequeued w n r o).evac = w.evac := by simp [Requests.dequeued]
    rw [Requests.removeRequest_eq o h]
    cases r.voice? with
    | none => exact dequeued
    | some v => exact (evac_releaseVoice _ v).trans dequeued

theorem evac_closeSource (w : Vol) (lane : Nat) (cause : LiveCause) : (w.closeSource lane cause).evac = w.evac := by
  cases h : w.source lane with
  | none => rw [Live.closeSource_closed cause h]
  | some x =>
    rw [Live.closeSource_open cause h]
    simpa using evac_releaseClaim w x.claim

/-! ### The hand-out can leave the controller without its request (R153, R156) -/

/-- The controller stands, or is left without request and list, as by an evacuation request that could not begin. -/
def KeptOrEmptied (w w' : Vol) : Prop := w'.evac = w.evac ∨ w'.evac = w.evac.fixed

theorem KeptOrEmptied.trans {a b c : Vol} (h : KeptOrEmptied a b) (k : KeptOrEmptied b c) : KeptOrEmptied a c := by
  have emptied : b.evac.fixed = a.evac.fixed := by
    rcases h with h | h
    · rw [h]
    · rw [h]
      rfl
  rcases k with k | k
  · rwa [KeptOrEmptied, k]
  · exact .inr (k.trans emptied)

/-- A controller without request and list stands. -/
theorem KeptOrEmptied.evac_eq {w w' : Vol} (h : KeptOrEmptied w w') (hw : w.evac.fixed = w.evac) : w'.evac = w.evac :=
  h.elim id fun h => h.trans hw

theorem failBegin_keptOrEmptied (w : Vol) (r : Request) (o : ReqOutcome) : KeptOrEmptied w (w.failBegin r o) := by
  have removed := evac_removeRequest w r.number o
  by_cases h : r.origin = .evac
  · rw [Voices.failBegin_evac w o h]
    exact .inr (congrArg Evac.fixed removed)
  · rw [Voices.failBegin_station w o h]
    exact .inl removed

/-- A voice begins and leaves the controller, or its request ends (R102, R104). -/
theorem beginVoice_keptOrEmptied (w : Vol) (nv : Nonvolatile) (r : Request) (v : Nat) :
    KeptOrEmptied w (w.beginVoice nv r v) := by
  unfold Vol.beginVoice
  generalize (if r.origin = .evac then expandEvac nv w.listInForce else w.expandTemplate nv r) = e
  obtain ⟨fs, incomplete⟩ := e
  dsimp only
  have flagged : (if incomplete = true then w.modRequest r.number fun x => { x with incomplete := true } else w).evac
      = w.evac := by split <;> rfl
  generalize (if incomplete = true then w.modRequest r.number fun x => { x with incomplete := true } else w) = u at flagged
  refine KeptOrEmptied.trans (.inl flagged) ?_
  split
  · exact failBegin_keptOrEmptied u r _
  · split
    · exact failBegin_keptOrEmptied u r _
    · next g _ =>
      have placed := evac_placeClaim u (.voice v) g r.priority r.mode
      generalize u.placeClaim (.voice v) g r.priority r.mode = p at placed
      obtain ⟨c, u'⟩ := p
      refine KeptOrEmptied.trans (.inl placed) ?_
      cases c with
      | none => exact failBegin_keptOrEmptied u' r _
      | some c => exact .inl (evac_makeDemand _ v)

theorem handsOut_keptOrEmptied {nv : Nonvolatile} {n : Nat} {w w' : Vol} (h : HandsOut nv n w w') : KeptOrEmptied w w' := by
  induction n generalizing w with
  | zero =>
    obtain ⟨-, rfl⟩ := h
    exact .inl rfl
  | succ n ih =>
    obtain ⟨r, v, -, h⟩ := h
    have voiced : KeptOrEmptied w (w.modRequest r.number fun x => { x with state := .voiced v }) := .inl rfl
    exact voiced.trans ((beginVoice_keptOrEmptied _ nv r v).trans (ih h))

theorem handOut_keptOrEmptied (w : Vol) (nv : Nonvolatile) : KeptOrEmptied w (w.handOut nv) := by
  obtain ⟨_, -, h⟩ := Requests.handOut w nv
  exact handsOut_keptOrEmptied h

/-! ### What the creation of a request leaves of the controller -/

theorem evacFixed_of_within {w w' : Vol} (h : w.Within w') : w'.evac.fixed = w.evac.fixed := (congrArg Vol.evac h.fixed :)

theorem evacFixed_createRequest (w : Vol) (nv : Nonvolatile) (r : Request) :
    (w.createRequest nv r).2.evac.fixed = w.evac.fixed := by
  unfold Vol.createRequest
  dsimp only
  have replaced := replaceMoment_within w r
  generalize w.replaceMoment r = u at replaced
  split
  · next u' hroom =>
    exact evacFixed_of_within
      (replaced.trans ((makeRoom_within hroom).trans ((numberRequest_within u' r).trans (enterQueue_within _ nv _))))
  · have numbered := (replaced.trans (numberRequest_within u r)).trans
      (endNotice_within (u.numberRequest r).2 (u.numberRequest r).1 .dropped)
    have ended := evacFixed_of_within numbered
    rw [evacFixed_of_within (handOut_within _ nv)]
    exact ended

end Sys2Proof.Evacuation
end

section
/-! PROOFS. The evacuation controller (Chapter 9): its three requests (R151), the entry into ALERT and EVACUATE (R153, R155), the
evacuation request and its list (R156), and the return to NORMAL (R157). -/

namespace Sys2Proof.Evacuation

open Sys2Proof.Machine Sys2Proof.Laws Sys2Proof.Statements

/-! ### The evacuation request (R153, R156) -/

theorem makeEvacRequest_holds {w u : Vol} {nv : Nonvolatile} {n : Nat} {r : Request}
    (h : ({ w with evac := { w.evac with list := some w.rowList } } : Vol).createRequest nv
      (Vol.evacRequest { w with evac := { w.evac with list := some w.rowList } }) = (some n, u))
    (hr : u.request n = some r) :
    w.makeEvacRequest nv = { u with evac := { u.evac with request := some n } } := by
  simp only [Vol.makeEvacRequest, Vol.modEvac, h, hr]

theorem makeEvacRequest_ended {w u : Vol} {nv : Nonvolatile} {made : Option Nat}
    (h : ({ w with evac := { w.evac with list := some w.rowList } } : Vol).createRequest nv
      (Vol.evacRequest { w with evac := { w.evac with list := some w.rowList } }) = (made, u))
    (hr : made = none ∨ ∃ n, made = some n ∧ u.request n = none) : w.makeEvacRequest nv = u := by
  rcases hr with rfl | ⟨n, rfl, hr⟩
  · simp only [Vol.makeEvacRequest, Vol.modEvac, h]
  · simp only [Vol.makeEvacRequest, Vol.modEvac, h, hr]

/-- While the store is not STARTING the list is that of the stage (R156). -/
theorem rowList_stage {w : Vol} (h : ∀ n, w.store.op ≠ .starting n) :
    w.rowList = if w.evac.state = .evacuate then .evacuate else .alert := by
  have hs : ¬ w.storeStarting = true := fun hs => by
    obtain ⟨n, hn⟩ := (Reads.storeStarting_iff w).mp hs
    exact h n hn
  rw [Vol.rowList, if_neg hs]
  cases w.evac.state <;> rfl

theorem evacRequestMade : EvacRequestMade := by
  rintro w w1 w2 nv l made hstarting hstage rfl hmade
  have hl : l = w.rowList := by
    by_cases hs : ∃ n, w.store.op = .starting n
    · rw [hstarting hs, Store.rowList_starting hs]
    · push Not at hs
      rw [hstage hs, rowList_stage hs]
  subst hl
  refine ⟨fun n r hn hr => ?_, makeEvacRequest_ended hmade⟩
  subst hn
  exact makeEvacRequest_holds hmade hr

theorem evacFixed_makeEvacRequest (w : Vol) (nv : Nonvolatile) : (w.makeEvacRequest nv).evac.fixed = w.evac.fixed := by
  have created := evacFixed_createRequest { w with evac := { w.evac with list := some w.rowList } } nv
    (Vol.evacRequest { w with evac := { w.evac with list := some w.rowList } })
  generalize hmade : ({ w with evac := { w.evac with list := some w.rowList } } : Vol).createRequest nv
    (Vol.evacRequest { w with evac := { w.evac with list := some w.rowList } }) = p at created
  obtain ⟨made, u⟩ := p
  cases made with
  | none =>
    rw [makeEvacRequest_ended hmade (.inl rfl)]
    exact created
  | some n =>
    cases hr : u.request n with
    | none =>
      rw [makeEvacRequest_ended hmade (.inr ⟨n, rfl, hr⟩)]
      exact created
    | some r =>
      rw [makeEvacRequest_holds hmade hr]
      exact created

/-! ### The entry into EVACUATE and ALERT (R150, R153, R155) -/

theorem lowSuppressed : LowSuppressed := fun _ _ => rfl

theorem suppressLow_within (w : Vol) (nv : Nonvolatile) : w.Within (w.suppressLow nv) :=
  (Vol.Within.foldl _ _ _ fun _ _ => removeRequest_within _ _ _).trans (handOut_within _ _)

theorem evac_setEvac (w : Vol) (next : EvacState) (c : EvacCause) :
    (w.setEvac next c).evac = { w.evac with state := next } := by
  simp [Vol.setEvac, Vol.modEvac]

/-- `w` on entering EVACUATE, its low requests suppressed, before anything is done about the evacuation request. -/
def cleared (w : Vol) (nv : Nonvolatile) (c : EvacCause) : Vol := (stageChanged w .evacuate c).suppressLow nv

theorem evacFixed_cleared (w : Vol) (nv : Nonvolatile) (c : EvacCause) :
    (cleared w nv c).evac.fixed = { w.evac.fixed with state := .evacuate } :=
  (evacFixed_of_within (suppressLow_within _ nv)).trans (congrArg Evac.fixed (evac_setEvac w .evacuate c))

section

variable {w : Vol} (nv : Nonvolatile) (c : EvacCause)

theorem enterEvacuate_normal (h : w.evac.state = .normal) :
    w.enterEvacuate nv c = (cleared w nv c).makeEvacRequest nv := by
  simp only [Vol.enterEvacuate, h, decide_true, if_true]
  rfl

theorem enterEvacuate_alert (h : w.evac.state ≠ .normal) : w.enterEvacuate nv c =
    if (cleared w nv c).evac.request.isSome ∧ (cleared w nv c).evac.list ≠ some .standIn then
      (cleared w nv c).changeList c.atMark
    else cleared w nv c := by
  simp only [Vol.enterEvacuate, h, decide_false, Bool.false_eq_true, if_false]
  rfl

theorem enterAlert_skipped (h : w.evac.duration = 0) : w.enterAlert nv c = w.enterEvacuate nv c := if_pos h

theorem enterAlert_stands (h : w.evac.duration ≠ 0) : w.enterAlert nv c =
    (stageChanged { w with evac := { w.evac with timer := 0 } } .alert c).makeEvacRequest nv := if_neg h

end

theorem atMark_eq_false {c : EvacCause} (h : c = .start ∨ c = .escalate ∨ c = .stop) : c.atMark = false := by
  rcases h with rfl | rfl | rfl <;> rfl

theorem atMark_iff (c : EvacCause) : c.atMark = true ↔ c ≠ .start ∧ c ≠ .escalate ∧ c ≠ .stop := by
  cases c <;> simp [EvacCause.atMark]

theorem stagesEntered : StagesEntered := by
  refine ⟨fun w nv c => ⟨enterAlert_skipped nv c, enterAlert_stands nv c⟩, ?_⟩
  rintro w w1 nv c rfl
  refine ⟨enterEvacuate_normal nv c, fun hstate hno => ?_, fun n hstate hn hlist => ?_⟩
  · rw [enterEvacuate_alert nv c hstate]
    refine if_neg fun ⟨hsome, hlist⟩ => ?_
    rcases hno with hnone | hstandIn
    · rw [cleared, hnone] at hsome
      cases hsome
    · exact hlist hstandIn
  · have given : w.enterEvacuate nv c = (cleared w nv c).changeList c.atMark := by
      rw [enterEvacuate_alert nv c hstate]
      exact if_pos ⟨Option.isSome_of_eq_some hn, hlist⟩
    have stage := Store.changeList_stage (cleared w nv c) c.atMark
    rw [← given] at stage
    refine ⟨fun hc => ?_, fun h1 h2 h3 => ?_⟩
    · rwa [atMark_eq_false hc] at stage
    · rwa [(atMark_iff c).mpr ⟨h1, h2, h3⟩] at stage

theorem evacFixed_enterEvacuate (w : Vol) (nv : Nonvolatile) (c : EvacCause) :
    (w.enterEvacuate nv c).evac.fixed = { w.evac.fixed with state := .evacuate } := by
  rw [← evacFixed_cleared w nv c]
  by_cases h : w.evac.state = .normal
  · rw [enterEvacuate_normal nv c h]
    exact evacFixed_makeEvacRequest _ nv
  · rw [enterEvacuate_alert nv c h]
    split <;> rfl

theorem evacFixed_enterAlert {w : Vol} (nv : Nonvolatile) (c : EvacCause) (h : w.evac.duration ≠ 0) :
    (w.enterAlert nv c).evac.fixed = { w.evac.fixed with state := .alert, timer := 0 } := by
  rw [enterAlert_stands nv c h]
  exact (evacFixed_makeEvacRequest _ nv).trans
    (congrArg Evac.fixed (evac_setEvac { w with evac := { w.evac with timer := 0 } } .alert c))

/-! ### The return to NORMAL (R157) -/

/-- `w` with the request, if there is one, removed with CANCELLED. -/
def requestCancelled (w : Vol) (request : Option Nat) : Vol :=
  match request with
  | some n => w.removeRequest n .cancelled
  | none => w

/-- `w` in NORMAL, its evacuation request removed, no request and no list left. -/
def withoutRequest (w : Vol) (c : EvacCause) : Vol :=
  (requestCancelled (stageChanged w .normal c) w.evac.request).modEvac fun e => { e with request := none, list := none }

/-- `w` with its evacuation source closed. -/
def withoutSource (w : Vol) : Vol :=
  match w.evac.lane with
  | some lane => if w.evacSourceOpen then w.closeSource lane .stopped else w
  | none => w

theorem returnNormal_eq (w : Vol) (nv : Nonvolatile) (c : EvacCause) :
    w.returnNormal nv c = (withoutSource (withoutRequest w c)).handOut nv := rfl

theorem withoutSource_open {w : Vol} {l : Nat} {x : LiveSource} {k : Option Nat} (hl : w.evac.lane = some l)
    (hx : w.source l = some x) (ho : x.opener = .evacuation k) : withoutSource w = w.closeSource l .stopped := by
  simp only [withoutSource, hl, (Lines.evacSourceOpen_iff w).mpr ⟨l, x, k, hl, hx, ho⟩, if_true]

theorem withoutSource_closed {w : Vol}
    (h : ∀ l x k, w.evac.lane = some l → w.source l = some x → x.opener ≠ .evacuation k) : withoutSource w = w := by
  have closed : ¬ w.evacSourceOpen = true := fun hopen => by
    obtain ⟨l, x, k, hl, hx, ho⟩ := (Lines.evacSourceOpen_iff w).mp hopen
    exact h l x k hl hx ho
  unfold withoutSource
  split
  · exact if_neg closed
  · rfl

theorem stageLeft : StageLeft := by
  rintro w w1 w2 w3 nv c rfl hsome hnone rfl
  have left : withoutRequest w c = { w2 with evac := { w2.evac with request := none, list := none } } := by
    have removed : requestCancelled (stageChanged w .normal c) w.evac.request = w2 := by
      cases hr : w.evac.request with
      | none => exact (hnone hr).symm
      | some n => exact (hsome n hr).symm
    rw [withoutRequest, removed]
    rfl
  rw [returnNormal_eq, left]
  exact ⟨fun l x k hl hx ho => by rw [withoutSource_open hl hx ho], fun h => by rw [withoutSource_closed h]⟩

theorem evac_withoutRequest (w : Vol) (c : EvacCause) :
    (withoutRequest w c).evac = { w.evac with state := .normal, request := none, list := none } := by
  have changed : (stageChanged w .normal c).evac = { w.evac with state := .normal } := evac_setEvac w .normal c
  have removed : (requestCancelled (stageChanged w .normal c) w.evac.request).evac = { w.evac with state := .normal } := by
    cases w.evac.request with
    | none => exact changed
    | some n => exact (evac_removeRequest _ n .cancelled).trans changed
  exact congrArg Evac.fixed removed

theorem evac_withoutSource (w : Vol) : (withoutSource w).evac = w.evac := by
  unfold withoutSource
  split
  · split
    · exact evac_closeSource w _ .stopped
    · rfl
  · rfl

/-- In NORMAL there is no evacuation request for the hand-out to end. -/
theorem evac_returnNormal (w : Vol) (nv : Nonvolatile) (c : EvacCause) :
    (w.returnNormal nv c).evac = { w.evac with state := .normal, request := none, list := none } := by
  have left := (evac_withoutSource (withoutRequest w c)).trans (evac_withoutRequest w c)
  rw [returnNormal_eq, ← left]
  exact (handOut_keptOrEmptied _ nv).evac_eq (by rw [left]; rfl)

/-! ### The three requests (R151) -/

theorem exec_evacStart (h : RequestHeader) (s : State) : exec (.evacStart h) s
    = .next (takeRequest h 20 (Instr.wf (.evacStart h)) actEvacStart s) := rfl

theorem exec_evacEscalate (h : RequestHeader) (s : State) : exec (.evacEscalate h) s
    = .next (takeRequest h 21 (Instr.wf (.evacEscalate h)) actEvacEscalate s) := rfl

theorem exec_evacStop (h : RequestHeader) (s : State) : exec (.evacStop h) s
    = .next (takeRequest h 22 (Instr.wf (.evacStop h)) actEvacStop s) := rfl

theorem lineHolds_iff (w : Vol) : w.lineHolds = true ↔
    ∃ l < 16, ((w.line l).fn = .evac .alert ∨ (w.line l).fn = .evac .full) ∧ (w.line l).debounced = some true := by
  rw [Vol.lineHolds, Tables.toList_eq_map_range .initial]
  simp [Vol.line]

theorem actEvacStop_refused {s : State} (h : s.vol.evac.state = .normal ∨ s.vol.lineHolds = true) :
    actEvacStop s = refuse .wrongState s := if_pos h

theorem actEvacStop_returns {s : State} (h : s.vol.evac.state ≠ .normal) (hl : s.vol.lineHolds = false) :
    actEvacStop s = okVol s (s.vol.returnNormal s.nv .stop) := if_neg (by simp [h, hl])

theorem evacRequested : EvacRequested := by
  refine ⟨fun h s place hs => ?_, fun h s place hs => ?_, fun h s place hs => ?_, lineHolds_iff, fun w nv c => ?_⟩
  · have he := exec_evacStart h s
    exact ⟨fun hn => Live.answers_of_act he hs (by decide) (if_pos hn),
      fun hn => Live.declines_of_act he hs (by decide) (if_neg hn)⟩
  · have he := exec_evacEscalate h s
    exact ⟨fun hn => Live.answers_of_act he hs (by decide) (if_neg hn),
      fun hn => Live.declines_of_act he hs (by decide) (if_pos hn)⟩
  · have he := exec_evacStop h s
    exact ⟨fun hn => Live.declines_of_act he hs (by decide) (actEvacStop_refused hn),
      fun hn hl => Live.answers_of_act he hs (by decide) (actEvacStop_returns hn hl)⟩
  · have evacuates : (w.enterEvacuate nv c).evac.state = .evacuate := congrArg Evac.state (evacFixed_enterEvacuate w nv c)
    refine ⟨?_, fun hd => congrArg Evac.timer (evacFixed_enterAlert nv c hd), evacuates,
      congrArg Evac.state (evac_returnNormal w nv c), congrArg Evac.request (evac_returnNormal w nv c),
      congrArg Evac.list (evac_returnNormal w nv c)⟩
    split
    · next hd => rwa [enterAlert_skipped nv c hd]
    · next hd => exact congrArg Evac.state (evacFixed_enterAlert nv c hd)

/-- Settles O44: the requests by their tests, the stages by what each entry leaves of the controller, the return to NORMAL by its three
steps, with a hand-out that finds no evacuation request. -/
theorem evacRequests : Obligations.EvacRequests :=
  ⟨evacRequested, evacRequestMade, lowSuppressed, stagesEntered, stageLeft⟩

end Sys2Proof.Evacuation
end

section
/-! PROOFS. The block marks of the evacuation: the expiry of the alert timer (R154), voice 7's change of list (R115, R116, R156), and
the beginning again of its list (R115). -/

namespace Sys2Proof.Evacuation

open Sys2Proof.Machine Sys2Proof.Laws Sys2Proof.Statements

theorem exec_alertTimerExpiry (s : State) : exec .alertTimerExpiry s
    = .next (takeMark .alert Vol.alertDue (fun nv w => w.alertMark nv) s) := rfl

theorem exec_evacListChange (s : State) : exec .evacListChange s
    = .next (takeMark .list Vol.listDue (fun nv w => w.takeList nv 7) s) := rfl

/-! ### The alert timer (R154, R155) -/

section

variable {w : Vol} (hs : w.evac.state = .alert) (ht : w.evac.duration * 1000 ≤ w.evac.timer + 1)
include hs ht

theorem alertDue_of_duration : w.alertDue = true := by simp [Vol.alertDue, hs, ht]

theorem alertMark_of_duration (nv : Nonvolatile) : w.alertMark nv =
    ({ w with evac := { w.evac with timer := w.evac.timer + 1 } } : Vol).enterEvacuate nv .timer := by
  rw [Vol.alertMark, if_pos hs]
  exact if_pos ht

end

/-- Voice 7 is given the evacuation list on entering EVACUATE from ALERT (R155, R156). -/
theorem enterEvacuate_givesList {w : Vol} (nv : Nonvolatile) (c : EvacCause) (hs : w.evac.state = .alert)
    (hr : (cleared w nv c).evac.request.isSome = true) (hl : (cleared w nv c).evac.list ≠ some .standIn)
    (hstore : (cleared w nv c).storeStarting = false) :
    (w.enterEvacuate nv c).voice 7 =
      { (cleared w nv c).voice 7 with newList := some w.evac.evacList, newListWaits := c.atMark } := by
  have hnormal : w.evac.state ≠ .normal := by rw [hs]; decide
  have hready : ∀ n, (cleared w nv c).store.op ≠ .starting n := fun n hn => by
    rw [(Reads.storeStarting_iff _).mpr ⟨n, hn⟩] at hstore
    cases hstore
  have hevacuate : (cleared w nv c).evac.state = .evacuate := congrArg Evac.state (evacFixed_cleared w nv c)
  have hlist : (cleared w nv c).evac.evacList = w.evac.evacList := (congrArg Evac.evacList (evacFixed_cleared w nv c) :)
  obtain ⟨-, -, given⟩ := Store.changeList_stage (cleared w nv c) c.atMark
  rw [enterEvacuate_alert nv c hnormal, if_pos ⟨hr, hl⟩, given hready hevacuate, hlist]
  exact tget_tset_self _ _ _ (by decide)

/-! ### Voice 7 takes a list (R115, R116) -/

/-- R115: no clip of the list passes the clip test. -/
theorem expandEvac_whoop {nv : Nonvolatile} {items : List ListItem}
    (h : ∀ c, .clip c ∈ items → (nv.clip c).state ≠ .valid) : (expandEvac nv items).1 = [.tone 2 100] := by
  simp only [expandEvac]
  rw [if_pos]
  · rfl
  · refine .inl (List.any_eq_false.mpr fun i hi => ?_)
    cases i with
    | clip c => simp [Voices.clipTest_notValid (h c hi)]
    | tone t n => simp

theorem listDue_of_given {w : Vol} {items : List ListItem} (hs : (w.voice 7).state ≠ .idle)
    (hn : (w.voice 7).newList = some items) (hw : (w.voice 7).newListWaits = false) : w.listDue = true := by
  simp [Vol.listDue, hs, hn, hw]

/-- R116: a list given at a block mark waits for the next. -/
theorem listDue_of_waits {w : Vol} (h : (w.voice 7).newListWaits = true) : w.listDue = false := by simp [Vol.listDue, h]

/-- `w` with the request of voice 7 marked incomplete, when it has one and the list it takes leaves out a clip. -/
def toldIncomplete (w : Vol) (incomplete : Bool) : Vol :=
  (w.voice 7).request.elim w fun n => if incomplete then w.modRequest n fun r => { r with incomplete := true } else w

theorem voice_toldIncomplete (w : Vol) (incomplete : Bool) : (toldIncomplete w incomplete).voice 7 = w.voice 7 := by
  unfold toldIncomplete
  cases (w.voice 7).request with
  | none => rfl
  | some n => cases incomplete <;> rfl

/-- A voice at the first frame of the list `fs` that it takes, before it makes a demand. -/
def atNewList (x : Voice) (fs : List Fragment) : Voice :=
  { x with state := if x.state = .cueing then .cueing else .playing, frags := fs, cur := 0, pos := 0, buffer := [],
           demand := none, nextRead := 0, finished := false, newList := none, newListWaits := false }

theorem voice_makeDemand (w : Vol) {v : Nat} (hv : v < 8) :
    ∃ d n, (w.makeDemand v).voice v = { w.voice v with demand := d, nextRead := n } := by
  unfold Vol.makeDemand
  dsimp only
  split
  · exact ⟨_, _, rfl⟩
  · split
    · exact ⟨_, _, tget_tset_self _ _ _ hv⟩
    · exact ⟨_, _, rfl⟩

section

variable {w : Vol} {nv : Nonvolatile} {items : List ListItem} {fs : List Fragment} {incomplete : Bool}
  (hs : (w.voice 7).state ≠ .idle) (hn : (w.voice 7).newList = some items) (he : expandEvac nv items = (fs, incomplete))
include hs hn he

theorem takeList_eq : w.takeList nv 7 =
    (((((toldIncomplete w incomplete).withdrawDemand 7).lowerUses (w.voice 7).frags).raiseUses fs).setVoice 7
      (atNewList (w.voice 7) fs)).makeDemand 7 := by
  have taken : ∀ u : Vol, u.voice 7 = w.voice 7 →
      (((u.withdrawDemand 7).lowerUses (w.voice 7).frags).raiseUses fs).modVoice 7
          (fun y => { atNewList y fs with demand := y.demand }) =
        (((u.withdrawDemand 7).lowerUses (w.voice 7).frags).raiseUses fs).setVoice 7 (atNewList (w.voice 7) fs) :=
      fun u hu => by
    have withdrawn : (((u.withdrawDemand 7).lowerUses (w.voice 7).frags).raiseUses fs).voice 7
        = { w.voice 7 with demand := none } := by
      rw [← hu]
      exact Voices.withdrawDemand_voice u (by decide)
    rw [Vol.modVoice, withdrawn]
    rfl
  rw [← taken _ (voice_toldIncomplete w incomplete)]
  unfold toldIncomplete
  cases hr : (w.voice 7).request with
  | none =>
    simp only [Vol.takeList, hn, hs, he, hr, if_false]
    rfl
  | some n =>
    simp only [Vol.takeList, hn, hs, he, hr, if_false]
    rfl

/-- What stands of voice 7 once it has taken the list; its demand is that of the list's first page. -/
theorem voice_takeList : ∃ d n, (w.takeList nv 7).voice 7 = { atNewList (w.voice 7) fs with demand := d, nextRead := n } := by
  rw [takeList_eq hs hn he]
  obtain ⟨d, n, h⟩ := voice_makeDemand
    (((((toldIncomplete w incomplete).withdrawDemand 7).lowerUses (w.voice 7).frags).raiseUses fs).setVoice 7
      (atNewList (w.voice 7) fs)) (v := 7) (by decide)
  refine ⟨d, n, h.trans ?_⟩
  rw [Vol.voice, Vol.setVoice, tget_tset_self _ _ _ (by decide)]

end

/-! ### A frame of voice 7 -/

theorem hasPage_emptyBuffer {x : Voice} {c n : Nat} (hk : x.frags[x.cur]? = some (.clip c n)) (hb : x.buffer = []) :
    x.hasPage = false := by
  simp [Voice.hasPage, Voice.neededPage, hk, hb]

/-- R115: after its last frame the list begins again, in the next frame. -/
theorem voiceFrame_restarts {w : Vol} {nv : Nonvolatile} {v : Nat} (hs : (w.voice v).state = .playing)
    (ht : (w.voice v).source = some .evacuation) (hf : (w.voice v).finished = true) :
    w.voiceFrame nv v = ((w.setVoice v (w.voice v).restart).makeDemand v).playFrame nv v := by
  simp [Vol.voiceFrame, hs, ht, hf]

theorem listTaken : ListTaken := by
  rintro w w1 nv x items fs incomplete rfl hs hn he hflag hkept
  have told : toldIncomplete w incomplete = w1 := by
    unfold toldIncomplete
    cases hr : (w.voice 7).request with
    | none => exact (hkept (.inr hr)).symm
    | some n =>
      cases incomplete with
      | false => exact (hkept (.inl rfl)).symm
      | true => exact (hflag n rfl hr).symm
  refine ⟨told ▸ takeList_eq hs hn he.symm, ?_⟩
  rintro c n rest y hcue rfl rfl
  obtain ⟨d, k, hvoice⟩ := voice_takeList hs hn he.symm
  have playing : ((w.takeList nv 7).voice 7).state = .playing := by
    rw [hvoice]
    exact if_neg hcue
  have goesOn : ((w.takeList nv 7).voice 7).finished = false := by rw [hvoice]; rfl
  have pageless : ((w.takeList nv 7).voice 7).hasPage = false := by
    rw [hvoice]
    exact hasPage_emptyBuffer (c := c) (n := n) rfl rfl
  have stalls : ((w.takeList nv 7).voice 7).stalls = (w.voice 7).stalls := by rw [hvoice]; rfl
  rw [Voices.voiceFrame_playing playing goesOn, Voices.playFrame_stalls pageless, stalls]

/-- Settles O45: the timer by the mark that brings it to the duration, the list given and the list taken by what they leave of voice 7,
the expansion of a list without a VALID clip, and the frame after the last. -/
theorem evacMarks : Obligations.EvacMarks := by
  refine ⟨fun s hm hs ht => ?_, fun s items hm hs hn hw => ?_, fun nv items => expandEvac_whoop, fun s hw => ?_,
    fun w w1 nv c hs hw1 hr hl hstore => ?_, fun w nv x hx hs ht hf => ?_, listTaken⟩
  · rw [← alertMark_of_duration hs ht]
    exact Live.happens_of_mark (exec_alertTimerExpiry s) hm (alertDue_of_duration hs ht)
  · obtain ⟨d, n, hvoice⟩ := voice_takeList (nv := s.nv) hs hn rfl
    refine ⟨Live.happens_of_mark (exec_evacListChange s) hm (listDue_of_given hs hn hw), ?_⟩
    rw [hvoice]
    exact ⟨rfl, rfl, rfl, rfl, rfl, rfl⟩
  · rw [exec_evacListChange, takeMark_not_due (listDue_of_waits hw)]
  · have hcleared : w1 = cleared w nv c := hw1
    subst hcleared
    rw [enterEvacuate_givesList nv c hs hr hl hstore]
    exact ⟨rfl, atMark_iff c⟩
  · subst hx
    exact voiceFrame_restarts hs ht hf

end Sys2Proof.Evacuation
end

section
/-! PROOFS. Requests by their owners' acts (R175): the acts that owners have, the act of each command that is a request, and the
acts that the bytes of a request spell (R174, R179). -/

namespace Sys2Proof.Commands

open Sys2Proof.Machine Sys2Proof.Laws Sys2Proof.Statements

/-! ### The owners' acts -/

/-- The acts of the owners of requests: the refusal, one act for each request, and the SECTOR ERASE GO whose bank byte names no
bank (R130). -/
inductive OwnerAct : Act → Prop
  | refuse (c : ResultCode) : OwnerAct (refuse c)
  | hello : OwnerAct actHello
  | address (a : Nat) : OwnerAct (actAddress a)
  | status (clear : Bool) : OwnerAct (actStatus clear)
  | resetAudio : OwnerAct actResetAudio
  | resetFull : OwnerAct actResetFull
  | alertMask (cs : List Nat) : OwnerAct (actAlertMask cs)
  | writeZone (r : ZoneRecord) : OwnerAct (actWriteZone r)
  | writeGroup (g : Nat) (ms : List Nat) : OwnerAct (actWriteGroup g ms)
  | writePlatform (p : Nat) (g t : Option Nat) : OwnerAct (actWritePlatform p g t)
  | writeProfile (r : ProfileRecord) : OwnerAct (actWriteProfile r)
  | writeTemplate (r : TemplateRecord) : OwnerAct (actWriteTemplate r)
  | writeHours (first : Nat) (es : List (Option Nat)) : OwnerAct (actWriteHours first es)
  | writeMinutes (first : Nat) (es : List (Option Nat)) : OwnerAct (actWriteMinutes first es)
  | writeNumbers (first : Nat) (es : List (Option Nat)) : OwnerAct (actWriteNumbers first es)
  | writePlatPhrases (first : Nat) (es : List (Option Nat)) : OwnerAct (actWritePlatPhrases first es)
  | writeDests (first : Nat) (es : List (Option Nat)) : OwnerAct (actWriteDests first es)
  | writeLine (r : LineRecord) : OwnerAct (actWriteLine r)
  | writeGenerator (g p r f : Nat) : OwnerAct (actWriteGenerator g p r f)
  | writeLink (d rate : Nat) : OwnerAct (actWriteLink d rate)
  | tableRead (cls : Nat) (index : ReadIndex) : OwnerAct (actTableRead cls index)
  | time (t dayBase : Nat) : OwnerAct (actTime t dayBase)
  | callLoad (c : CallLoad) : OwnerAct (actCallLoad c)
  | callUpdate (slot : Nat) (expected platform : Carried Nat) : OwnerAct (actCallUpdate slot expected platform)
  | markArrived (slot : Nat) : OwnerAct (actMarkArrived slot)
  | markDeparted (slot : Nat) : OwnerAct (actMarkDeparted slot)
  | callCancel (slot : Nat) : OwnerAct (actCallCancel slot)
  | callRemove (slot : Nat) : OwnerAct (actCallRemove slot)
  | announce (a : Announcement) : OwnerAct (actAnnounce a)
  | announceCancel (n : Nat) : OwnerAct (actAnnounceCancel n)
  | liveStart (l : LiveStart) : OwnerAct (actLiveStart l)
  | liveStartEvac (l : LiveStart) : OwnerAct (actLiveStartEvac l)
  | liveStop (lane : Nat) : OwnerAct (actLiveStop lane)
  | gainSet (es : List GainEntry) : OwnerAct (actGainSet es)
  | monitor (z : Option Nat) : OwnerAct (actMonitor z)
  | evacStart : OwnerAct actEvacStart
  | evacEscalate : OwnerAct actEvacEscalate
  | evacStop : OwnerAct actEvacStop
  | clipOpen (c : Nat) (bank : ClipBank) (n : Nat) : OwnerAct (actClipOpen c bank n)
  | pageWrite (c i : Nat) (data : List Byte) : OwnerAct (actPageWrite c i data)
  | clipSeal (c length : Nat) (check : BitVec 32) : OwnerAct (actClipSeal c length check)
  | clipRetire (c : Nat) : OwnerAct (actClipRetire c)
  | eraseArm (bank : ClipBank) (sector : Nat) : OwnerAct (actEraseArm bank sector)
  | eraseGo (bank : ClipBank) (sector : Nat) : OwnerAct (actEraseGo bank sector)
  | eraseGoOutOfRange : OwnerAct eraseGoOutOfRange
  | storeAbort : OwnerAct actStoreAbort
  | guardSet (m : GuardMark) : OwnerAct (actGuardSet m)
  | guardClear (m : GuardMark) : OwnerAct (actGuardClear m)
  | programWrite (p : ProgramFields) : OwnerAct (actProgramWrite p)

/-- A command that is a request is taken by R175, with its own test of its fields, for the act of its owner. -/
theorem exec_request {i : Instr} {h : RequestHeader} {kind : Nat} (hi : i.request = some (h, kind)) :
    ∃ act, OwnerAct act ∧ ∀ s, exec i s = .next (takeRequest h kind i.wf act s) := by
  cases i with
  | requestUnknownKind => cases hi; exact ⟨_, .refuse .badArg, fun _ => rfl⟩
  | hello => cases hi; exact ⟨_, .hello, fun _ => rfl⟩
  | address _ a => cases hi; exact ⟨_, .address a, fun _ => rfl⟩
  | status _ clear => cases hi; exact ⟨_, .status clear, fun _ => rfl⟩
  | resetAudio => cases hi; exact ⟨_, .resetAudio, fun _ => rfl⟩
  | resetFull => cases hi; exact ⟨_, .resetFull, fun _ => rfl⟩
  | alertMask _ cs => cases hi; exact ⟨_, .alertMask cs, fun _ => rfl⟩
  | tableWriteZone _ r => cases hi; exact ⟨_, .writeZone r, fun _ => rfl⟩
  | tableWriteGroup _ g ms => cases hi; exact ⟨_, .writeGroup g ms, fun _ => rfl⟩
  | tableWritePlatform _ p g t => cases hi; exact ⟨_, .writePlatform p g t, fun _ => rfl⟩
  | tableWriteProfile _ r => cases hi; exact ⟨_, .writeProfile r, fun _ => rfl⟩
  | tableWriteTemplate _ r => cases hi; exact ⟨_, .writeTemplate r, fun _ => rfl⟩
  | tableWriteHours _ first es => cases hi; exact ⟨_, .writeHours first es, fun _ => rfl⟩
  | tableWriteMinutes _ first es => cases hi; exact ⟨_, .writeMinutes first es, fun _ => rfl⟩
  | tableWriteNumbers _ first es => cases hi; exact ⟨_, .writeNumbers first es, fun _ => rfl⟩
  | tableWritePlatformsPhrase _ first es => cases hi; exact ⟨_, .writePlatPhrases first es, fun _ => rfl⟩
  | tableWriteDestinations _ first es => cases hi; exact ⟨_, .writeDests first es, fun _ => rfl⟩
  | tableWriteContactLine _ r => cases hi; exact ⟨_, .writeLine r, fun _ => rfl⟩
  | tableWriteGenerator _ g p r f => cases hi; exact ⟨_, .writeGenerator g p r f, fun _ => rfl⟩
  | tableWriteLinkConfig _ d rate => cases hi; exact ⟨_, .writeLink d rate, fun _ => rfl⟩
  | tableWriteUnassigned => cases hi; exact ⟨_, .refuse .ok, fun _ => rfl⟩
  | tableRead _ cls index => cases hi; exact ⟨_, .tableRead cls index, fun _ => rfl⟩
  | time _ t dayBase => cases hi; exact ⟨_, .time t dayBase, fun _ => rfl⟩
  | callLoad _ c => cases hi; exact ⟨_, .callLoad c, fun _ => rfl⟩
  | callUpdate _ slot expected platform => cases hi; exact ⟨_, .callUpdate slot expected platform, fun _ => rfl⟩
  | callMarkArrived _ slot => cases hi; exact ⟨_, .markArrived slot, fun _ => rfl⟩
  | callMarkDeparted _ slot => cases hi; exact ⟨_, .markDeparted slot, fun _ => rfl⟩
  | callCancel _ slot => cases hi; exact ⟨_, .callCancel slot, fun _ => rfl⟩
  | callRemove _ slot => cases hi; exact ⟨_, .callRemove slot, fun _ => rfl⟩
  | announce _ a => cases hi; exact ⟨_, .announce a, fun _ => rfl⟩
  | announceCancel _ n => cases hi; exact ⟨_, .announceCancel n, fun _ => rfl⟩
  | liveStart _ l => cases hi; exact ⟨_, .liveStart l, fun _ => rfl⟩
  | liveStartEvac _ l => cases hi; exact ⟨_, .liveStartEvac l, fun _ => rfl⟩
  | liveStop _ lane => cases hi; exact ⟨_, .liveStop lane, fun _ => rfl⟩
  | gainSet _ es => cases hi; exact ⟨_, .gainSet es, fun _ => rfl⟩
  | monitorSelect _ z => cases hi; exact ⟨_, .monitor z, fun _ => rfl⟩
  | evacStart => cases hi; exact ⟨_, .evacStart, fun _ => rfl⟩
  | evacEscalate => cases hi; exact ⟨_, .evacEscalate, fun _ => rfl⟩
  | evacStop => cases hi; exact ⟨_, .evacStop, fun _ => rfl⟩
  | clipOpen _ c bank n => cases hi; exact ⟨_, .clipOpen c bank n, fun _ => rfl⟩
  | pageWrite _ c i data => cases hi; exact ⟨_, .pageWrite c i data, fun _ => rfl⟩
  | clipSeal _ c length check => cases hi; exact ⟨_, .clipSeal c length check, fun _ => rfl⟩
  | clipRetire _ c => cases hi; exact ⟨_, .clipRetire c, fun _ => rfl⟩
  | sectorEraseArm _ bank sector => cases hi; exact ⟨_, .eraseArm bank sector, fun _ => rfl⟩
  | sectorEraseGo _ bank sector => cases hi; exact ⟨_, .eraseGo bank sector, fun _ => rfl⟩
  | storeAbort => cases hi; exact ⟨_, .storeAbort, fun _ => rfl⟩
  | guardSet _ m => cases hi; exact ⟨_, .guardSet m, fun _ => rfl⟩
  | guardClear _ m => cases hi; exact ⟨_, .guardClear m, fun _ => rfl⟩
  | programWrite _ p => cases hi; exact ⟨_, .programWrite p, fun _ => rfl⟩
  | _ => cases hi

/-! ### The acts that bytes spell (R174, R179) -/

/-- A reading of fields gives owners' acts only. -/
def Gives (o : Option Act) : Prop := ∀ act, o = some act → OwnerAct act

theorem Gives.some {act : Act} (h : OwnerAct act) : Gives (some act) := fun _ ha => Option.some.inj ha ▸ h

theorem Gives.none : Gives none := fun _ ha => nomatch ha

theorem Gives.bind {β : Type} {o : Option β} {g : β → Option Act} (h : ∀ b, Gives (g b)) : Gives (o >>= g) := fun act ha => by
  obtain ⟨b, -, hb⟩ := Option.bind_eq_some_iff.mp ha
  exact h b act hb

theorem Gives.map {β : Type} {o : Option β} {g : β → Act} (h : ∀ b, OwnerAct (g b)) : Gives (o.map g) := fun act ha => by
  obtain ⟨b, -, rfl⟩ := Option.map_eq_some_iff.mp ha
  exact h b

/-- A body of the right shape whose fields name no act is refused by its owner. -/
theorem Gives.handed {shape : Bool} {o : Option Act} (h : Gives o) : Gives (handed shape o) := by
  intro act ha
  cases shape with
  | false => cases ha
  | true =>
    obtain rfl := Option.some.inj ha
    cases o with
    | none => exact .refuse _
    | some act => exact h act rfl

theorem readPhrases_gives {write : Nat → List (Option Nat) → Act} (h : ∀ first es, OwnerAct (write first es))
    (bs : List Byte) : Gives (readPhrases write bs) := .handed (.bind fun _ => .some (h _ _))

theorem readTemplate_gives (bs : List Byte) : Gives (readTemplate bs) := by
  refine .handed ?_
  split
  · exact .some (.writeTemplate _)
  · exact .bind fun _ => .bind fun _ => .bind fun _ => .bind fun _ => .some (.writeTemplate _)

theorem readWrite_gives (cls : Nat) (bs : List Byte) : Gives (readWrite cls bs) := by
  unfold readWrite
  split
  · exact .handed (.bind fun _ => .bind fun _ => .some (.writeZone _))
  · exact .handed (.some (.writeGroup _ _))
  · exact .handed (.some (.writePlatform _ _ _))
  · exact .handed (.some (.writeProfile _))
  · exact readTemplate_gives bs
  · exact readPhrases_gives .writeHours bs
  · exact readPhrases_gives .writeMinutes bs
  · exact readPhrases_gives .writeNumbers bs
  · exact readPhrases_gives .writePlatPhrases bs
  · exact readPhrases_gives .writeDests bs
  · exact .handed (.bind fun _ => .bind fun _ => .bind fun _ => .some (.writeLine _))
  · exact .handed (.some (.writeGenerator _ _ _ _))
  · exact .handed (.some (.writeLink _ _))
  · exact .some (.refuse .ok)
  · exact .some (.refuse .ok)
  · exact .some (.refuse .ok)
  · exact .none

theorem readIndexFields_gives (cls : Nat) (bs : List Byte) : Gives (readIndexFields cls bs) := by
  unfold readIndexFields
  split
  · exact .some (.tableRead _ _)
  · split
    · exact .handed (.some (.tableRead _ _))
    · split
      · exact .handed (.some (.tableRead _ _))
      · exact .handed (.some (.tableRead _ _))

theorem readReset_gives (bs : List Byte) : Gives (namedAt bs 0 [actResetAudio, actResetFull]) := by
  intro act ha
  have hmem := List.mem_of_getElem? ha
  simp only [List.mem_cons, List.not_mem_nil, or_false] at hmem
  obtain rfl | rfl := hmem
  · exact .resetAudio
  · exact .resetFull

theorem readCallMark_gives (bs : List Byte) : Gives (readCallMark bs) := by
  refine .handed ?_
  split
  · exact .some (.markArrived _)
  · exact .some (.markDeparted _)
  · exact .none

theorem readLiveStart_gives (bs : List Byte) : Gives (readLiveStart bs) := by
  refine .handed (.bind fun evacuation => ?_)
  cases evacuation with
  | false => exact .some (.liveStart _)
  | true => exact .some (.liveStartEvac _)

theorem readEraseGo_gives (bs : List Byte) : Gives (readEraseGo bs) := by
  refine .handed (.some ?_)
  split
  · exact .eraseGo _ _
  · exact .eraseGoOutOfRange

/-- The bytes of a request's body spell owners' acts only. -/
theorem readBody_gives (kind : Nat) (bs : List Byte) : Gives (readBody kind bs) := by
  unfold readBody
  split
  · exact .handed (.some .hello)
  · exact .handed (.some (.address _))
  · exact .handed (.map .status)
  · exact .handed (readReset_gives bs)
  · exact .handed (.some (.alertMask _))
  · split
    · exact .none
    · exact readWrite_gives _ _
  · split
    · exact .none
    · exact readIndexFields_gives _ _
  · exact .handed (.some (.time _ _))
  · exact .handed (.bind fun _ => .bind fun _ => .some (.callLoad _))
  · exact .handed (.bind fun _ => .bind fun _ => .some (.callUpdate _ _ _))
  · exact readCallMark_gives bs
  · exact .handed (.some (.callCancel _))
  · exact .handed (.some (.callRemove _))
  · exact .handed (.bind fun _ => .bind fun _ => .bind fun _ => .bind fun _ => .bind fun _ => .bind fun _ => .bind fun _ =>
      .bind fun _ => .some (.announce _))
  · exact .handed (.some (.announceCancel _))
  · exact readLiveStart_gives bs
  · exact .handed (.some (.liveStop _))
  · exact .handed (.map .gainSet)
  · exact .handed (.some (.monitor _))
  · exact .handed (.some .evacStart)
  · exact .handed (.some .evacEscalate)
  · exact .handed (.some .evacStop)
  · exact .handed (.map fun _ => .clipOpen _ _ _)
  · exact .handed (.some (.pageWrite _ _ _))
  · exact .handed (.some (.clipSeal _ _ _))
  · exact .handed (.some (.clipRetire _))
  · exact .handed (.map fun _ => .eraseArm _ _)
  · exact readEraseGo_gives bs
  · exact .handed (.some .storeAbort)
  · exact .handed (.map .guardSet)
  · exact .handed (.map .guardClear)
  · exact .handed (.bind fun _ => .bind fun _ => .bind fun _ => .bind fun _ => .some (.programWrite _))
  · exact .none

/-- A complete message on UP is discarded by its class, or taken as a request for an owner's act. -/
theorem takeMessage_cases (bs : List Byte) (s : State) : takeMessage bs s = { s with vol := s.vol.discardClass }
    ∨ ∃ h kind shaped act, OwnerAct act ∧ takeMessage bs s = takeRequest h kind shaped act s := by
  unfold takeMessage
  split
  · exact .inl rfl
  · refine .inr ⟨_, _, _, _, ?_, rfl⟩
    cases hact : readBody (oneAt bs 2) (bs.drop 8) with
    | none => exact .refuse _
    | some act => exact readBody_gives _ _ act hact

end Sys2Proof.Commands
end

section
/-! PROOFS. What every owner's act keeps: power, the queue of commands, the frame count (R169) and the bound of the notice queue
(R178). -/

namespace Sys2Proof.Commands

open Sys2Proof.Machine Sys2Proof.Laws Sys2Proof.Statements

/-! ### The frame count and the bound of the notice queue -/

/-- `w'` has the frame count of `w`, and its notice queue is within its 24 notices when that of `w` is. -/
structure Modest (w w' : Vol) : Prop where
  notices : w.engine.notices.length ≤ 24 → w'.engine.notices.length ≤ 24
  count : w'.fclk.count = w.fclk.count

theorem Modest.refl (w : Vol) : Modest w w := ⟨id, rfl⟩

theorem Modest.trans {a b c : Vol} (h : Modest a b) (k : Modest b c) : Modest a c :=
  ⟨k.notices ∘ h.notices, k.count.trans h.count⟩

/-- The same, the later step given first. -/
theorem Modest.after {a b c : Vol} (k : Modest b c) (h : Modest a b) : Modest a c := h.trans k

theorem Modest.foldl {β : Type} {f : Vol → β → Vol} {l : List β} {w : Vol} (h : ∀ v b, Modest v (f v b)) :
    Modest w (l.foldl f w) := foldl_keeps (Modest w) f l w (.refl w) fun _ b hv => hv.trans (h _ b)

theorem Modest.ite {c : Prop} [Decidable c] {w a b : Vol} (ha : Modest w a) (hb : Modest w b) :
    Modest w (if c then a else b) := by
  split
  · exact ha
  · exact hb

theorem modest_of_around {w w' : Vol} (h : w.Around w') : Modest w w' :=
  ⟨h.bound, (congrArg (fun v : Vol => v.fclk.count) h.outer :)⟩

theorem modest_of_within {w w' : Vol} (h : w.Within w') : Modest w w' := modest_of_around h.around

theorem modest_notify (w : Vol) (n : Notice) : Modest w (w.notify n) := modest_of_within (notify_within w n)

theorem modest_finish (w : Vol) (nv : Nonvolatile) : Modest w (w.finish nv) := modest_of_within (finish_within w nv)

theorem modest_zoneEvent (w : Vol) (nv : Nonvolatile) (z : Nat) (f : Zone → Zone) : Modest w (w.zoneEvent nv z f) :=
  (modest_of_within (zoneEvent_within w nv z f)).after ⟨id, rfl⟩

/-- The notices of a soft reset enter an empty queue (R183). -/
theorem modest_resetAudio (w : Vol) : Modest w w.resetAudio := by
  have dropped : Modest w w.dropNotices := ⟨fun _ => Nat.zero_le _, rfl⟩
  have noted : Modest w w.dropNotices.resetNotices := dropped.trans (modest_of_within (Phrases.resetNotices_within _))
  unfold Vol.resetAudio
  generalize w.dropNotices.resetNotices = u at noted
  exact noted.trans ⟨id, rfl⟩

theorem modest_resetFull (w : Vol) (pr : Programme) : Modest w (w.resetFull pr) := by
  have ended := modest_resetAudio w
  unfold Vol.resetFull
  generalize w.resetAudio = u at ended
  exact ended.trans ⟨id, rfl⟩

/-- R143: a rewrite acts on the function of the line by the release of the old one at most. -/
theorem modest_writeLine (w : Vol) (nv : Nonvolatile) (r : LineRecord) : Modest w (w.writeLine nv r) := by
  have train : ∀ (v : Vol) (o : Option Nat), Modest v (match o with
      | some p => v.updateTrain p
      | none => v) := by
    intro v o
    cases o with
    | none => exact .refl v
    | some p => exact ⟨id, rfl⟩
  refine .ite ?_ ⟨id, rfl⟩
  unfold Vol.rewriteLine
  refine Modest.trans ?_ (train _ _)
  refine Modest.trans ?_ (train _ _)
  have released : Modest w (if (w.line r.line).debounced = some true then
      (w.modLine r.line fun x => { x with debounced := some false }).fallAct nv r.line (w.line r.line).fn else w) :=
    .ite ((modest_of_around (fallAct_around _ _ _ _)).after ⟨id, rfl⟩) (.refl w)
  exact released.trans ⟨id, rfl⟩

/-! ### The owners' acts -/

/-- `t` has the power and the queue of commands of `s`, and its volatile part the frame count and a notice queue within its bound. -/
structure Steady (s t : State) : Prop where
  power : t.power = s.power
  pending : t.pending = s.pending
  vol : Modest s.vol t.vol

theorem Steady.refl (s : State) : Steady s s := ⟨rfl, rfl, .refl _⟩

theorem Steady.trans {a b c : State} (h : Steady a b) (k : Steady b c) : Steady a c :=
  ⟨k.power.trans h.power, k.pending.trans h.pending, h.vol.trans k.vol⟩

/-- The same, the later step given first. -/
theorem Steady.after {a b c : State} (k : Steady b c) (h : Steady a b) : Steady a c := h.trans k

theorem Steady.ite {s : State} {c : Prop} [Decidable c] {a b : Answer × State} (ha : Steady s a.2) (hb : Steady s b.2) :
    Steady s (if c then a else b).2 := by
  split
  · exact ha
  · exact hb

theorem steady_refuse (c : ResultCode) (s : State) : Steady s (refuse c s).2 := .refl s

theorem steady_okVol {s : State} {w : Vol} (h : Modest s.vol w) : Steady s (okVol s w).2 := ⟨rfl, rfl, h⟩

theorem steady_finish (s : State) : Steady s s.finish := ⟨rfl, rfl, modest_finish _ _⟩

theorem steady_notify (s : State) (n : Notice) : Steady s (s.notify n) := ⟨rfl, rfl, modest_notify _ _⟩

/-- A refusal, or an answer OK. -/
theorem steady_refuse_or_okVol {s : State} {c : Prop} [Decidable c] {code : ResultCode} {w : Vol} (h : Modest s.vol w) :
    Steady s (if c then refuse code s else okVol s w).2 := .ite (steady_refuse _ s) (steady_okVol h)

/-- An answer OK, or a refusal. -/
theorem steady_okVol_or_refuse {s : State} {c : Prop} [Decidable c] {code : ResultCode} {w : Vol} (h : Modest s.vol w) :
    Steady s (if c then okVol s w else refuse code s).2 := .ite (steady_okVol h) (steady_refuse _ s)

section

variable (s : State)

theorem steady_writeProfile (r : ProfileRecord) : Steady s (actWriteProfile r s).2 := by
  have written : Modest s.vol { s.vol with profiles := tset s.vol.profiles r.profile (ofRecord r) } := ⟨id, rfl⟩
  exact steady_okVol_or_refuse ((written.trans (.foldl fun v c => modest_of_around (remakeDue_around v c))).trans
    (modest_of_around (walkDue_around _ _ _)))

theorem steady_tableRead (cls : Nat) (index : ReadIndex) : Steady s (actTableRead cls index s).2 := by
  unfold actTableRead
  split
  · exact .refl s
  · exact .refl s

theorem steady_time (t b : Nat) : Steady s (actTime t b s).2 := by
  have set : Modest s.vol { s.vol with clock := { isSet := true, time := t, dayBase := b, marks := 0 } } := ⟨id, rfl⟩
  have walked : ∀ w : Vol, Modest w (w.walkAll s.nv) := fun w => modest_of_around (walkAll_around w _)
  refine steady_refuse_or_okVol ((modest_of_within (queueTime_within _ _)).after ?_)
  exact (set.trans (.ite (modest_notify _ _) (.refl _))).trans (.ite (walked _) (.refl _))

theorem steady_callLoad (c : CallLoad) : Steady s (actCallLoad c s).2 :=
  .ite (.refl s) (steady_refuse_or_okVol (modest_of_around
    (((setCall_around _ _ _).trans (remakeDue_around _ _)).trans (walkOne_around _ _ _))))

theorem steady_callUpdate (slot : Nat) (expected platform : Carried Nat) : Steady s (actCallUpdate slot expected platform s).2 := by
  have moved : ∀ o : Option (Option Nat), s.vol.Around (match o with
      | some p => s.vol.updatePlatform s.nv slot p
      | none => s.vol) := by
    intro o
    cases o with
    | none => exact .refl _
    | some p => exact updatePlatform_around _ _ _ _
  have timed : ∀ (w : Vol) (o : Option (Option Nat)), w.Around (match o with
      | some e => w.updateExpected s.nv slot e
      | none => w) := by
    intro w o
    cases o with
    | none => exact .refl w
    | some e => exact updateExpected_around _ _ _ _
  refine .ite (.refl s) ?_
  split
  · exact .refl s
  · refine .ite (.refl s) ?_
    split
    · exact ⟨rfl, rfl, id, rfl⟩
    · exact steady_okVol (modest_of_around ((moved _).trans (timed _ _)))

theorem steady_markArrived (slot : Nat) : Steady s (actMarkArrived slot s).2 := by
  refine .ite (.refl s) ?_
  split
  · exact .refl s
  · split
    · exact .refl s
    · exact .ite ⟨rfl, rfl, modest_of_around (tryPlatform_around _ _ _ _ _)⟩ (.refl s)

theorem steady_markDeparted (slot : Nat) : Steady s (actMarkDeparted slot s).2 := by
  refine .ite (.refl s) ?_
  split
  · exact .refl s
  · exact steady_okVol_or_refuse (modest_of_around (enterGone_around _ _ _ _))

theorem steady_callCancel (slot : Nat) : Steady s (actCallCancel slot s).2 := by
  refine .ite (.refl s) ?_
  split
  · exact .refl s
  · exact steady_refuse_or_okVol (modest_of_around (cancelCall_around _ _ _))

theorem steady_callRemove (slot : Nat) : Steady s (actCallRemove slot s).2 := by
  refine .ite (.refl s) ?_
  split
  · exact .refl s
  · exact ⟨rfl, rfl, modest_of_around (removeCall_around _ _ _)⟩

theorem steady_announce (a : Announcement) : Steady s (actAnnounce a s).2 := by
  refine .ite (.refl s) ?_
  split
  · exact .refl s
  · refine .ite (.refl s) ?_
    split
    · exact ⟨rfl, rfl, id, rfl⟩
    next w hroom =>
      exact ⟨rfl, rfl, modest_of_within
        (((makeRoom_within hroom).trans (numberRequest_within w _)).trans (enterQueue_within _ s.nv _))⟩

theorem steady_announceCancel (n : Nat) : Steady s (actAnnounceCancel n s).2 := by
  unfold actAnnounceCancel
  split
  · exact .refl s
  · exact .ite (.refl s) (.ite (steady_okVol (modest_of_within (modRequest_within _ _ _)))
      (steady_okVol (modest_of_within ((removeRequest_within _ _ _).trans (handOut_within _ _)))))

theorem steady_liveStart (l : LiveStart) : Steady s (actLiveStart l s).2 := by
  refine .ite (.refl s) (.ite (.refl s) ?_)
  split
  next hopen => exact steady_okVol (modest_of_around (openSource_around hopen))
  · exact .refl s

theorem steady_liveStartEvac (l : LiveStart) : Steady s (actLiveStartEvac l s).2 := by
  refine .ite (.refl s) ?_
  split
  · exact .refl s
  · refine .ite (.refl s) (.ite (.refl s) (.ite (.refl s) ?_))
    split
    next hopen => exact steady_okVol (modest_of_around (openEvacSource_around hopen))
    · exact .refl s

/-- A store request keeps what its own rule keeps: the checks before it clear the arms at most (R120). -/
theorem steady_storeRequest {inRange evacTest exclusive : Bool} {retires : Option Nat} {own : StoreCtl → Act}
    (h : ∀ old s, Steady s (own old s).2) : Steady s (storeRequest inRange evacTest exclusive retires own s).2 := by
  have cleared : Steady s { s with vol := s.vol.clearArms } := ⟨rfl, rfl, id, rfl⟩
  exact .ite (.refl s) (.ite cleared (.ite cleared (.ite cleared (.ite cleared (cleared.trans (h _ _))))))

theorem steady_clipOpen (c : Nat) (bank : ClipBank) (n : Nat) : Steady s (actClipOpen c bank n s).2 := by
  refine steady_storeRequest s fun _ s => .ite (.refl s) (.ite (.refl s) ?_)
  split
  · exact .refl s
  · exact ⟨rfl, rfl, id, rfl⟩

theorem steady_pageWrite (c i : Nat) (data : List Byte) : Steady s (actPageWrite c i data s).2 := by
  refine steady_storeRequest s fun _ s => .ite (.refl s) (.ite (.refl s) (.ite (.refl s) ?_))
  split
  · exact .refl s
  · exact .ite (.refl s) ⟨rfl, rfl, id, rfl⟩

theorem steady_clipSeal (c length : Nat) (check : BitVec 32) : Steady s (actClipSeal c length check s).2 := by
  refine steady_storeRequest s fun _ s => ?_
  dsimp only
  split
  · exact .refl s
  · exact .ite (.refl s) (.ite (.refl s) (.ite (.refl s) ⟨rfl, rfl, id, rfl⟩))

theorem steady_clipRetire (c : Nat) : Steady s (actClipRetire c s).2 :=
  steady_storeRequest s fun _ s => .ite (.refl s) (.ite (.refl s) (.ite (.refl s) ⟨rfl, rfl, id, rfl⟩))

theorem steady_eraseGo (bank : ClipBank) (sector : Nat) : Steady s (actEraseGo bank sector s).2 :=
  .ite ⟨rfl, rfl, id, rfl⟩ (steady_storeRequest s fun _ s =>
    .ite (.refl s) (.ite (.refl s) (.ite (.refl s) ⟨rfl, rfl, id, rfl⟩)))

theorem steady_abortOperation : Steady s (abortOperation s).2 := by
  unfold abortOperation
  split
  · exact (steady_notify _ _).after ⟨rfl, rfl, id, rfl⟩
  · exact (steady_notify _ _).after ⟨rfl, rfl, id, rfl⟩
  · exact (steady_notify _ _).after ⟨rfl, rfl, id, rfl⟩
  · exact .refl s
  · exact .refl s
  · exact .refl s

theorem steady_storeAbort : Steady s (actStoreAbort s).2 :=
  steady_storeRequest s fun _ s => .ite (steady_abortOperation s) (steady_okVol ⟨id, rfl⟩)

/-- The act of an owner keeps power, the queue of commands, the frame count and the bound of the notice queue. -/
theorem OwnerAct.steady {act : Act} (h : OwnerAct act) : Steady s (act s).2 := by
  cases h with
  | refuse => exact .refl s
  | hello => exact .refl s
  | address => exact .ite (.refl s) (steady_refuse_or_okVol ⟨id, rfl⟩)
  | status clear =>
    cases clear with
    | false => exact .refl s
    | true => exact ⟨rfl, rfl, id, rfl⟩
  | resetAudio => exact steady_refuse_or_okVol (modest_resetAudio _)
  | resetFull => exact .ite (.refl s) (steady_refuse_or_okVol (modest_resetFull _ _))
  | alertMask => exact steady_okVol_or_refuse ⟨id, rfl⟩
  | writeZone r =>
    have unstaged : Modest s.vol (s.vol.modGain r.zone fun g => { g with stagedFg := none, stagedBg := none }) := ⟨id, rfl⟩
    exact .ite (.refl s) (.ite (.refl s) (.ite (.refl s) (steady_refuse_or_okVol (unstaged.trans (modest_zoneEvent _ _ _ _)))))
  | writeGroup => exact .ite (.refl s) (.ite (.refl s) (steady_refuse_or_okVol ⟨id, rfl⟩))
  | writePlatform | writeHours | writeMinutes | writeNumbers | writePlatPhrases | writeDests | writeGenerator | writeLink =>
    exact steady_okVol_or_refuse ⟨id, rfl⟩
  | writeProfile r => exact steady_writeProfile s r
  | writeTemplate =>
    exact .ite (steady_okVol_or_refuse ⟨id, rfl⟩) (steady_okVol_or_refuse ⟨id, rfl⟩)
  | writeLine => exact .ite (.refl s) (steady_refuse_or_okVol (modest_writeLine _ _ _))
  | tableRead cls index => exact steady_tableRead s cls index
  | time t b => exact steady_time s t b
  | callLoad c => exact steady_callLoad s c
  | callUpdate slot expected platform => exact steady_callUpdate s slot expected platform
  | markArrived slot => exact steady_markArrived s slot
  | markDeparted slot => exact steady_markDeparted s slot
  | callCancel slot => exact steady_callCancel s slot
  | callRemove slot => exact steady_callRemove s slot
  | announce a => exact steady_announce s a
  | announceCancel n => exact steady_announceCancel s n
  | liveStart l => exact steady_liveStart s l
  | liveStartEvac l => exact steady_liveStartEvac s l
  | liveStop => exact .ite (.refl s) (steady_refuse_or_okVol (modest_of_around (closeSource_around _ _ _)))
  | gainSet => exact steady_okVol_or_refuse (.foldl fun _ _ => ⟨id, rfl⟩)
  | monitor => exact steady_okVol_or_refuse ⟨id, rfl⟩
  | evacStart => exact steady_okVol_or_refuse (modest_of_around (enterAlert_around _ _ _))
  | evacEscalate => exact steady_refuse_or_okVol (modest_of_around (enterEvacuate_around _ _ _))
  | evacStop => exact steady_refuse_or_okVol (modest_of_around (returnNormal_around _ _ _))
  | clipOpen c bank n => exact steady_clipOpen s c bank n
  | pageWrite c i data => exact steady_pageWrite s c i data
  | clipSeal c length check => exact steady_clipSeal s c length check
  | clipRetire c => exact steady_clipRetire s c
  | eraseArm => exact steady_storeRequest s fun _ s => steady_refuse_or_okVol ⟨id, rfl⟩
  | eraseGo bank sector => exact steady_eraseGo s bank sector
  | eraseGoOutOfRange => exact ⟨rfl, rfl, id, rfl⟩
  | storeAbort => exact steady_storeAbort s
  | guardSet => exact steady_storeRequest s fun _ s => ⟨rfl, rfl, id, rfl⟩
  | guardClear => exact steady_storeRequest s fun _ s => .ite (.refl s) ⟨rfl, rfl, id, rfl⟩
  | programWrite => exact steady_storeRequest s fun _ s => .ite (.refl s) ⟨rfl, rfl, id, rfl⟩

end

end Sys2Proof.Commands
end

section
/-! PROOFS. What every command leaves (R169, R178): the queue of commands, the bound of the notice queue and the bound of the frame
count, by what each command runs. -/

namespace Sys2Proof.Commands

open Sys2Proof.Machine Sys2Proof.Laws Sys2Proof.Statements

/-! ### The parts of a block mark -/

section

variable (w : Vol) (nv : Nonvolatile)

theorem modest_advanceSecond : Modest w (w.advanceSecond nv) := by
  have ticked : Modest w { w with clock := { w.clock with time := w.clock.time + 1, marks := 0 } } := ⟨id, rfl⟩
  exact .ite (ticked.trans (modest_of_around (walkAll_around _ _))) ⟨id, rfl⟩

theorem modest_startVoice (v : Nat) : Modest w (w.startVoice v) := by
  have playing : Modest w (w.setVoice v { w.voice v with state := .playing }) := ⟨id, rfl⟩
  unfold Vol.startVoice
  dsimp only
  split
  · exact playing.trans (modest_of_within (modRequest_within _ _ _))
  · exact playing

theorem modest_takeEnd (v : Nat) : Modest w (w.takeEnd nv v) := by
  unfold Vol.takeEnd
  split
  · exact modest_of_within (((releaseVoice_within _ _).trans (settleEnd_within _ _)).trans (handOut_within _ _))
  · exact modest_of_within ((releaseVoice_within _ _).trans (handOut_within _ _))

theorem modest_stopCancelled (v : Nat) : Modest w (w.stopCancelled nv v) := by
  unfold Vol.stopCancelled
  split
  · exact modest_of_within ((removeRequest_within _ _ _).trans (handOut_within _ _))
  · exact .refl w

/-- A part of a block mark that is due ends an event. -/
theorem Modest.event {w v u : Vol} {nv : Nonvolatile} {b : Bool} (h : Modest w v) (k : Modest w u) :
    Modest w (if b = true then v.finish nv else u) := .ite (h.trans (modest_finish _ _)) k

/-- A part that a command has taken ahead is passed over. -/
theorem Modest.left {w v u : Vol} {b : Bool} (h : Modest w v) (k : Modest v u) : Modest w (if b = true then u else v) :=
  .ite (h.trans k) h

theorem modest_clockMark : Modest w (w.clockMark nv) := by
  have queued : ∀ v : Vol, Modest v ((v.queueTime nv).finish nv) := fun v =>
    modest_of_within ((queueTime_within _ _).trans (finish_within _ _))
  exact .ite (queued w) (.ite ((modest_advanceSecond w nv).trans (queued _)) (.ite ⟨id, rfl⟩ (.refl w)))

theorem modest_silenceMark (z : Nat) : Modest w (w.silenceMark nv z) :=
  .event (modest_zoneEvent _ _ _ _) (.ite ⟨id, rfl⟩ (.refl w))

theorem modest_markParts (levels : BitVec 16) : Modest w (w.markParts nv levels) := by
  unfold Vol.markParts
  dsimp only
  refine .trans ?_ (.foldl fun v x => .left (.refl v) ?voice)
  refine .trans ?_ (.foldl fun v l => .left (.refl v) ?line)
  refine .trans ?_ (.foldl fun v l => .left (.refl v) (modest_of_around (absenceMark_around _ _ _)))
  refine .trans ?_ (.foldl fun v l => .left (.refl v) ?talk)
  refine .left (.trans ?_ (.foldl fun v z => .left (.refl v) (modest_silenceMark _ _ _))) ?alert
  refine .trans (.left (.refl w) ?list) (modest_clockMark _ _)
  case voice => exact modest_of_within ((voiceMark_within _ _ _).trans (finish_within _ _))
  case line => exact .event (modest_of_around (sampleLine_around _ _ _ _)) (modest_of_around (sampleLine_around _ _ _ _))
  case talk => exact .event (modest_of_around (talkMark_around _ _)) (modest_of_around (talkMark_around _ _))
  case alert => exact .event (modest_of_around (alertMark_around _ _)) (modest_of_around (alertMark_around _ _))
  case list => exact .event (modest_of_within (takeList_within _ _ _)) (.refl w)

theorem modest_mixerMark : Modest w w.mixerMark := by
  unfold Vol.mixerMark
  refine .trans ?_ (.foldl fun _ _ => ⟨id, rfl⟩)
  exact .foldl fun _ _ => ⟨id, rfl⟩

theorem modest_showLine (l : Nat) : Modest w (w.showLine l) := by
  unfold Vol.showLine
  split
  · exact ⟨id, rfl⟩
  · exact .refl w

theorem modest_atOutputs (levels : BitVec 16) : Modest w (w.atOutputs nv levels) := by
  unfold Vol.atOutputs
  exact ((modest_markParts w nv levels).trans (modest_mixerMark _)).trans (.foldl fun v g => .left (.refl v) ⟨id, rfl⟩)

/-- R169: the block mark. -/
theorem modest_blockMark (levels : BitVec 16) : Modest w (w.blockMark nv levels) := by
  have shown : Modest w (w.atOutputs nv levels).showLines :=
    (modest_atOutputs w nv levels).trans (.foldl fun v l => modest_showLine v l)
  unfold Vol.blockMark
  generalize (w.atOutputs nv levels).showLines = u at shown
  exact shown.trans ⟨id, rfl⟩

end

/-! ### The reads and the operations of the store -/

section

variable (w : Vol)

theorem modest_countRead (r : ReadOp) (v : ReadVerdict) (readable : Bool) : Modest w (w.countRead r v readable) := by
  refine .ite (.ite ⟨id, rfl⟩ (.refl w)) (.ite ⟨id, rfl⟩ ?_)
  exact (modest_notify _ _).after ⟨id, rfl⟩

theorem modest_deliver (v : Nat) (readable : Bool) : Modest w (w.deliver v readable) := by
  unfold Vol.deliver
  dsimp only
  split
  · exact .refl w
  · exact (modest_of_within (makeDemand_within _ _)).after ⟨id, rfl⟩

theorem modest_verifyTakes (readable : Bool) : Modest w (w.verifyTakes readable) := by
  unfold Vol.verifyTakes
  split
  · exact ⟨id, rfl⟩
  · exact .refl w

end

section

variable (s : State)

theorem steady_endVerify : Steady s (endVerify s) := by
  unfold endVerify
  split
  · dsimp only
    split
    · exact .refl s
    · split
      · exact .refl s
      · split
        · exact (steady_notify _ _).after ⟨rfl, rfl, id, rfl⟩
        · exact (steady_notify _ _).after ⟨rfl, rfl, id, rfl⟩
  · exact .refl s

theorem steady_completeRead (v : ReadVerdict) : Steady s (completeRead s v) := by
  unfold completeRead
  split
  · exact .refl s
  next r hread =>
    dsimp only
    generalize (decide (s.nv.page r.bank r.page = .written) && decide (v ≠ .unreadable)) = readable
    have counted : Modest s.vol ((s.vol.modStore fun c => { c with read := none }).countRead r v readable) :=
      (modest_countRead _ _ _ _).after ⟨id, rfl⟩
    split
    · exact ⟨rfl, rfl, counted.trans (modest_deliver _ _ _)⟩
    · exact (steady_endVerify _).after ⟨rfl, rfl, counted.trans (modest_verifyTakes _ _)⟩
    · exact ⟨rfl, rfl, counted⟩

theorem steady_endScan : Steady s (endScan s) := by
  unfold endScan
  split
  · exact ⟨rfl, rfl, (modest_of_around (scanDoneEvac_around _)).after ((modest_notify _ _).after ⟨id, rfl⟩)⟩
  · exact .refl s

theorem steady_endProgramming : Steady s (endProgramming s) := by
  unfold endProgramming
  split
  · exact (steady_notify _ _).after ⟨rfl, rfl, id, rfl⟩
  · exact .refl s

theorem steady_endErase : Steady s (endErase s) := by
  unfold endErase
  split
  · exact (steady_notify _ _).after ⟨rfl, rfl, id, rfl⟩
  · exact .refl s

theorem steady_endProgramWrite : Steady s (endProgramWrite s) := by
  have stored : Steady s (storeProgramme s) := by
    unfold storeProgramme
    split
    · exact ⟨rfl, rfl, id, rfl⟩
    · exact .refl s
  unfold endProgramWrite
  split
  · exact (steady_notify _ _).after stored
  · exact .refl s

theorem steady_endOverdue : Steady s (endOverdue s) := by
  unfold endOverdue
  split
  · split
    · exact steady_endScan s
    · exact steady_endProgramming s
    · exact steady_endErase s
    · exact steady_endProgramWrite s
    · exact .refl s
    · exact .refl s
  · exact .refl s

end

/-! ### The Span ports (R164, R165, R171) -/

section

variable (w : Vol)

theorem modest_endSending : Modest w w.endSending := by
  unfold Vol.endSending
  split
  · exact .ite ⟨id, rfl⟩ (.refl w)
  · exact .refl w

/-- A notice that is sent leaves the queue (R177). -/
theorem modest_startSending : Modest w w.startSending := by
  unfold Vol.startSending
  split
  · split
    · split
      · exact ⟨id, rfl⟩
      · exact .refl w
    next source n rest _ hnotices =>
      refine ⟨fun hbound => ?_, rfl⟩
      rw [hnotices, List.length_cons] at hbound
      exact Nat.le_of_succ_le hbound
    · exact .refl w
  · exact .refl w

theorem modest_modPort (p : Nat) (f : Port → Port) : Modest w (w.modPort p f) := ⟨id, rfl⟩

theorem modest_modCounts (p : Nat) (f : PortCounts → PortCounts) : Modest w (w.modCounts p f) := ⟨id, rfl⟩

theorem modest_abandon (p : Nat) : Modest w (w.abandon p) := by
  unfold Vol.abandon
  exact (modest_modPort _ _ _).after (.ite (modest_modCounts _ _ _) (.refl w))

theorem modest_leaveLocked (p : Nat) (next : RxState) (cause : PortCause) : Modest w (w.leaveLocked p next cause) := by
  have abandoned : Modest w ((w.modCounts p fun c => { c with lockLoss := satInc c.lockLoss }).abandon p) :=
    (modest_abandon _ p).after (modest_modCounts _ _ _)
  unfold Vol.leaveLocked
  dsimp only
  generalize (w.modCounts p fun c => { c with lockLoss := satInc c.lockLoss }).abandon p = v at abandoned
  have told : Modest w ((v.modPort p fun x => { x with state := next, agreed := 0, badSyncs := 0, last := none }).notify
      (.portState p next cause)) := ((modest_notify _ _).after (modest_modPort _ _ _)).after abandoned
  generalize (v.modPort p fun x => { x with state := next, agreed := 0, badSyncs := 0, last := none }).notify
    (.portState p next cause) = u at told
  have closed := told.trans (modest_of_around (closeSources_around u (fun _ => true) .linkLost))
  refine .ite ?_ told
  generalize u.closeSources (fun _ => true) .linkLost = x at closed
  exact closed.trans ⟨id, rfl⟩

theorem modest_enterLocked (p : Nat) : Modest w (w.enterLocked p) := by
  unfold Vol.enterLocked
  dsimp only
  have told : Modest w ((w.modPort p fun x =>
      { x with state := .locked, agreed := 0, badSyncs := 0, last := none, rx := .ignoring }).notify
      (.portState p .locked .verified)) := (modest_notify _ _).after (modest_modPort _ _ _)
  generalize (w.modPort p fun x => { x with state := .locked, agreed := 0, badSyncs := 0, last := none, rx := .ignoring }).notify
    (.portState p .locked .verified) = u at told
  exact .ite (told.trans ⟨id, rfl⟩) told

theorem modest_lineActive (p : Nat) : Modest w (w.lineActive p) := .ite ⟨id, rfl⟩ (.refl w)

theorem modest_lineQuiet (p : Nat) : Modest w (w.lineQuiet p) := by
  unfold Vol.lineQuiet
  split
  · exact .refl w
  · exact modest_leaveLocked w p _ _
  · exact (modest_notify _ _).after ⟨id, rfl⟩
  · exact (modest_notify _ _).after ⟨id, rfl⟩

theorem modest_syncSeen (p index : Nat) : Modest w (w.syncSeen p index) := .ite ⟨id, rfl⟩ (.refl w)

theorem modest_arrive (p : Nat) (sync : BitVec 16) (index : Nat) : Modest w (w.arrive p sync index).2 := by
  unfold Vol.arrive
  dsimp only
  split
  · exact .refl w
  · exact .refl w
  · split
    · split
      · exact modest_enterLocked w p
      · exact ⟨id, rfl⟩
    · exact ⟨id, rfl⟩
  · split
    · exact ⟨id, rfl⟩
    · split
      · exact modest_leaveLocked w p _ _
      · exact ⟨id, rfl⟩

theorem modest_takeHeader (p : Nat) (covered : List Bool) (check : BitVec 8) : Modest w (w.takeHeader p covered check).2 := by
  unfold Vol.takeHeader
  split
  · exact .refl w
  · exact ⟨id, rfl⟩
  · exact .refl w

theorem modest_takeIndex (p index : Nat) : Modest w (w.takeIndex p index) := by
  unfold Vol.takeIndex
  exact (modest_modPort _ _ _).after (.ite (.refl w) (modest_modCounts _ _ _))

theorem modest_missFrame (p : Nat) : Modest w (w.missFrame p) := by
  unfold Vol.missFrame
  exact (modest_modPort _ _ _).after ((modest_abandon _ p).after (modest_modCounts _ _ _))

theorem modest_takeByte (p : Nat) (valid : Bool) (byte : Byte) : Modest w (w.takeByte p valid byte).2 := by
  unfold Vol.takeByte
  dsimp only
  split
  · exact ⟨id, rfl⟩
  · exact ⟨id, rfl⟩
  · exact ⟨id, rfl⟩

theorem modest_pushLanes (f : LaneFrame) : Modest w (w.pushLanes f) := .ite ⟨id, rfl⟩ ⟨id, rfl⟩

theorem modest_giveLanes : Modest w w.giveLanes := .ite ⟨id, rfl⟩ ⟨id, rfl⟩

theorem modest_takeSlots (f : UpFrame) : Modest w (w.takeSlots f).2 := by
  unfold Vol.takeSlots
  split
  · exact .refl w
  · exact ⟨id, rfl⟩

theorem modest_missUp : Modest w w.missUp := .trans (modest_missFrame w 0) (modest_pushLanes _ _)

theorem modest_receiveUp (f : UpFrame) : Modest w (w.receiveUp f).2 := by
  have arrived := modest_arrive w 0 f.sync f.index.toNat
  unfold Vol.receiveUp
  generalize w.arrive 0 f.sync f.index.toNat = a at arrived
  obtain ⟨arrival, v⟩ := a
  cases arrival with
  | ignored => exact arrived
  | missing => exact arrived.trans (modest_missUp v)
  | taken =>
    have headed := arrived.trans
      (modest_takeHeader v 0 (headBits f.index.toNat f.valid f.spare ++ presenceBits f.presence) f.headerCheck)
    dsimp only
    generalize v.takeHeader 0 (headBits f.index.toNat f.valid f.spare ++ presenceBits f.presence) f.headerCheck = b at headed
    obtain ⟨header, u⟩ := b
    cases header with
    | none => exact headed.trans (modest_missUp u)
    | some bits =>
      have sliced := (headed.trans (modest_takeIndex u 0 (readIndexBits bits))).trans (modest_takeSlots _ f)
      dsimp only
      generalize (u.takeIndex 0 (readIndexBits bits)).takeSlots f = c at sliced
      obtain ⟨slots, x⟩ := c
      exact (modest_takeByte _ _ _ _).after ((modest_pushLanes _ _).after ((modest_modPort _ _ _).after sliced))

theorem modest_receiveNode (p : Nat) (f : NodeFrame) : Modest w (w.receiveNode p f).2 := by
  have arrived := modest_arrive w p f.sync f.index.toNat
  unfold Vol.receiveNode
  generalize w.arrive p f.sync f.index.toNat = a at arrived
  obtain ⟨arrival, v⟩ := a
  cases arrival with
  | ignored => exact arrived
  | missing => exact arrived.trans (modest_missFrame v p)
  | taken =>
    have headed := arrived.trans (modest_takeHeader v p (headBits f.index.toNat f.valid f.spare) f.headerCheck)
    dsimp only
    generalize v.takeHeader p (headBits f.index.toNat f.valid f.spare) f.headerCheck = b at headed
    obtain ⟨header, u⟩ := b
    cases header with
    | none => exact headed.trans (modest_missFrame u p)
    | some bits =>
      have indexed := headed.trans (modest_takeIndex u p (readIndexBits bits))
      have checked : ∀ (v : Vol) (c : Prop) [Decidable c] (f : PortCounts → PortCounts),
          Modest v (if c then v else v.modCounts p f) := fun v c _ f => .ite (.refl v) (modest_modCounts v p f)
      exact (modest_takeByte _ _ _ _).after ((checked _ _ _).after indexed)

end

/-! ### A frame of the frame clock (R169) -/

theorem steady_beforeFrame (s : State) (v : ReadVerdict) : Steady s (beforeFrame s v) := by
  have ended : ∀ (a b : State) (c : Bool), Steady a b → Steady a (if c then b.finish else a) := by
    intro a b c h
    cases c
    · exact .refl a
    · exact h.trans (steady_finish b)
  have worked : ∀ a : State, Steady a { a with vol := a.vol.endSending.startSending.storeTick a.nv } := fun a =>
    ⟨rfl, rfl, ((modest_endSending _).trans (modest_startSending _)).trans ⟨id, rfl⟩⟩
  have read := ended s (completeRead s v) s.vol.readDue (steady_completeRead s v)
  unfold beforeFrame
  generalize (if s.vol.readDue then (completeRead s v).finish else s) = a at read
  have overdue := ended a (endOverdue a) a.vol.store.op.overdue (steady_endOverdue a)
  dsimp only
  generalize (if a.vol.store.op.overdue then (endOverdue a).finish else a) = b at overdue
  exact (read.trans overdue).trans (worked b)

theorem modest_sendFrames (w : Vol) (mixed : List Int) : Modest w (w.sendFrames mixed) := by
  have popped : Modest w w.popByte.2.2 := by
    unfold Vol.popByte
    split
    · split
      · exact ⟨id, rfl⟩
      · exact .refl w
    · exact .refl w
  unfold Vol.sendFrames
  generalize w.popByte = made at popped
  obtain ⟨valid, byte, v⟩ := made
  exact popped.trans ⟨id, rfl⟩

theorem modest_produce (w : Vol) (nv : Nonvolatile) : Modest w (w.produce nv) := by
  have voiced : Modest w (w.voiceFrames nv).2 := by
    rw [Mixer.voiceFrames_alone w nv]
    exact ⟨id, rfl⟩
  unfold Vol.produce
  generalize w.voiceFrames nv = made at voiced
  obtain ⟨samples, v⟩ := made
  exact voiced.trans (modest_sendFrames v _)

/-- The samples of a frame are produced after its mark, at its own count (R162, R169). -/
theorem atSamples_bounds (w : Vol) (nv : Nonvolatile) (levels : BitVec 16) :
    (w.engine.notices.length ≤ 24 → (w.atSamples nv levels).engine.notices.length ≤ 24)
      ∧ (w.atSamples nv levels).fclk.count < 48 := by
  have mark : Modest w (if w.atMark then w.blockMark nv levels else w) := .ite (modest_blockMark _ _ _) (.refl _)
  refine ⟨mark.notices, ?_⟩
  show w.nextCount < 48
  unfold Vol.nextCount
  split
  · decide
  · exact Nat.mod_lt _ (by decide)

/-- A frame counts to the index of the next (R169); its notices stay within the queue's bound. -/
theorem frameBody_bounds (w : Vol) (nv : Nonvolatile) (levels : BitVec 16) :
    (w.engine.notices.length ≤ 24 → (frameBody nv levels w).engine.notices.length ≤ 24)
      ∧ (frameBody nv levels w).fclk.count < 48 := by
  have given := modest_giveLanes w
  unfold frameBody
  generalize w.giveLanes = v at given
  obtain ⟨notices, count⟩ := atSamples_bounds v nv levels
  generalize v.atSamples nv levels = u at notices count
  have after := (modest_produce u nv).trans (modest_finish _ nv)
  exact ⟨fun hbound => after.notices (notices (given.notices hbound)), lt_of_eq_of_lt after.count count⟩

theorem takeFrame_vol (x : FrameInput) {s : State} (hr : s.running = true) :
    (takeFrame x s).vol = frameBody (beforeFrame s x.verdict).nv x.levels (beforeFrame s x.verdict).vol := by
  rw [takeFrame_body x s hr]

theorem takeFrame_bounds (x : FrameInput) {s : State} (hr : s.running = true) :
    (s.vol.engine.notices.length ≤ 24 → (takeFrame x s).vol.engine.notices.length ≤ 24)
      ∧ (takeFrame x s).vol.fclk.count < 48 := by
  have due := (steady_beforeFrame s x.verdict).vol.notices
  obtain ⟨notices, count⟩ := frameBody_bounds (beforeFrame s x.verdict).vol (beforeFrame s x.verdict).nv x.levels
  rw [takeFrame_vol x hr]
  exact ⟨fun hbound => notices (due hbound), count⟩

/-! ### What the commands run -/

/-- A command's state `t` after `s`, by what the command runs: the events of power and reset, the frame, a part of a block mark,
an event that is due, an arriving frame or message, and a request. -/
inductive Ran (s : State) : State → Prop
  | powerOn : Ran s (applyPower s)
  | powerLoss : Ran s (losePower s)
  | lineReset : Ran s (assertReset s)
  | release (cl0High : Bool) : Ran s (lineReleased s cl0High)
  | programmed (cl0High : Bool) : Ran s (programWriteDone s cl0High)
  | frame (x : FrameInput) : Ran s (takeFrame x s)
  | nothing : Ran s s
  | mark {m : MarkPart} {due : Vol → Bool} {act : Nonvolatile → Vol → Vol} (h : ∀ nv w, Modest w (act nv w)) :
      Ran s (takeMark m due act s)
  | event {due : State → Bool} {act : State → State} (h : Steady s (act s)) : Ran s (takeEvent due act s)
  | upFrame (f : UpFrame) : Ran s (whenRunning s (takeUpFrame f))
  | nodeFrame (p : Nat) (f : NodeFrame) : Ran s (whenRunning s (takeNodeFrame p f))
  | discard (m : MessageHeader) : Ran s (whenRunning s (discardMessage m))
  | report (p : Nat) (r : ReportMessage) : Ran s (whenRunning s (takeReport p r))
  | request {h : RequestHeader} {kind : Nat} {shaped : Bool} {act : Act} (ha : OwnerAct act) :
      Ran s (takeRequest h kind shaped act s)

/-- An event of the volatile part that is due. -/
theorem Ran.volEvent {s : State} {due : State → Bool} {act : Nonvolatile → Vol → Vol} (h : ∀ nv w, Modest w (act nv w)) :
    Ran s (takeEvent due (fun s => s.onVol act) s) := .event ⟨rfl, rfl, h _ _⟩

/-- Every command answers a next state, by what it runs. -/
theorem exec_ran (i : Instr) (s : State) : ∃ t, exec i s = .next t ∧ Ran s t := by
  cases hi : i.request with
  | some r =>
    obtain ⟨act, owner, he⟩ := exec_request hi
    exact ⟨_, he s, .request owner⟩
  | none =>
    cases i with
    | powerOn => exact ⟨_, rfl, .powerOn⟩
    | powerLoss => exact ⟨_, rfl, .powerLoss⟩
    | lineReset => exact ⟨_, rfl, .lineReset⟩
    | resetRelease b => exact ⟨_, rfl, .release b⟩
    | programWriteComplete b => exact ⟨_, rfl, .programmed b⟩
    | frameClockFrame x => exact ⟨_, rfl, .frame x⟩
    | scanComplete => exact ⟨_, rfl, .event (steady_endScan s)⟩
    | programmingComplete => exact ⟨_, rfl, .event (steady_endProgramming s)⟩
    | eraseComplete => exact ⟨_, rfl, .event (steady_endErase s)⟩
    | verifyComplete v | pageReadComplete v => exact ⟨_, rfl, .event (steady_completeRead s v)⟩
    | generatorPeriodEnd => exact ⟨_, rfl, .mark fun _ _ => ⟨id, rfl⟩⟩
    | contactEdge l =>
      show ∃ t, execContactEdge l s = .next t ∧ Ran s t
      unfold execContactEdge
      split
      · exact ⟨_, rfl, .mark fun _ _ => modest_of_around (sampleLine_around _ _ _ _)⟩
      · exact ⟨s, rfl, .nothing⟩
    | lineSettle => exact ⟨_, rfl, .mark fun _ _ => modest_of_around (sampleLine_around _ _ _ _)⟩
    | secondAdvance => exact ⟨_, rfl, .mark fun nv w => modest_advanceSecond w nv⟩
    | voiceStart v => exact ⟨_, rfl, .mark fun _ w => modest_startVoice w v⟩
    | voiceResume => exact ⟨_, rfl, .mark fun _ _ => ⟨id, rfl⟩⟩
    | voiceEnd v => exact ⟨_, rfl, .mark fun nv w => modest_takeEnd w nv v⟩
    | voiceCancelStop v => exact ⟨_, rfl, .mark fun nv w => modest_stopCancelled w nv v⟩
    | evacListChange => exact ⟨_, rfl, .mark fun _ _ => modest_of_within (takeList_within _ _ _)⟩
    | zoneSilenceExpiry => exact ⟨_, rfl, .mark fun _ _ => modest_zoneEvent _ _ _ _⟩
    | talkLimit => exact ⟨_, rfl, .mark fun _ _ => modest_of_around (talkMark_around _ _)⟩
    | laneAbsent => exact ⟨_, rfl, .mark fun _ _ => modest_of_around (absenceMark_around _ _ _)⟩
    | alertTimerExpiry => exact ⟨_, rfl, .mark fun _ _ => modest_of_around (alertMark_around _ _)⟩
    | dueEntryTaken =>
      refine ⟨_, rfl, .event ?_⟩
      unfold State.takeHeadDue
      split
      · exact ⟨rfl, rfl, modest_of_around (takeDue_around _ _ _)⟩
      · exact .refl s
    | requestReady =>
      exact ⟨_, rfl, .volEvent fun _ _ => modest_of_within ((modRequest_within _ _ _).trans (handOut_within _ _))⟩
    | requestExpired =>
      exact ⟨_, rfl, .volEvent fun _ _ => modest_of_within ((removeRequest_within _ _ _).trans (handOut_within _ _))⟩
    | portActivity p => exact ⟨_, rfl, .volEvent fun _ w => modest_lineActive w p⟩
    | portActivityLost p => exact ⟨_, rfl, .volEvent fun _ w => modest_lineQuiet w p⟩
    | syncFound p index => exact ⟨_, rfl, .volEvent fun _ w => modest_syncSeen w p _⟩
    | outboundMessageStart => exact ⟨_, rfl, .volEvent fun _ w => modest_startSending w⟩
    | messageSendComplete => exact ⟨_, rfl, .volEvent fun _ w => modest_endSending w⟩
    | upstreamFrame f => exact ⟨_, rfl, .upFrame f⟩
    | nodeReturnFrame p f => exact ⟨_, rfl, .nodeFrame p f⟩
    | upMessageDiscarded m => exact ⟨_, rfl, .discard m⟩
    | zoneReport p r => exact ⟨_, rfl, .report p r⟩
    | _ => cases hi

/-! ### Events, requests and messages -/

theorem steady_whenRunning {s : State} {f : State → State} (h : Steady s (f s)) : Steady s (whenRunning s f) := by
  unfold whenRunning
  split
  · exact h
  · exact .refl s

theorem steady_takeMark {m : MarkPart} {due : Vol → Bool} {act : Nonvolatile → Vol → Vol}
    (h : ∀ nv w, Modest w (act nv w)) (s : State) : Steady s (takeMark m due act s) := by
  refine steady_whenRunning ?_
  split
  · exact ⟨rfl, rfl, (modest_finish _ _).after ((h s.nv s.vol).trans ⟨id, rfl⟩)⟩
  · exact .refl s

theorem steady_takeEvent {due : State → Bool} {act : State → State} {s : State} (h : Steady s (act s)) :
    Steady s (takeEvent due act s) := by
  refine steady_whenRunning ?_
  split
  · exact h.trans (steady_finish _)
  · exact .refl s

/-- The tests before the owner's act change nothing, or count a discard; the reply and the end of the event follow (R175). -/
theorem steady_takeRequest {act : Act} (ha : OwnerAct act) (h : RequestHeader) (kind : Nat) (shaped : Bool) (s : State) :
    Steady s (takeRequest h kind shaped act s) := by
  have answered : Steady s (answerRequest kind shaped act s).2 :=
    .ite (.refl s) (.ite (.refl s) (.ite (.refl s) (ha.steady s)))
  have ended : ∀ (place : Nat) (r : Answer × State), Steady r.2 (endRequest h kind place r) := fun place r =>
    Steady.trans (b := r.2.replied h kind place r.1.code r.1.body) ⟨rfl, rfl, id, rfl⟩ (steady_finish _)
  refine steady_whenRunning ?_
  split
  · exact ⟨rfl, rfl, id, rfl⟩
  · split
    · exact ⟨rfl, rfl, id, rfl⟩
    · exact answered.trans (ended _ _)

theorem steady_takeReport (p : Nat) (r : ReportMessage) (s : State) : Steady s (takeReport p r s) := by
  unfold takeReport
  split
  · exact ⟨rfl, rfl, id, rfl⟩
  · exact ⟨rfl, rfl, (modest_zoneEvent _ _ _ _).trans (modest_finish _ _)⟩

/-- An event of the volatile part. -/
theorem steady_volEvent {s : State} {w : Vol} (h : Modest s.vol w) : Steady s (State.finish { s with vol := w }) :=
  ⟨rfl, rfl, h.trans (modest_finish _ _)⟩

theorem steady_takeUpFrame (f : UpFrame) (s : State) : Steady s (takeUpFrame f s) := by
  have received := steady_volEvent (modest_receiveUp s.vol f)
  unfold takeUpFrame
  dsimp only
  split
  next bs _ =>
    refine received.trans ?_
    obtain discarded | ⟨h, kind, shaped, act, owner, taken⟩ :=
      takeMessage_cases bs (State.finish { s with vol := (s.vol.receiveUp f).2 })
    · rw [discarded]
      exact ⟨rfl, rfl, id, rfl⟩
    · rw [taken]
      exact steady_takeRequest owner _ _ _ _
  · exact received

theorem steady_takeNodeFrame (p : Nat) (f : NodeFrame) (s : State) : Steady s (takeNodeFrame p f s) := by
  have received := steady_volEvent (modest_receiveNode s.vol (p + 1) f)
  unfold takeNodeFrame
  dsimp only
  split
  · exact received.trans (steady_takeReport _ _ _)
  · exact received

theorem steady_discardMessage (m : MessageHeader) (s : State) : Steady s (discardMessage m s) := by
  unfold discardMessage
  split
  · exact ⟨rfl, rfl, id, rfl⟩
  · split
    · exact ⟨rfl, rfl, id, rfl⟩
    · split
      · exact ⟨rfl, rfl, id, rfl⟩
      · exact .refl s

/-! ### The commands of power and reset -/

/-- What all commands keep: the queue of commands, the bound of the notice queue and that of the frame count. -/
structure Bounded (s t : State) : Prop where
  pending : t.pending = s.pending
  notices : s.vol.engine.notices.length ≤ 24 → t.vol.engine.notices.length ≤ 24
  count : s.vol.fclk.count < 48 → t.vol.fclk.count < 48

theorem Steady.bounded {s t : State} (h : Steady s t) : Bounded s t :=
  ⟨h.pending, h.vol.notices, fun hc => lt_of_eq_of_lt h.vol.count hc⟩

theorem Bounded.refl (s : State) : Bounded s s := ⟨rfl, id, id⟩

/-- Power on, power off and the reset line give empty queues and a frame count of 0. -/
theorem bounded_of_initial {s t : State} (hp : t.pending = s.pending) (hn : t.vol.engine.notices = [])
    (hc : t.vol.fclk.count = 0) : Bounded s t := by
  refine ⟨hp, fun _ => ?_, fun _ => ?_⟩
  · simp [hn]
  · simp [hc]

theorem bounded_assertReset (s : State) : Bounded s (assertReset s) := by
  unfold assertReset
  split
  · exact .refl s
  · exact bounded_of_initial rfl rfl rfl

/-- The release of reset loads the resident programme and sets mode and store (R134 to R137). -/
theorem bounded_lineReleased (s : State) (b : Bool) : Bounded s (lineReleased s b) := by
  unfold lineReleased
  split
  · split
    · exact ⟨rfl, id, id⟩
    · exact ⟨rfl, id, id⟩
  · exact .refl s

theorem bounded_programWriteDone (s : State) (b : Bool) : Bounded s (programWriteDone s b) := by
  have written := steady_endProgramWrite s
  unfold programWriteDone
  split
  · split
    · split
      · exact (written.trans (steady_finish _)).bounded
      · exact .refl s
    · exact written.bounded
    · exact ⟨written.bounded.pending, written.bounded.notices, written.bounded.count⟩
    · exact .refl s
  · exact .refl s

theorem bounded_takeFrame (x : FrameInput) (s : State) : Bounded s (takeFrame x s) := by
  by_cases hr : s.running = true
  · obtain ⟨notices, count⟩ := takeFrame_bounds x hr
    obtain ⟨-, -, pending, -⟩ := takeFrame_keeps x s hr
    exact ⟨pending, notices, fun _ => count⟩
  · rw [takeFrame, whenRunning, if_neg hr]
    exact .refl s

/-- Every command keeps the queue of commands and the two bounds. -/
theorem Ran.bounded {s t : State} (h : Ran s t) : Bounded s t := by
  cases h with
  | powerOn | powerLoss => exact bounded_of_initial rfl rfl rfl
  | lineReset => exact bounded_assertReset s
  | release b => exact bounded_lineReleased s b
  | programmed b => exact bounded_programWriteDone s b
  | frame x => exact bounded_takeFrame x s
  | nothing => exact .refl s
  | mark hact => exact (steady_takeMark hact s).bounded
  | event hact => exact (steady_takeEvent hact).bounded
  | upFrame f => exact (steady_whenRunning (steady_takeUpFrame f s)).bounded
  | nodeFrame p f => exact (steady_whenRunning (steady_takeNodeFrame p f s)).bounded
  | discard m => exact (steady_whenRunning (steady_discardMessage m s)).bounded
  | report p r => exact (steady_whenRunning (steady_takeReport p r s)).bounded
  | request owner => exact (steady_takeRequest owner _ _ _ s).bounded

/-! ### The statements -/

/-- Settles O2: by what each command runs. -/
theorem commandsGoOn : Obligations.CommandsGoOn := by
  intro i s
  obtain ⟨t, ht, ran⟩ := exec_ran i s
  exact ⟨t, ht, ran.bounded.pending⟩

/-- A step idles, or runs the command at the front on the state with the rest of the queue. -/
theorem step_ran {s t : State} (h : step s = .next t) : t = s ∨ ∃ rest, Ran { s with pending := rest } t := by
  unfold step at h
  split at h
  · exact .inl (Host.Outcome.next.inj h).symm
  next c rest _ =>
    obtain ⟨u, hu, ran⟩ := exec_ran c { s with pending := rest }
    obtain rfl := Host.Outcome.next.inj (hu.symm.trans h)
    exact .inr ⟨rest, ran⟩

theorem noticeQueueBounded : NoticeQueueBounded := by
  intro s t hbound hstep
  obtain rfl | ⟨rest, ran⟩ := step_ran hstep
  · exact hbound
  · exact ran.bounded.notices hbound

theorem frameCountBounded : FrameCountBounded := by
  intro s t hbound hstep
  obtain rfl | ⟨rest, ran⟩ := step_ran hstep
  · exact hbound
  · exact ran.bounded.count hbound

/-- Settles O10: both bounds by what each command runs. -/
theorem countsBounded : Obligations.CountsBounded := ⟨noticeQueueBounded, frameCountBounded⟩

/-- Settles O9. -/
theorem storeFormAtReset : Obligations.StoreFormAtReset := ⟨rfl, Nat.zero_le _⟩

end Sys2Proof.Commands
end

section
/-! PROOFS. The taking of requests (R175 to R177): the messages that tests 1 to 3 discard, the refusals of tests 4 to 6, HELLO and
ADDRESS (R176, R180). -/

namespace Sys2Proof.Engine

open Sys2Proof.Machine Sys2Proof.Laws Sys2Proof.Statements
open Sys2Proof.Commands (exec_request)
open Sys2Proof.Live (answers_of_act)

/-! ### Tests 1 to 3 (R175, R177) -/

theorem addressed_iff (w : Vol) (d : Nat) : w.addressed d = true ↔ d = 255 ∨ d = w.engine.address := by
  simp [Vol.addressed]

theorem not_addressed {w : Vol} {d : Nat} (h : d ≠ 255) (k : d ≠ w.engine.address) : w.addressed d = false := by
  simp [Vol.addressed, h, k]

theorem freePlace_eq_none {w : Vol} (h : ∀ p < 8, (tget none w.engine.places p).isSome = true) : w.freePlace = none := by
  simpa [Vol.freePlace, ← Option.isSome_iff_ne_none] using h

theorem requestsDiscarded : RequestsDiscarded := by
  intro i h kind s hi hr
  obtain ⟨act, -, he⟩ := exec_request hi
  refine ⟨fun hbroadcast hother => ?_, fun hhere hfull => ?_⟩
  · rw [he, takeRequest_unaddressed _ _ _ _ _ hr (not_addressed hbroadcast hother)]
    rfl
  · rw [he, takeRequest_placeless _ _ _ _ _ hr ((addressed_iff _ _).mpr hhere) (freePlace_eq_none hfull)]
    rfl

theorem exec_upMessageDiscarded {s : State} (hr : s.running = true) (m : MessageHeader) :
    exec (.upMessageDiscarded m) s = .next (discardMessage m s) := by
  have : exec (.upMessageDiscarded m) s = .next (whenRunning s (discardMessage m)) := rfl
  simp [this, whenRunning, hr]

theorem upMessageDiscarded : UpMessageDiscarded := by
  intro m s hr
  rw [exec_upMessageDiscarded hr]
  refine ⟨fun hcls => ?_, fun hcls hbroadcast hother => ?_, fun hcls hhere hfull => ?_⟩
  · rw [discardMessage, if_pos hcls]
    rfl
  · rw [discardMessage, if_neg (not_not_intro hcls), if_pos (by simp [not_addressed hbroadcast hother])]
    rfl
  · rw [discardMessage, if_neg (not_not_intro hcls), if_neg (by simp [(addressed_iff _ _).mpr hhere]),
      if_pos (by simp [freePlace_eq_none hfull])]
    rfl

/-- Settles O13. -/
theorem messagesDiscarded : Obligations.MessagesDiscarded := ⟨requestsDiscarded, upMessageDiscarded⟩

/-! ### Tests 4 to 6 (R175, R176) -/

/-- A request that has its reply place is answered as the tests 4 to 6 and its owner say. -/
theorem answers_of_served {i : Instr} {h : RequestHeader} {kind place : Nat} {shaped : Bool} {act : Act} {s s' : State}
    {a : Answer} (he : exec i s = .next (takeRequest h kind shaped act s)) (hs : s.Serves h place)
    (ha : answerRequest kind shaped act s = (a, s')) : Answers i s s' h kind place a.code a.body := by
  refine ⟨_, he, ?_⟩
  rw [takeRequest_served hs, ha]
  exact finish_ends _

theorem answerRequest_unassigned {kind : Nat} (shaped : Bool) (act : Act) (s : State) (hk : kind < 1 ∨ 32 < kind) :
    answerRequest kind shaped act s = refuse .badArg s := by
  have houtside : within 1 32 kind = false := by
    rw [← Bool.not_eq_true, within_iff]
    omega
  simp [answerRequest, houtside]

theorem answerRequest_notReady {kind : Nat} (shaped : Bool) (act : Act) {s : State} (hk : 3 ≤ kind ∧ kind ≤ 32)
    (ha : s.vol.engine.address = 0) : answerRequest kind shaped act s = refuse .notReady s := by
  have hwithin : within 1 32 kind = true := (within_iff _ _ _).mpr (by omega)
  rw [answerRequest, if_neg (by simp [hwithin]), if_pos (by omega)]

theorem answerRequest_malformed {kind : Nat} (act : Act) {s : State} (ha : s.vol.engine.address ≠ 0 ∨ kind = 1 ∨ kind = 2) :
    answerRequest kind false act s = refuse .badArg s := by
  unfold answerRequest
  split
  · rfl
  · rw [if_neg (by omega)]
    rfl

theorem requestsNotReady : RequestsNotReady := by
  intro i h kind s place hi hs haddress hlow hhigh
  obtain ⟨act, -, he⟩ := exec_request hi
  exact answers_of_served (he s) hs (answerRequest_notReady _ act ⟨hlow, hhigh⟩ haddress)

theorem requestsMalformed : RequestsMalformed := by
  refine ⟨fun i h kind s place hi hs haddress hwf => ?_, fun h kind s place hs hkind => ?_⟩
  · obtain ⟨act, -, he⟩ := exec_request hi
    refine answers_of_served (a := .of .badArg) (he s) hs ?_
    rw [hwf]
    exact answerRequest_malformed act haddress
  · obtain ⟨act, -, he⟩ := exec_request (i := .requestUnknownKind h kind) rfl
    exact answers_of_served (he s) hs (answerRequest_unassigned _ act s hkind)

/-- Settles O12. -/
theorem requestsRefused : Obligations.RequestsRefused := ⟨requestsNotReady, requestsMalformed⟩

/-! ### HELLO (R180) -/

theorem exec_hello (h : RequestHeader) (s : State) :
    exec (.hello h) s = .next (takeRequest h 1 (Instr.wf (.hello h)) actHello s) := rfl

/-- The end of an event leaves the reset cause. -/
theorem cause_of_answers {i : Instr} {s s' : State} {h : RequestHeader} {kind place : Nat} {code : ResultCode}
    {body : ReplyBody} (ha : Answers i s s' h kind place code body) :
    ∃ t, exec i s = .next t ∧ t.vol.engine.cause = s'.vol.engine.cause := by
  obtain ⟨t, ht, ends⟩ := ha
  exact ⟨t, ht, (congrArg (fun w : Vol => w.engine.cause) ends.vol.fixed :)⟩

/-- Settles O16. -/
theorem helloAnswer : Obligations.HelloAnswer := by
  refine ⟨fun h s place hs hwf => ?_, fun address mode valid cause => rfl, fun s => ⟨_, rfl, rfl⟩, fun s hpower => ?_,
    fun h s place hs hnormal => ?_, fun h s place hs hnormal hidle => ?_⟩
  · have hshaped : Instr.wf (.hello h) = true := hwf
    refine answers_of_served (a := (actHello s).1) (exec_hello h s) hs ?_
    rw [hshaped]
    exact answerRequest_ready (by decide) (.inr (.inl rfl))
  · refine ⟨_, Zones.exec_lineReset s, ?_⟩
    rw [Zones.assertReset_on hpower]
    rfl
  · exact cause_of_answers
      (answers_of_act (Phrases.exec_resetAudio h s) hs (by decide) (Phrases.actResetAudio_normal hnormal))
  · exact cause_of_answers
      (answers_of_act (Phrases.exec_resetFull h s) hs (by decide) (Phrases.actResetFull_normal hnormal hidle))

/-! ### ADDRESS (R176) -/

theorem exec_address (h : RequestHeader) (a : Nat) (s : State) :
    exec (.address h a) s = .next (takeRequest h 2 (Instr.wf (.address h a)) (actAddress a) s) := rfl

/-- ADDRESS that is well-formed is answered by its owner, whatever the node address. -/
theorem address_answered {h : RequestHeader} {a : Nat} {s s' : State} {place : Nat} {answer : Answer} (hs : s.Serves h place)
    (hwf : (Instr.address h a).wf = true) (ha : actAddress a s = (answer, s')) :
    Answers (.address h a) s s' h 2 place answer.code answer.body := by
  refine answers_of_served (exec_address h a s) hs ?_
  rw [hwf, answerRequest_ready (by decide) (.inr (.inr rfl)), ha]

/-- Settles O17. -/
theorem addressTaken : Obligations.AddressTaken := by
  intro h a s place hs hwf
  refine ⟨fun hbad => ?_, fun hlow hhigh hset => ?_, fun hlow hhigh hunset => ?_⟩
  · have houtside : within 1 254 a = false := by
      rw [← Bool.not_eq_true, within_iff]
      omega
    exact address_answered hs hwf (answer := .of .badArg) (by simp [actAddress, houtside, refuse])
  all_goals have hinside : within 1 254 a = true := (within_iff _ _ _).mpr ⟨hlow, hhigh⟩
  · exact address_answered hs hwf (answer := .of .alreadySet) (by simp [actAddress, hinside, hset, refuse])
  · exact address_answered hs hwf (answer := .of .ok) (by simp [actAddress, hinside, hunset, okVol, Vol.modEngine])

end Sys2Proof.Engine
end

section
/-! PROOFS. The alert (11.7, R182, R184): its mask, its conditions, what the end of an event makes of it, and that every step keeps
it exact. -/

namespace Sys2Proof.Alert

open Sys2Proof.Machine Sys2Proof.Laws Sys2Proof.Statements Sys2Proof.Commands
open Sys2Proof.Live (declines_of_act answers_of_act)

/-! ### ALERT MASK (R182) -/

theorem exec_alertMask (h : RequestHeader) (cs : List Nat) (s : State) : exec (.alertMask h cs) s
    = .next (takeRequest h 5 (Instr.wf (.alertMask h cs)) (actAlertMask cs) s) := rfl

theorem alertMask_passes_iff (cs : List Nat) :
    (cs.all (fun c => decide (c < 6)) = true ∧ distinct cs = true) ↔ (∀ c ∈ cs, c < 6) ∧ cs.Nodup := by
  simp [Zones.distinct_iff]

theorem lt_six_of_alertCondOf {n : Nat} {c : AlertCond} (h : alertCondOf n = some c) : n < 6 := by
  by_contra hn
  match n, hn with
  | _ + 6, _ => cases h

/-- The mask holds the conditions that the list names. -/
theorem mem_listedMask (cs : List Nat) (c : AlertCond) :
    c ∈ ((List.range 6).filterMap fun i => if cs.contains i then alertCondOf i else none)
      ↔ ∃ n ∈ cs, alertCondOf n = some c := by
  simp only [List.mem_filterMap, List.mem_range, List.contains_eq_mem, decide_eq_true_eq, Option.ite_none_right_eq_some]
  constructor
  · rintro ⟨n, -, hn, hc⟩
    exact ⟨n, hn, hc⟩
  · rintro ⟨n, hn, hc⟩
    exact ⟨n, lt_six_of_alertCondOf hc, hn, hc⟩

theorem alertMaskSet : AlertMaskSet := by
  intro h cs s place hs
  have passes := alertMask_passes_iff cs
  refine ⟨fun hbad => ?_, fun hrange hnodup => ?_⟩
  · refine declines_of_act (exec_alertMask h cs s) hs (by decide) (if_neg fun hpass => ?_)
    obtain ⟨hrange, hnodup⟩ := passes.mp hpass
    obtain ⟨c, hc, hout⟩ | hrepeated := hbad
    · exact absurd (hrange c hc) (by omega)
    · exact hrepeated hnodup
  · exact ⟨_, answers_of_act (exec_alertMask h cs s) hs (by decide) (if_pos (passes.mpr ⟨hrange, hnodup⟩)), mem_listedMask cs⟩

/-! ### The six conditions (R182) -/

/-- A question of some entry of a table is a question of what some index reads. -/
theorem any_toList_iff {α : Type} (d : α) {n : Nat} (t : Vector α n) (f : α → Bool) :
    t.toList.any f = true ↔ ∃ k < n, f (tget d t k) = true := by
  simp [Tables.toList_eq_map_range d]

theorem alertConditions : AlertConditions := by
  intro w nv
  refine ⟨?_, ?_, ?_, Iff.rfl, ?_, ?_⟩
  · refine (any_toList_iff .initial w.zones _).trans ?_
    simp only [decide_eq_true_eq]
    rfl
  · refine (any_toList_iff .initial w.ports _).trans ?_
    simp only [decide_eq_true_eq]
    rfl
  · simp [Vol.condHolds, Nonvolatile.anyDirty]
  · simp [Vol.condHolds]
  · refine (any_toList_iff .initial w.platforms _).trans ⟨fun ⟨k, hk, hc⟩ => ⟨k + 1, ?_⟩, fun ⟨p, hlow, hhigh, hc⟩ => ?_⟩
    · exact ⟨Nat.succ_pos k, hk, hc⟩
    · exact ⟨p - 1, by omega, hc⟩

/-! ### The end of an event (R182) -/

/-- The notice of a change enters the queue behind those that wait. -/
theorem notices_of_change (w : Vol) (b : Bool) (n : Notice) (hroom : w.engine.notices.length < 24) :
    ((w.modEngine fun e => { e with raised := b }).notify n).engine.notices
      = w.engine.notices ++ [(w.engine.address, n)] :=
  Store.notify_notices (w := w.modEngine fun e => { e with raised := b }) n hroom

theorem alertFollowsItsMask : AlertFollowsItsMask := by
  intro w nv
  have raised : (w.evalAlert nv).engine.raised = true ↔ ∃ c ∈ w.engine.mask, w.condHolds nv c = true := by
    rw [raised_evalAlert_iff]
    simp [List.eq_nil_iff_forall_not_mem, ← mem_heldConds]
  refine ⟨raised, ?_⟩
  unfold Vol.evalAlert
  dsimp only
  split
  next =>
    split
    next hhigh =>
      refine ⟨fun hsame => absurd hsame (by simp [Vol.modEngine, hhigh]), fun _ hroom => ?_⟩
      exact notices_of_change w false _ hroom
    next => exact ⟨fun _ => rfl, fun hchanged => absurd rfl hchanged⟩
  next =>
    split
    next => exact ⟨fun _ => rfl, fun hchanged => absurd rfl hchanged⟩
    next hlow =>
      refine ⟨fun hsame => absurd hsame (by simp [Vol.modEngine, hlow]), fun _ hroom => ?_⟩
      exact notices_of_change w true _ hroom

/-! ### Every step keeps the alert exact (R182, R184) -/

/-- The state's own alert is exact. -/
def ToldState (s : State) : Prop := Told s.nv s.vol

theorem told_state_finish (s : State) : ToldState s.finish := told_finish s.vol s.nv

theorem ToldState.stands {s : State} {w : Vol} (h : ToldState s) (k : Stands s.vol w) : ToldState { s with vol := w } :=
  Told.stands h k

/-- Without a mask a cleared alert is exact. -/
theorem told_of_unmasked {nv : Nonvolatile} {w : Vol} (hm : w.engine.mask = []) (hr : w.engine.raised = false) :
    Told nv w := by
  simp [Told, hm, hr]

section

variable {s : State}

theorem ToldState.whenRunning {f : State → State} (h : ToldState s) (hf : ToldState (f s)) : ToldState (whenRunning s f) := by
  unfold Machine.whenRunning
  split
  · exact hf
  · exact h

theorem ToldState.takeMark (m : MarkPart) (due : Vol → Bool) (act : Nonvolatile → Vol → Vol) (h : ToldState s) :
    ToldState (takeMark m due act s) := by
  refine h.whenRunning ?_
  split
  · exact told_finish _ s.nv
  · exact h

theorem ToldState.takeEvent (due : State → Bool) (act : State → State) (h : ToldState s) :
    ToldState (takeEvent due act s) := by
  refine h.whenRunning ?_
  split
  · exact told_state_finish (act s)
  · exact h

/-- A request that is discarded is counted; the reply to any other ends an event (R175). -/
theorem ToldState.takeRequest (hd : RequestHeader) (kind : Nat) (shaped : Bool) (act : Act) (h : ToldState s) :
    ToldState (takeRequest hd kind shaped act s) := by
  refine h.whenRunning ?_
  split
  · exact h.stands ⟨⟨rfl, rfl, rfl, rfl, rfl, rfl, rfl⟩, rfl⟩
  · split
    · exact h.stands ⟨⟨rfl, rfl, rfl, rfl, rfl, rfl, rfl⟩, rfl⟩
    · exact told_state_finish _

theorem ToldState.takeReport (p : Nat) (r : ReportMessage) (h : ToldState s) : ToldState (takeReport p r s) := by
  unfold Machine.takeReport
  split
  · exact h.stands ⟨⟨rfl, rfl, rfl, rfl, rfl, rfl, rfl⟩, rfl⟩
  · exact told_state_finish _

theorem ToldState.discardMessage (m : MessageHeader) (h : ToldState s) : ToldState (discardMessage m s) := by
  unfold Machine.discardMessage
  split
  · exact h.stands ⟨⟨rfl, rfl, rfl, rfl, rfl, rfl, rfl⟩, rfl⟩
  · split
    · exact h.stands ⟨⟨rfl, rfl, rfl, rfl, rfl, rfl, rfl⟩, rfl⟩
    · split
      · exact h.stands ⟨⟨rfl, rfl, rfl, rfl, rfl, rfl, rfl⟩, rfl⟩
      · exact h

theorem ToldState.takeMessage (bs : List Byte) (h : ToldState s) : ToldState (takeMessage bs s) := by
  obtain discarded | ⟨hd, kind, shaped, act, -, taken⟩ := takeMessage_cases bs s
  · rw [discarded]
    exact h.stands ⟨⟨rfl, rfl, rfl, rfl, rfl, rfl, rfl⟩, rfl⟩
  · rw [taken]
    exact h.takeRequest _ _ _ _

theorem told_takeUpFrame (f : UpFrame) (s : State) : ToldState (takeUpFrame f s) := by
  unfold takeUpFrame
  dsimp only
  split
  · exact (told_state_finish _).takeMessage _
  · exact told_state_finish _

theorem told_takeNodeFrame (p : Nat) (f : NodeFrame) (s : State) : ToldState (takeNodeFrame p f s) := by
  unfold takeNodeFrame
  dsimp only
  split
  · exact (told_state_finish _).takeReport _ _
  · exact told_state_finish _

theorem told_frameBody (nv : Nonvolatile) (levels : BitVec 16) (w : Vol) : Told nv (frameBody nv levels w) := by
  unfold frameBody
  generalize (w.giveLanes.atSamples nv levels).produce nv = produced
  exact told_finish produced nv

theorem told_takeFrame (x : FrameInput) (hr : s.running = true) : ToldState (takeFrame x s) := by
  unfold ToldState
  rw [(takeFrame_keeps x s hr).1, takeFrame_vol x hr]
  exact told_frameBody _ _ _

/-- A running part that keeps its power keeps the alert exact where its own alert is. -/
theorem alertExact_of_steady {t : State} (h : AlertExact s) (hp : t.power = s.power)
    (hr : s.running = true → ToldState s → ToldState t) (hrest : s.running = false → t = s) : AlertExact t := by
  obtain ⟨run, rest⟩ := h
  cases hs : s.running with
  | true =>
    have ht : t.running = true := by
      unfold State.running at hs ⊢
      rw [hp]
      exact hs
    exact ⟨fun _ => hr hs (run hs), fun hoff => absurd ht (by simp [hoff])⟩
  | false =>
    rw [hrest hs]
    exact ⟨run, rest⟩

/-- A part that is not running, with the engine's values of power-on. -/
theorem alertExact_of_unmasked (hr : s.vol.engine.raised = false) (hm : s.vol.engine.mask = []) : AlertExact s :=
  ⟨fun _ => told_of_unmasked hm hr, fun _ => ⟨hm, hr⟩⟩

theorem whenRunning_rest {f : State → State} (h : s.running = false) : whenRunning s f = s := by
  simp [Machine.whenRunning, h]

/-- R136: the end of a programme write leaves the mask and the raised state. -/
theorem endProgramWrite_engine (s : State) : (endProgramWrite s).vol.engine.mask = s.vol.engine.mask
    ∧ (endProgramWrite s).vol.engine.raised = s.vol.engine.raised := by
  unfold endProgramWrite
  split
  next _ _ hop =>
    have told := notify_stands (storeProgramme s).vol (.storeDone .programme)
    have stored : (storeProgramme s).vol.engine = s.vol.engine := by simp [storeProgramme, hop, Vol.modStore]
    rw [← stored]
    exact ⟨told.mask, told.raised⟩
  · exact ⟨rfl, rfl⟩

theorem not_running {p : Power} (hp : s.power = p) (h : p ≠ .running) : s.running = false := by
  simp [State.running, hp, h]

theorem alertExact_lineReleased (b : Bool) (h : AlertExact s) : AlertExact (lineReleased s b) := by
  unfold lineReleased
  split
  next hheld =>
    obtain ⟨mask, raised⟩ := h.2 (not_running hheld (by decide))
    split
    · exact alertExact_of_unmasked raised mask
    · exact alertExact_of_unmasked raised mask
  · exact h

theorem alertExact_programWriteDone (b : Bool) (h : AlertExact s) : AlertExact (programWriteDone s b) := by
  obtain ⟨mask, raised⟩ := endProgramWrite_engine s
  have atRest (hr : s.running = false) : (endProgramWrite s).vol.engine.mask = []
      ∧ (endProgramWrite s).vol.engine.raised = false := by
    rw [mask, raised]
    exact h.2 hr
  unfold programWriteDone
  split
  · split
    next hpower =>
      split
      · exact alertExact_of_steady h (steady_endProgramWrite s).power (fun _ _ => told_state_finish _)
          (fun hoff => absurd hoff (by simp [State.running, hpower]))
      · exact h
    next hpower =>
      obtain ⟨m, r⟩ := atRest (not_running hpower (by decide))
      exact alertExact_of_unmasked r m
    next hpower =>
      obtain ⟨m, r⟩ := atRest (not_running hpower (by decide))
      exact alertExact_of_unmasked r m
    · exact h
  · exact h

/-- Every command keeps the alert exact, by what it runs. -/
theorem alertExact_of_ran {t : State} (ran : Ran s t) (h : AlertExact s) : AlertExact t := by
  cases ran with
  | powerOn | powerLoss => exact alertExact_of_unmasked rfl rfl
  | lineReset =>
    unfold assertReset
    split
    · exact h
    · exact alertExact_of_unmasked rfl rfl
  | release b => exact alertExact_lineReleased b h
  | programmed b => exact alertExact_programWriteDone b h
  | frame x =>
    by_cases hr : s.running = true
    · obtain ⟨-, power, -⟩ := takeFrame_keeps x s hr
      exact alertExact_of_steady h power (fun _ _ => told_takeFrame x hr) whenRunning_rest
    · rw [takeFrame, whenRunning_rest (by simpa using hr)]
      exact h
  | nothing => exact h
  | mark hact => exact alertExact_of_steady h (steady_takeMark hact s).power (fun _ told => told.takeMark _ _ _) whenRunning_rest
  | event hact => exact alertExact_of_steady h (steady_takeEvent hact).power (fun _ told => told.takeEvent _ _) whenRunning_rest
  | upFrame f =>
    exact alertExact_of_steady h (steady_whenRunning (steady_takeUpFrame f s)).power
      (fun _ told => told.whenRunning (told_takeUpFrame f s)) whenRunning_rest
  | nodeFrame p f =>
    exact alertExact_of_steady h (steady_whenRunning (steady_takeNodeFrame p f s)).power
      (fun _ told => told.whenRunning (told_takeNodeFrame p f s)) whenRunning_rest
  | discard m =>
    exact alertExact_of_steady h (steady_whenRunning (steady_discardMessage m s)).power
      (fun _ told => told.whenRunning (told.discardMessage m)) whenRunning_rest
  | report p r =>
    exact alertExact_of_steady h (steady_whenRunning (steady_takeReport p r s)).power
      (fun _ told => told.whenRunning (told.takeReport p r)) whenRunning_rest
  | request owner =>
    exact alertExact_of_steady h (steady_takeRequest owner _ _ _ s).power (fun _ told => told.takeRequest _ _ _ _) whenRunning_rest

end

theorem alertKept : AlertKept := by
  refine ⟨alertExact_of_unmasked rfl rfl, fun s t h hstep => ?_⟩
  obtain rfl | ⟨rest, ran⟩ := step_ran hstep
  · exact h
  · exact alertExact_of_ran ran h

/-- Settles O21: the request, the conditions, the end of an event, and every step by what its command runs. -/
theorem alertAndMask : Obligations.AlertAndMask := ⟨alertMaskSet, alertConditions, alertFollowsItsMask, alertKept⟩

end Sys2Proof.Alert
end

section
/-! PROOFS. STATUS (11.7, R181): its reply, what clear clears, and the report value by value. -/

namespace Sys2Proof.StatusReport

open Sys2Proof.Machine Sys2Proof.Laws Sys2Proof.Statements
open Sys2Proof.Calls (answers_of_answer)
open Sys2Proof.Store (mem_of_get_ne get_of_mem pageIndex_eq)
open Sys2Proof.Tables (toList_eq_map_range)

/-! ### The request -/

theorem tget_map_of_lt {α : Type} {n : Nat} {d : α} {t : Vector α n} {f : α → α} {k : Nat} (hk : k < n) :
    tget d (t.map f) k = f (tget d t k) := by
  simp [tget_of_lt _ _ hk]

theorem exec_status (h : RequestHeader) (clear : Bool) (s : State) : exec (.status h clear) s
    = .next (takeRequest h 3 (Instr.wf (.status h clear)) (actStatus clear) s) := rfl

theorem statusTaken : StatusTaken := by
  intro h s place
  refine ⟨fun hs => answers_of_answer (exec_status h false s) hs (by decide) rfl, fun hs => ⟨s.vol.statusClear,
    answers_of_answer (exec_status h true s) hs (by decide) rfl, fun p hp => ?_, fun p hlow hhigh => ?_, fun v hv => ?_,
    fun l hl => ?_, rfl, rfl, rfl, rfl⟩⟩
  · exact tget_map_of_lt hp
  · exact tget_map_of_lt (show p - 1 < 32 by omega)
  · exact tget_map_of_lt hv
  · exact tget_map_of_lt hl

/-! ### Tables listed and counted by their indices -/

section

variable {α β : Type} {n : Nat} (d : α) (t : Vector α n)

theorem map_toList (f : α → β) : t.toList.map f = (List.range n).map fun k => f (tget d t k) := by
  rw [toList_eq_map_range d t, List.map_map]
  rfl

theorem flatMap_toList (f : α → List β) : t.toList.flatMap f = (List.range n).flatMap fun k => f (tget d t k) := by
  rw [toList_eq_map_range d t, List.flatMap_map]

theorem length_filter_toList (f : α → Bool) :
    (t.toList.filter f).length = (List.range n).countP fun k => f (tget d t k) := by
  rw [toList_eq_map_range d t, ← List.countP_eq_length_filter, List.countP_map]
  rfl

theorem flatMap_zipIdx_toList (f : α × Nat → List β) :
    t.toList.zipIdx.flatMap f = (List.range n).flatMap fun k => f (tget d t k, k) := by
  have indexed : t.toList.zipIdx = (List.range n).map fun k => (tget d t k, k) := by
    apply List.ext_getElem
    · simp
    · intro k hk _
      simp only [List.length_zipIdx, Vector.length_toList] at hk
      simp [tget_of_lt d t hk]
  rw [indexed, List.flatMap_map]

end

/-! ### The parts of the report -/

section

variable (w : Vol)

theorem portBytes_eq (p : Nat) (x up : Port) (hup : p = 0 → x = up) : portBytes (decide (p = 0)) x
    = [byteOf x.state.code, byteOf x.counts.correctedHeader, byteOf x.counts.missing, byteOf x.counts.slotCheck,
        byteOf x.counts.indexJump, byteOf x.counts.discard, byteOf x.counts.abandon, byteOf x.counts.lockLoss]
      ++ if p = 0 then [byteOf up.counts.overflowSlip, byteOf up.counts.underflowSlip] else [] := by
  by_cases hp : p = 0
  · simp [portBytes, hp, hup hp]
  · simp [portBytes, hp]

theorem ports_listed : (w.ports.toList.zipIdx.flatMap fun p => portBytes (decide (p.2 = 0)) p.1)
    = (List.range 5).flatMap fun p =>
        [byteOf (w.port p).state.code, byteOf (w.port p).counts.correctedHeader, byteOf (w.port p).counts.missing,
          byteOf (w.port p).counts.slotCheck, byteOf (w.port p).counts.indexJump, byteOf (w.port p).counts.discard,
          byteOf (w.port p).counts.abandon, byteOf (w.port p).counts.lockLoss]
        ++ if p = 0 then [byteOf (w.port 0).counts.overflowSlip, byteOf (w.port 0).counts.underflowSlip] else [] := by
  rw [flatMap_zipIdx_toList .initial]
  refine congrArg (fun f => (List.range 5).flatMap f) (funext fun p => ?_)
  exact portBytes_eq p (w.port p) (w.port 0) fun hp => by rw [hp]

/-- The frame clock is disciplined while UP is LOCKED (R170). -/
theorem flag_not_disciplined : flag (!w.disciplined) = if (w.port 0).state = .locked then 0 else 1 := by
  unfold Vol.disciplined Vol.upLocked flag
  by_cases hl : (w.port 0).state = .locked <;> simp [hl]

theorem placesTaken_eq : w.placesTaken = (List.range 8).countP fun i => (tget none w.engine.places i).isSome :=
  length_filter_toList none w.engine.places _

theorem conflicts_listed : (w.platforms.toList.map fun x => flag x.conflict)
    = (List.range 32).map fun p => flag (w.platform (p + 1)).conflict := map_toList .initial w.platforms _

theorem claimCount_eq (st : ClaimState) :
    w.claimCount st = (List.range 40).countP fun c => decide ((w.claim c).map (·.state) = some st) := by
  unfold Vol.claimCount
  rw [length_filter_toList none w.claims]
  refine List.countP_congr fun c _ => ?_
  change _ = _ ↔ decide ((tget none w.claims c).map (·.state) = some st) = true
  cases tget none w.claims c <;> simp

theorem sources_counted : (w.live.toList.filter (·.isSome)).length = (List.range 32).countP fun l => (w.source l).isSome :=
  length_filter_toList none w.live _

theorem calls_counted : (w.calls.toList.filter (·.isSome)).length = (List.range 256).countP fun c => (w.call c).isSome :=
  length_filter_toList none w.calls _

theorem voiceCount_eq (st : VoiceState) :
    w.voiceCount st = (List.range 8).countP fun v => decide ((w.voice v).state = st) :=
  length_filter_toList .initial w.voices _

theorem voices_listed : (w.voices.toList.flatMap fun x => [byteOf x.stalls, byteOf x.damaged])
    = (List.range 8).flatMap fun v => [byteOf (w.voice v).stalls, byteOf (w.voice v).damaged] :=
  flatMap_toList .initial w.voices _

theorem lines_listed : (w.lines.toList.map fun x => flag x.latch) = (List.range 16).map fun l => flag (w.line l).latch :=
  map_toList .initial w.lines _

theorem requestCount_eq {p : ReqState → Bool} {q : Request → Bool} (h : ∀ r : Request, p r.state = q r) :
    w.requestCount p = w.queue.requests.countP q := by
  unfold Vol.requestCount
  rw [List.countP_eq_length_filter]
  simp only [h]

theorem lowCount_eq : w.lowCount = w.queue.requests.countP fun r => decide (r.priority < 12) :=
  List.countP_eq_length_filter.symm

/-- A request is VOICED where it has a voice and is not PLAYING. -/
theorem voiced_iff (r : Request) : (match r.state with
    | .voiced _ => true
    | _ => false) = (r.voice?.isSome && !r.isPlaying) := by
  unfold Request.voice? Request.isPlaying
  cases r.state <;> rfl

theorem requestCounts_eq : w.requestCounts
    = [byteOf (w.queue.requests.countP fun r => decide (r.state = .pending)),
        byteOf (w.queue.requests.countP fun r => decide (r.state = .ready)),
        byteOf (w.queue.requests.countP fun r => r.voice?.isSome && !r.isPlaying),
        byteOf (w.queue.requests.countP fun r => r.isPlaying)] := by
  unfold Vol.requestCounts
  rw [requestCount_eq w (q := fun r => decide (r.state = .pending)) fun _ => rfl,
    requestCount_eq w (q := fun r => decide (r.state = .ready)) fun _ => rfl,
    requestCount_eq w voiced_iff, requestCount_eq w (q := fun r => r.isPlaying) fun _ => rfl]

theorem evacBytes_eq : [byteOf w.evac.state.code] ++ four w.evac.timer ++ [oneOr (w.evac.list.map EvacList.code)]
      ++ present2 w.evac.request
    = [byteOf w.evac.state.code] ++ four w.evac.timer
      ++ [match w.evac.list with
        | some l => byteOf l.code
        | none => 0xFF]
      ++ (match w.evac.request with
        | some n => 2 :: two n
        | none => [1, 0xFF, 0xFF]) := by
  have shown : oneOr (w.evac.list.map EvacList.code)
      = match w.evac.list with
        | some l => byteOf l.code
        | none => 0xFF := by
    cases w.evac.list <;> rfl
  have asked : present2 w.evac.request
      = match w.evac.request with
        | some n => 2 :: two n
        | none => [1, 0xFF, 0xFF] := by
    cases w.evac.request <;> rfl
  rw [shown, asked]

end

theorem statusValues : StatusValues := by
  intro w nv
  refine ⟨_, _, _, _, _, _, _, _, _, _, _, _, ?_, rfl, rfl, rfl, rfl, rfl, rfl, rfl, rfl, rfl, rfl, rfl, evacBytes_eq w⟩
  unfold Vol.statusReport
  rw [ports_listed, flag_not_disciplined, placesTaken_eq, conflicts_listed, claimCount_eq, claimCount_eq, claimCount_eq,
    sources_counted, requestCounts_eq, lowCount_eq, voiceCount_eq, voiceCount_eq, voiceCount_eq, voiceCount_eq,
    voices_listed, calls_counted, lines_listed]
  simp only [List.append_assoc, List.cons_append, List.nil_append]

/-! ### The store's part of the report -/

section

variable {α : Type} {d : α} [DecidableEq α]

theorem nodup_keys {m : Sparse α} (hm : Sparse.wf d m = true) : (m.map Prod.fst).Nodup := by
  induction m with
  | nil => exact List.nodup_nil
  | cons e t ih =>
    obtain ⟨j, w⟩ := e
    simp only [Sparse.wf, Bool.and_eq_true] at hm
    obtain ⟨⟨-, habove⟩, ht⟩ := hm
    have hkeys := (Sparse.above_iff j t d ht).mp habove
    refine List.nodup_cons.mpr ⟨fun hj => ?_, ih ht⟩
    obtain ⟨e, he, hej⟩ := List.mem_map.mp hj
    exact absurd (hkeys e he) (by omega)

/-- The entries of a run that hold a value are as many as the keys of the run that read as it. -/
theorem entries_counted {m : Sparse α} (hm : Sparse.wf d m = true) {x : α} (hx : x ≠ d) (lo n : Nat) :
    ((m.filter fun e => decide (lo ≤ e.1) && decide (e.1 < lo + n)).filter fun e => decide (e.2 = x)).length
      = (List.range n).countP fun p => decide (Sparse.get d m (lo + p) = x) := by
  have named : ((m.filter fun e => decide (lo ≤ e.1) && decide (e.1 < lo + n)).filter fun e => decide (e.2 = x)).map Prod.fst
      |>.Perm (((List.range n).filter fun p => decide (Sparse.get d m (lo + p) = x)).map (lo + ·)) := by
    refine (List.perm_ext_iff_of_nodup ?_ ?_).mpr fun k => ?_
    · exact (nodup_keys hm).sublist ((List.filter_sublist.trans List.filter_sublist).map _)
    · exact (List.nodup_range.filter _).map fun _ _ => Nat.add_left_cancel
    simp only [List.mem_map, List.mem_filter, List.mem_range, Bool.and_eq_true, decide_eq_true_eq]
    constructor
    · rintro ⟨⟨j, v⟩, ⟨⟨hmem, hlow, hhigh⟩, hv⟩, hj⟩
      obtain rfl : j = k := hj
      obtain rfl : v = x := hv
      dsimp only at hlow hhigh
      refine ⟨j - lo, ⟨by omega, ?_⟩, by omega⟩
      rw [Nat.add_sub_cancel' hlow]
      exact (get_of_mem hm hmem).1
    · rintro ⟨p, ⟨hp, hread⟩, rfl⟩
      have hmem := mem_of_get_ne (m := m) (k := lo + p) (d := d) (by rwa [hread])
      exact ⟨_, ⟨⟨hmem, by simp, by simpa using hp⟩, hread⟩, rfl⟩
  simpa [List.countP_eq_length_filter] using named.length_eq

end

theorem pageCounts_eq {nv : Nonvolatile} {bank : ClipBank} {written dirty : Nat} (hnv : nv.wf = true)
    (hw : written = (List.range (bankPages bank)).countP (fun p => decide (nv.page bank p = .written)))
    (hd : dirty = (List.range (bankPages bank)).countP (fun p => decide (nv.page bank p = .dirty))) :
    nv.pageCounts bank = two (bankPages bank - written - dirty) ++ two written ++ two dirty := by
  obtain ⟨-, hpages, -⟩ := (Nonvolatile.wf_iff nv).mp hnv
  have read (p : Nat) : nv.page bank p = Sparse.get .erased nv.pages (pageIndex bank 0 + p) := by
    rw [← pageIndex_eq, Nonvolatile.page]
  have counted {x : PageState} (hx : x ≠ .erased) := entries_counted hpages hx (pageIndex bank 0) (bankPages bank)
  simp only [read] at hw hd
  rw [hw, hd, ← counted (by decide), ← counted (by decide)]
  rfl

theorem suspended_iff (w : Vol) (nv : Nonvolatile) : w.suspended nv = true ↔
    ∃ bank sector n, w.store.op = .erasing bank sector n ∧ w.suspendedOn nv bank = true := by
  unfold Vol.suspended
  split
  next bank sector n hop =>
    simp [hop]
  next hop =>
    refine ⟨fun h => absurd h (by decide), ?_⟩
    rintro ⟨bank, sector, n, herase, -⟩
    exact absurd herase (hop bank sector n)

theorem statusOfStore : StatusOfStore :=
  ⟨fun _ => ⟨rfl, rfl⟩, ⟨rfl, rfl⟩, fun _ _ _ _ _ => ⟨rfl, rfl⟩, fun _ _ _ => ⟨rfl, rfl⟩, fun _ _ _ _ _ => ⟨rfl, rfl⟩,
    fun _ _ => ⟨rfl, rfl⟩, fun _ _ _ _ => pageCounts_eq, suspended_iff⟩

theorem statusCodes : StatusCodes := by
  unfold StatusCodes
  decide

/-- Settles O18: the reply and what clear clears, each value of the report, and the store's codes. -/
theorem statusReport : Obligations.StatusReport := ⟨statusTaken, statusValues, statusOfStore, statusCodes⟩

end Sys2Proof.StatusReport
end

section
/-! PROOFS. RESET (11.7, R183): the notices of a soft reset, and the columns of AUDIO and of FULL. -/

namespace Sys2Proof.Reset

open Sys2Proof.Machine Sys2Proof.Laws Sys2Proof.Statements
open Sys2Proof.Live (declines_of_act answers_of_act)
open Sys2Proof.Phrases (exec_resetAudio exec_resetFull actResetAudio_normal actResetFull_normal resetFull_emptiesPhrases)
open Sys2Proof.StatusReport (tget_map_of_lt)
open Sys2Proof.Store (loadProgramme_zone loadProgramme_group loadProgramme_line)

/-! ### The notices of a soft reset (R35, R100, R178) -/

/-- A queue that has taken notices holds those for which it had room, and its flag is set where one was lost. -/
theorem foldl_notify (ns : List Notice) (w : Vol) (h : w.engine.notices.length ≤ 24) :
    ns.foldl Vol.notify w = { w with engine := { w.engine with
      notices := (w.engine.notices ++ ns.map fun n => (w.engine.address, n)).take 24
      overflow := w.engine.overflow || decide (24 < w.engine.notices.length + ns.length) } } := by
  induction ns generalizing w with
  | nil => simp [List.take_of_length_le h, Nat.not_lt.mpr h]
  | cons n ns ih =>
    rw [List.foldl_cons]
    by_cases hroom : w.engine.notices.length < 24
    · have entered : w.notify n = { w with engine := { w.engine with
          notices := w.engine.notices ++ [(w.engine.address, n)] } } := if_pos hroom
      rw [entered, ih _ (by simpa using hroom)]
      simp [Nat.add_assoc, Nat.add_comm 1]
    · have lost : w.notify n = { w with engine := { w.engine with overflow := true } } := if_neg hroom
      have full : w.engine.notices.length = 24 := by omega
      rw [lost, ih { w with engine := { w.engine with overflow := true } } h]
      simp [full]

/-- The notices of a soft reset: of the requests in queue order, then of the sources in lane order. -/
def endings (w : Vol) : List Notice :=
  (w.queue.requests.map fun r => .requestEnd (some r.number) r.origin r.call r.platform r.template r.priority .reset)
    ++ (List.range 32).filterMap fun l => (w.source l).map fun x => .liveEnd l x.opener .reset

theorem resetNotices_eq_map (w : Vol) : resetNotices w = (endings w).map fun n => (w.engine.address, n) := by
  simp [resetNotices, endings, List.map_filterMap, Function.comp_def]

theorem notify_live (w : Vol) (n : Notice) : (w.notify n).live = w.live := by
  unfold Vol.notify
  split <;> rfl

theorem foldl_notify_live (ns : List Notice) (w : Vol) : (ns.foldl Vol.notify w).live = w.live := by
  induction ns generalizing w with
  | nil => rfl
  | cons n ns ih => rw [List.foldl_cons, ih, notify_live]

/-- The walk over the lanes sends the notices of the sources that stand before it. -/
theorem foldl_liveEnds (ls : List Nat) (w v : Vol) (h : w.live = v.live) :
    ls.foldl (fun w l => match w.source l with
      | some x => w.notify (.liveEnd l x.opener .reset)
      | none => w) w
    = (ls.filterMap fun l => (v.source l).map fun x => Notice.liveEnd l x.opener .reset).foldl Vol.notify w := by
  induction ls generalizing w with
  | nil => rfl
  | cons l ls ih =>
    have same : w.source l = v.source l := by simp only [Vol.source, h]
    rw [List.foldl_cons]
    cases hv : v.source l with
    | none =>
      rw [same, hv, List.filterMap_cons_none (by rw [hv]; rfl)]
      exact ih w h
    | some x =>
      rw [same, hv, List.filterMap_cons_some (b := .liveEnd l x.opener .reset) (by rw [hv]; rfl), List.foldl_cons]
      exact ih _ ((notify_live _ _).trans h)

theorem resetNotices_eq_foldl (w : Vol) : w.resetNotices = (endings w).foldl Vol.notify w := by
  have requests : w.queue.requests.foldl (fun w r => w.endNotice r .reset) w = (w.queue.requests.map fun r =>
      .requestEnd (some r.number) r.origin r.call r.platform r.template r.priority .reset).foldl Vol.notify w :=
    List.foldl_map.symm
  unfold Vol.resetNotices endings
  rw [requests, List.foldl_append]
  exact foldl_liveEnds _ _ w (foldl_notify_live _ w)

/-- R183: the queue is emptied, and every request and source that ends enters its notice: nothing but the queue and its flag
changes. -/
theorem dropNotices_resetNotices (w : Vol) : w.dropNotices.resetNotices = { w with engine := { w.engine with
    notices := (resetNotices w).take 24
    overflow := w.engine.overflow || !w.engine.notices.isEmpty || decide (24 < (resetNotices w).length) } } := by
  rw [resetNotices_eq_foldl, foldl_notify _ _ (Nat.zero_le _), resetNotices_eq_map, List.length_map]
  change { w with engine := { w.engine with
    notices := ([] ++ (endings w).map fun n => (w.engine.address, n)).take 24
    overflow := (w.engine.overflow || !w.engine.notices.isEmpty) || decide (24 < 0 + (endings w).length) } } = _
  rw [List.nil_append, Nat.zero_add]

/-! ### The column of AUDIO (R183) -/

theorem softReset_eq (c : StoreCtl) : Vol.StoreCtl.softReset c = softStore c := by
  unfold Vol.StoreCtl.softReset softStore
  congr 2
  funext r
  cases r.user <;> rfl

/-- What a soft AUDIO reset makes of `w`. -/
structure SoftAudio (w u : Vol) : Prop where
  queue : u.queue = { w.queue with requests := [], nextStamp := 0 }
  claim : ∀ c, u.claim c = none
  stampCounter : u.stampCounter = 0
  source : ∀ l, u.source l = none
  zone : ∀ z < 64, u.zone z = { w.zone z with holder := none, waiters := [] }
  gain : ∀ z < 64, u.gain z = { w.gain z with stagedFg := none, stagedBg := none, fgLevel := 192, bgLevel := 192, cut := false }
  voice : ∀ v < 8, u.voice v = { Voice.initial with stalls := (w.voice v).stalls, damaged := (w.voice v).damaged }
  store : u.store = softStore w.store
  engine : u.engine = { w.engine with notices := (resetNotices w).take 24, overflow := u.engine.overflow, cause := .soft }
  overflow : u.engine.overflow = true ↔
    w.engine.overflow = true ∨ w.engine.notices ≠ [] ∨ 24 < (resetNotices w).length
  rest : { u with queue := w.queue, claims := w.claims, stampCounter := w.stampCounter, live := w.live,
                  zones := w.zones, gains := w.gains, voices := w.voices, store := w.store, engine := w.engine } = w

theorem softAudio_resetAudio (w : Vol) : SoftAudio w w.resetAudio := by
  unfold Vol.resetAudio
  rw [dropNotices_resetNotices]
  constructor
  case queue => rfl
  case claim => exact Zones.tget_replicate none 40
  case stampCounter => rfl
  case source => exact Zones.tget_replicate none 32
  case zone => exact fun z hz => tget_map_of_lt hz
  case gain => exact fun z hz => tget_map_of_lt hz
  case voice => exact fun v hv => tget_map_of_lt hv
  case store => exact softReset_eq w.store
  case engine => rfl
  case overflow => simp [or_assoc]
  case rest => rfl

/-- Settles O19: the refusal, or the soft AUDIO column. -/
theorem resetAudio : Obligations.ResetAudio := by
  refine fun h s place hs => ⟨fun hactive => ?_, fun hnormal => ⟨s.vol.resetAudio, ?_, ?_⟩⟩
  · exact declines_of_act (exec_resetAudio h s) hs (by decide) (if_pos hactive)
  · exact answers_of_act (exec_resetAudio h s) hs (by decide) (actResetAudio_normal hnormal)
  · obtain ⟨queue, claim, stampCounter, source, zone, gain, voice, store, engine, lost, rest⟩ := softAudio_resetAudio s.vol
    exact ⟨queue, claim, stampCounter, source, zone, gain, voice, store, engine, lost, rest⟩

/-! ### The column of FULL (R6, R183) -/

/-- What a soft FULL reset makes of a zone, but for its resident fields. -/
def SoftZone (x y : Zone) : Prop :=
  y.bgLane = none ∧ y.bgBase = 0 ∧ y.fgBase = 0 ∧ y.duck = 0 ∧ y.fallback = none ∧ y.compOn = false ∧ y.compRef = 60
    ∧ y.compLimit = 0 ∧ y.extFault = false ∧ y.holder = none ∧ y.waiters = [] ∧ y.history = x.history
    ∧ (y.placement = none ∨ y.placement = x.placement →
        y.cond = x.cond ∧ y.normals = x.normals ∧ y.silence = x.silence ∧ y.ambient = x.ambient)
    ∧ (y.placement ≠ none → y.placement ≠ x.placement →
        y.cond = .unknown ∧ y.normals = 0 ∧ y.silence = 0 ∧ y.ambient = none)

theorem softZone_fullZone (pr : Programme) (z : Nat) (x : Zone) : SoftZone x (Vol.fullZone pr z x) := by
  unfold Vol.fullZone
  dsimp only
  split
  next hmoved =>
    obtain ⟨hplaced, hother⟩ := hmoved
    refine ⟨rfl, rfl, rfl, rfl, rfl, rfl, rfl, rfl, rfl, rfl, rfl, rfl, fun hkept => ?_, fun _ _ => ⟨rfl, rfl, rfl, rfl⟩⟩
    obtain hnone | hsame := hkept
    · exact absurd hnone (Option.isSome_iff_ne_none.mp hplaced)
    · exact absurd hsame hother
  next hkept =>
    exact ⟨rfl, rfl, rfl, rfl, rfl, rfl, rfl, rfl, rfl, rfl, rfl, rfl, fun _ => ⟨rfl, rfl, rfl, rfl⟩,
      fun hplaced hother => absurd ⟨Option.isSome_iff_ne_none.mpr hplaced, hother⟩ hkept⟩

/-- The programme that a soft FULL reset loads gives a zone the resident fields that its column has given it. -/
theorem fullZone_loaded (pr : Programme) (z : Nat) (x : Zone) : { Vol.fullZone pr z x with
    placement := tget none pr.placements z, enabled := tget false pr.enabled z, evacBase := tget 0 pr.evacBases z }
    = Vol.fullZone pr z x := by
  unfold Vol.fullZone
  dsimp only
  split <;> rfl

theorem fullZone_resident (pr : Programme) (z : Nat) (x : Zone) : (Vol.fullZone pr z x).placement = tget none pr.placements z
    ∧ (Vol.fullZone pr z x).enabled = tget false pr.enabled z ∧ (Vol.fullZone pr z x).evacBase = tget 0 pr.evacBases z := by
  rw [← fullZone_loaded]
  exact ⟨rfl, rfl, rfl⟩

section

variable (w : Vol) (pr : Programme)

theorem resetFull_zone {z : Nat} (hz : z < 64) : (w.resetFull pr).zone z = Vol.fullZone pr z (w.resetAudio.zone z) := by
  unfold Vol.resetFull
  dsimp only
  generalize w.resetAudio = u
  rw [loadProgramme_zone _ _ hz, ← fullZone_loaded]
  simp only [Vol.zone, tget_of_lt _ _ hz, Vector.getElem_mapIdx]

theorem resetFull_group (g : Nat) : (w.resetFull pr).group g = if g = 31 then pr.group else [] := by
  unfold Vol.resetFull
  rw [loadProgramme_group]
  simp [Vol.group]

theorem resetFull_line {l : Nat} (hl : l < 16) :
    (w.resetFull pr).line l = residentLineFrom (tget none pr.lines l) (w.resetAudio.line l).raw := by
  unfold Vol.resetFull
  dsimp only
  generalize w.resetAudio = u
  exact loadProgramme_line _ _ hl

theorem resetFull_evac : (w.resetFull pr).evac = { w.resetAudio.evac with
    lane := pr.lane, alertList := pr.alertList, evacList := pr.evacList, duration := pr.duration } := by
  unfold Vol.resetFull
  dsimp only
  generalize w.resetAudio = u
  rfl

theorem resetFull_engine : (w.resetFull pr).engine = { w.resetAudio.engine with mask := [] } := by
  unfold Vol.resetFull
  dsimp only
  generalize w.resetAudio = u
  rfl

/-- What the column of FULL has from the column of AUDIO. -/
theorem resetFull_keeps : (w.resetFull pr).queue = w.resetAudio.queue ∧ (w.resetFull pr).claims = w.resetAudio.claims
    ∧ (w.resetFull pr).stampCounter = w.resetAudio.stampCounter ∧ (w.resetFull pr).live = w.resetAudio.live
    ∧ (w.resetFull pr).gains = w.resetAudio.gains ∧ (w.resetFull pr).voices = w.resetAudio.voices
    ∧ (w.resetFull pr).store = w.resetAudio.store ∧ (w.resetFull pr).clock = w.resetAudio.clock
    ∧ (w.resetFull pr).mode = w.resetAudio.mode ∧ (w.resetFull pr).ports = w.resetAudio.ports
    ∧ (w.resetFull pr).sent = w.resetAudio.sent ∧ (w.resetFull pr).reportDiscards = w.resetAudio.reportDiscards
    ∧ (w.resetFull pr).fclk = w.resetAudio.fclk.releaseGens ∧ (w.resetFull pr).align = w.resetAudio.align.setDelay 96 := by
  unfold Vol.resetFull
  dsimp only
  generalize w.resetAudio = u
  exact ⟨rfl, rfl, rfl, rfl, rfl, rfl, rfl, rfl, rfl, rfl, rfl, rfl, rfl, rfl⟩

/-- The tables and the settings at their start values. -/
theorem resetFull_clears : (∀ p, (w.resetFull pr).platform p = .initial) ∧ (∀ c, (w.resetFull pr).call c = none)
    ∧ (w.resetFull pr).due = [] ∧ (∀ p, (w.resetFull pr).profile p = .initial) ∧ (∀ n, (w.resetFull pr).template n = none)
    ∧ (w.resetFull pr).rampRate = 2 ∧ (w.resetFull pr).monitor = none ∧ (∀ g, (w.resetFull pr).gen g = .initial) := by
  unfold Vol.resetFull
  dsimp only
  generalize w.resetAudio = u
  exact ⟨fun _ => Zones.tget_replicate _ _ _, fun _ => Zones.tget_replicate _ _ _, rfl, fun _ => Zones.tget_replicate _ _ _,
    fun _ => Zones.tget_replicate _ _ _, rfl, rfl, fun _ => Zones.tget_replicate _ _ _⟩

/-- What the column of AUDIO leaves and the column of FULL reads. -/
theorem resetAudio_leaves : w.resetAudio.clock = w.clock ∧ w.resetAudio.mode = w.mode ∧ w.resetAudio.ports = w.ports
    ∧ w.resetAudio.sent = w.sent ∧ w.resetAudio.reportDiscards = w.reportDiscards ∧ w.resetAudio.fclk = w.fclk
    ∧ w.resetAudio.align = w.align ∧ w.resetAudio.evac = w.evac ∧ w.resetAudio.lines = w.lines := by
  unfold Vol.resetAudio
  rw [dropNotices_resetNotices]
  exact ⟨rfl, rfl, rfl, rfl, rfl, rfl, rfl, rfl, rfl⟩

theorem setDelay_delay (x : AlignBuffer) (d : Nat) : (x.setDelay d).delay = d := by
  unfold AlignBuffer.setDelay
  split
  next h => exact h
  · split <;> rfl

theorem softZone_resetFull {z : Nat} (hz : z < 64) : SoftZone (w.zone z) ((w.resetFull pr).zone z) := by
  have column := softZone_fullZone pr z (w.resetAudio.zone z)
  rw [resetFull_zone w pr hz]
  rw [(softAudio_resetAudio w).zone z hz] at column ⊢
  exact column

/-- R135: the blocks load the resident programme. -/
theorem resetFull_programme : (∀ z < 64, ((w.resetFull pr).zone z).placement = tget none pr.placements z
      ∧ ((w.resetFull pr).zone z).enabled = tget false pr.enabled z
      ∧ ((w.resetFull pr).zone z).evacBase = tget 0 pr.evacBases z)
    ∧ (w.resetFull pr).group 31 = pr.group
    ∧ (w.resetFull pr).evac = { w.evac with
        lane := pr.lane, alertList := pr.alertList, evacList := pr.evacList, duration := pr.duration }
    ∧ ∀ l < 16, (w.resetFull pr).line l = residentLineFrom (tget none pr.lines l) (w.line l).raw := by
  obtain ⟨-, -, -, -, -, -, -, evac, lines⟩ := resetAudio_leaves w
  refine ⟨fun z hz => ?_, ?_, ?_, fun l hl => ?_⟩
  · rw [resetFull_zone w pr hz]
    exact fullZone_resident pr z _
  · rw [resetFull_group, if_pos rfl]
  · rw [resetFull_evac, evac]
  · rw [resetFull_line w pr hl, Vol.line, lines]
    rfl

/-- What the column of FULL makes of the levels of a zone. -/
theorem resetFull_gain {z : Nat} (hz : z < 64) : ((w.resetFull pr).gain z).fgLevel = 192
    ∧ ((w.resetFull pr).gain z).bgLevel = 192 ∧ ((w.resetFull pr).gain z).stagedFg = none
    ∧ ((w.resetFull pr).gain z).stagedBg = none ∧ ((w.resetFull pr).gain z).cut = false := by
  obtain ⟨-, -, -, -, gains, -⟩ := resetFull_keeps w pr
  rw [Vol.gain, gains]
  have level := (softAudio_resetAudio w).gain z hz
  rw [Vol.gain] at level
  rw [level]
  exact ⟨rfl, rfl, rfl, rfl, rfl⟩

end

/-- Settles O20: the refusals, or the soft AUDIO column followed by the tables, the settings and the programme. -/
theorem resetFull : Obligations.ResetFull := by
  refine fun h s place hs => ⟨fun hactive => ?_, fun hnormal hwriting => ?_,
    fun hnormal hfree => ⟨s.vol.resetFull (s.nv.loaded s.vol.store.programmeValid), ?_, ?_⟩⟩
  · exact declines_of_act (exec_resetFull h s) hs (by decide) (if_pos hactive)
  · exact declines_of_act (exec_resetFull h s) hs (by decide) (by simp [actResetFull, hnormal, hwriting])
  · exact answers_of_act (exec_resetFull h s) hs (by decide) (actResetFull_normal hnormal hfree)
  have audio := softAudio_resetAudio s.vol
  obtain ⟨clock, mode, ports, sent, reports, fclk, align, -, -⟩ := resetAudio_leaves s.vol
  generalize hpr : s.nv.loaded s.vol.store.programmeValid = pr
  obtain ⟨kqueue, kclaims, kstamp, klive, -, kvoices, kstore, kclock, kmode, kports, ksent, kreports, kfclk, kalign⟩ :=
    resetFull_keeps s.vol pr
  obtain ⟨platform, call, due, profile, template, rate, monitor, gen⟩ := resetFull_clears s.vol pr
  rw [align] at kalign
  rw [fclk] at kfclk
  have engine := resetFull_engine s.vol pr
  refine ⟨kqueue.trans audio.queue, fun c => ?_, kstamp.trans audio.stampCounter, fun l => ?_,
    fun z hz => softZone_resetFull s.vol pr hz, ?_, fun z hz => resetFull_gain s.vol pr hz, fun g hg => ?_, platform, call, due,
    profile, template, resetFull_emptiesPhrases _ _, rate, monitor, ?_, fun hsame => ?_, fun hother hsilent => ?_,
    fun hother hfilled => ?_, gen, fun v hv => ?_, ?_, ?_, kclock.trans clock, kmode.trans mode, kports.trans ports, ?_, ?_, ?_,
    ksent.trans sent, kreports.trans reports, kstore.trans audio.store⟩
  · rw [Vol.claim, kclaims]
    exact audio.claim c
  · rw [Vol.source, klive]
    exact audio.source l
  · rintro _ rfl
    rw [show (if s.vol.store.programmeValid = true then s.nv.programme else .empty) = pr from hpr]
    exact resetFull_programme s.vol pr
  · rw [resetFull_group, if_neg (by omega)]
  · rw [kalign]
    exact setDelay_delay _ _
  · rw [kalign, Tables.setDelay_same hsame]
  · rw [kalign, Tables.setDelay_silent hother hsilent]
  · rw [kalign, Tables.setDelay_refills hother hfilled]
  · exact (congrArg (fun voices => tget Voice.initial voices v) kvoices).trans (audio.voice v hv)
  · have masked := congrArg (fun e : Engine => { e with mask := [] }) audio.engine
    rw [engine]
    exact masked
  · have flagged := audio.overflow
    rw [engine]
    generalize s.vol.resetAudio.engine = held at flagged ⊢
    exact flagged
  · rw [kfclk, FrameClock.releaseGens_count]
  · rw [kfclk, FrameClock.releaseGens_fresh]
  · intro m
    rw [kfclk, FrameClock.mem_releaseGens_done]

end Sys2Proof.Reset
end
